-- ==== Sys2Proof/Word.lean ====
section
/-! DEFINITION. Word.lean: the word types of the model (R3, R4, R9). -/

namespace Sys2Proof

/-- A byte. -/
abbrev Byte := BitVec 8
/-- A 32-bit word: sequencer register, setup register, FP32 bit pattern. -/
abbrev Word := BitVec 32
/-- A 64-bit word. -/
abbrev Dword := BitVec 64
/-- A logical tile number (R9): half [10], cluster [9:5], tile [4:0]. -/
abbrev Ltn := BitVec 11
/-- A sequencer register number g0-g31 (R74). -/
abbrev GReg := BitVec 5
/-- A section number 0-15 (R9). -/
abbrev SectId := BitVec 4
/-- A Xagon link number 0-31 (R9). -/
abbrev LinkId := BitVec 5
/-- A cluster, half x 32 + cluster (R36). -/
abbrev ClusterId := BitVec 6
/-- A packed ACC40 value (R99, R130). -/
abbrev Acc := BitVec 40

/-- A sparse table: keys strictly rising, no entry equal to what an unlisted key reads as. -/
abbrev Sparse (α : Type) := List (Nat × α)

end Sys2Proof
end

