-- ==== Sys2Proof/Machine/Sparse.lean ====
section
/-! DEFINITION. Sparse.lean: the operations over sparse tables and byte memories. Byte order is decided here, once (R3). -/

namespace Sys2Proof.Machine

/-- The value a sparse table holds at a key; d is what an unlisted key reads as. -/
def Sparse.get {α : Type} (d : α) : Sparse α → Nat → α
  | [], _ => d
  | (k, v) :: m, a => if a = k then v else Sparse.get d m a

/-- Puts an entry that differs from d in its place, keys rising. -/
def Sparse.insert {α : Type} : Sparse α → Nat → α → Sparse α
  | [], a, x => [(a, x)]
  | (k, v) :: m, a, x =>
    if a < k then (a, x) :: (k, v) :: m
    else if a = k then (a, x) :: m
    else (k, v) :: Sparse.insert m a x

/-- Sets the value at a key: an entry equal to d is left out. -/
def Sparse.set {α : Type} [DecidableEq α] (d : α) (m : Sparse α) (a : Nat) (x : α) : Sparse α :=
  if x = d then m.filter (fun e => e.1 != a) else Sparse.insert m a x

/-- Every key listed lies above lo, keys rise strictly and no entry equals d. -/
def Sparse.above {α : Type} [DecidableEq α] (d : α) : Nat → Sparse α → Bool
  | _, [] => true
  | lo, (k, v) :: m => decide (lo ≤ k) && decide (v ≠ d) && Sparse.above d (k + 1) m

/-- The canonical form of a sparse table. -/
def Sparse.wf {α : Type} [DecidableEq α] (d : α) (m : Sparse α) : Bool := Sparse.above d 0 m

/-- Applies f to the value at a key. -/
def Sparse.modify {α : Type} [DecidableEq α] (d : α) (m : Sparse α) (a : Nat) (f : α → α) : Sparse α :=
  Sparse.set d m a (f (Sparse.get d m a))

/-- Removes every entry whose key lies in lo .. hi - 1. -/
def Sparse.clearRange {α : Type} (m : Sparse α) (lo hi : Nat) : Sparse α :=
  m.filter (fun e => decide (e.1 < lo) || decide (hi ≤ e.1))

/-- The entries of a run of values from key lo on, those equal to d left out. -/
def Sparse.run {α : Type} [DecidableEq α] (d : α) : Nat → List α → Sparse α
  | _, [] => []
  | lo, x :: xs => if x = d then Sparse.run d (lo + 1) xs else (lo, x) :: Sparse.run d (lo + 1) xs

/-- Sets a run of values from key lo on. -/
def Sparse.putRun {α : Type} [DecidableEq α] (d : α) (m : Sparse α) (lo : Nat) (xs : List α) : Sparse α :=
  m.filter (fun e => decide (e.1 < lo)) ++ Sparse.run d lo xs ++ m.filter (fun e => decide (lo + xs.length ≤ e.1))

/-- A byte memory: what an unlisted address reads as is 0 (R203, R210, R391). -/
abbrev Memory := List Host.Cell

/-- The byte that an unlisted address of a memory reads as. -/
def Memory.empty : Byte := 0

/-- One byte of a memory. -/
def Memory.read (m : Memory) (a : Nat) : Byte := Sparse.get Memory.empty m a

/-- Writes one byte. -/
def Memory.write (m : Memory) (a : Nat) (b : Byte) : Memory := Sparse.set Memory.empty m a b

/-- The canonical form of a memory. -/
def Memory.wf (m : Memory) : Bool := Sparse.wf Memory.empty m

/-- n bytes from a up. -/
def Memory.readBytes (m : Memory) (a : Nat) : Nat → List Byte
  | 0 => []
  | n + 1 => Memory.read m a :: Memory.readBytes m (a + 1) n

/-- Writes a run of bytes from a up. -/
def Memory.writeBytes (m : Memory) (a : Nat) : List Byte → Memory
  | [] => m
  | b :: bs => Memory.writeBytes (Memory.write m a b) (a + 1) bs

/-- The number that a run of bytes spells, least significant byte first (R3). -/
def leNat : List Byte → Nat
  | [] => 0
  | b :: bs => b.toNat + 256 * leNat bs

/-- The n bytes of a number, least significant first (R3). -/
def leBytes : Nat → Nat → List Byte
  | 0, _ => []
  | n + 1, v => BitVec.ofNat 8 v :: leBytes n (v / 256)

/-- The number of the n bytes from offset o of a byte string; bytes beyond its end read as 0 (R4). -/
def fieldAt (bs : List Byte) (o n : Nat) : Nat := leNat ((bs.drop o).take n)

/-- Bits hi down to lo of a number (R4). -/
def bitsOf (v hi lo : Nat) : Nat := (v / 2 ^ lo) % 2 ^ (hi + 1 - lo)

/-- Bit i of a number. -/
def bitOf (v i : Nat) : Bool := (v / 2 ^ i) % 2 == 1

/-- A Bool as a number. -/
def boolNat (b : Bool) : Nat := if b then 1 else 0

/-- The number of n bytes of a memory from a up. -/
def Memory.readLe (m : Memory) (a n : Nat) : Nat := leNat (Memory.readBytes m a n)

/-- Writes the n bytes of v from a up. -/
def Memory.writeLe (m : Memory) (a n v : Nat) : Memory := Memory.writeBytes m a (leBytes n v)

/-- A run of n bytes, all b. -/
def fillBytes (n : Nat) (b : Byte) : List Byte := List.replicate n b

/-- The bytes b of a string, padded with zeros or cut to exactly n. -/
def padTo (n : Nat) (bs : List Byte) : List Byte := (bs ++ List.replicate (n - bs.length) 0).take n

/-- v rounded up to a multiple of k. -/
def roundUp (v k : Nat) : Nat := (v + (k - 1)) / k * k

/-- Whether [a, a + n) and [b, b + k) share an address; an empty range shares none. -/
def overlaps (a n b k : Nat) : Bool := decide (0 < n) && decide (0 < k) && decide (a < b + k) && decide (b < a + n)

/-- Adds to a counter that saturates at 2^32 - 1 (R222, R252). -/
def satAdd32 (a b : Nat) : Nat := min (a + b) 0xFFFFFFFF

/-- Whether every byte of a string is 0. -/
def allZero (bs : List Byte) : Bool := bs.all (fun b => b == 0)

end Sys2Proof.Machine
end

