-- ==== Sys2Proof/Machine/Image.lean ====
section
/-! DEFINITION. Image.lean: what Cerfold's images declare, item by item in the byte layouts the spec gives the items (R48-R50, R233, R236, R238, R268, R377, R380). The PROGRAM chunk that gathers the items has no layout in the spec (R460, log 5). -/

namespace Sys2Proof.Machine

/-- One tile's part of a timetable: its superstep records of 16 bytes and its send entries of 32 bytes (R49, R50), and where header and send entries lie in its tile store (log 5). -/
structure TileTimetable where
  ltn : Nat
  records : List (List Byte)
  sends : List (List Byte)
  headerOff : Nat := 0
  sendsOff : Nat := 0
  deriving DecidableEq, Repr

/-- A timetable: its 64-byte header (R48) and each tile's part. -/
structure Timetable where
  header : List Byte
  tiles : List TileTimetable
  deriving DecidableEq, Repr

/-- A version range that an image declares for a tile (R290). -/
structure RangeDecl where
  group : Nat
  slotB : Bool
  off : Nat
  len : Nat
  initial : Bool
  deriving DecidableEq, Repr

/-- What an image declares for one tile. -/
structure ImageTile where
  ltn : Nat
  codeBase : Nat := 0
  codeLimit : Nat := 0
  loadSet : List (Nat × List Byte) := []
  loadHome : Nat := 0
  saveSet : List (Nat × Nat) := []
  saveHome : Nat := 0
  tileStore : List (Nat × List Byte) := []
  granules : List (Nat × Bool) := []
  bankClass : List Nat := []
  bankW : List Bool := []
  ttOff : Nat := 0
  ttLen : Nat := 0
  versionTable : Option Nat := none
  ranges : List RangeDecl := []
  deriving DecidableEq, Repr

/-- A table entry of one sorting office: office, index, the entry's bytes (R233, R236, R238), and its home in a tile store of the office's cluster (R43, log 5). -/
structure OfficeEntry where
  office : Nat
  index : Nat
  bytes : List Byte
  ltn : Nat := 0
  off : Nat := 0
  deriving DecidableEq, Repr

/-- A handover slot (R327). -/
structure HandoverSlot where
  isLocal : Bool
  ltn : Nat
  off : Nat
  deriving DecidableEq, Repr

/-- The handover slots of one HANDOVER superstep record of one timetable. -/
structure HandoverList where
  ttId : Nat
  record : Nat
  slots : List HandoverSlot
  deriving DecidableEq, Repr

/-- A piece of an evaluation image's weights: a range of a group's logical bytes and where it lies in a tile for each evaluation slot (R65, R299). -/
structure EvalPiece where
  group : Nat
  srcOff : Nat
  len : Nat
  ltn : Nat
  offA : Nat
  offB : Nat
  deriving DecidableEq, Repr

/-- A tensor slot that an image declares (R149): its SECT_SLOT_CFG word and fixed scale. -/
structure SlotDecl where
  slot : Nat
  cfg : Nat
  fixed : Word
  deriving DecidableEq, Repr

/-- What the PROGRAM chunk of an image declares. -/
structure ProgImage where
  chunk : List Byte := []
  /-- SWITCH_IN, WHOLE, HEAD, MIDDLE, TAIL: the address and its byte offset in the image (R72). -/
  entries : List (Nat × Nat) := []
  classes : List Nat := []
  carryBytes : Nat := 0
  timetables : List Timetable := []
  routes : List OfficeEntry := []
  circulars : List OfficeEntry := []
  nodes : List OfficeEntry := []
  tiles : List ImageTile := []
  slots : List SlotDecl := []
  groups : List (List Byte) := []
  masks : List (Nat × Nat × Nat) := []
  span : List Byte := []
  windows : List (List Byte) := []
  handovers : List HandoverList := []
  versionArea : Nat := 0
  evalPieces : List EvalPiece := []
  /-- The slices of each group in drain order (R266, R278). -/
  drains : List (Nat × List Nat) := []
  deriving DecidableEq, Repr

/-- One group's part of a GROUPS chunk, and of a FACTORS chunk whether the group's factors are valid and where in the image its first block lies, if it has one (R460). -/
structure CtxGroup where
  group : Nat
  ctl : Word
  kron : Word
  hp : List Word
  steps : Nat
  fsteps : Nat
  stampA : Nat
  stampB : Nat
  factorsValid : Bool
  factorsOff : Option Nat := none
  deriving DecidableEq, Repr

/-- One tile's granule map in a TILE_DATA chunk (R460): the granules that the program owns with their codes, and where in the image the 64 KiB of the first of them lie. -/
structure CtxTile where
  ltn : Nat
  granules : List (Nat × Bool)
  dataOff : Nat
  deriving DecidableEq, Repr

/-- What the chunks of a context image hold in items that the spec gives no layout (R460, log 5): granule maps and the GROUPS chunk. All else a LOAD takes from the image's bytes. -/
structure CtxImage where
  tiles : List CtxTile := []
  groups : List CtxGroup := []
  deriving DecidableEq, Repr

/-- An image as a LOAD reads it: its bytes, and what its items without a layout in the spec declare. -/
structure ImageData where
  bytes : List Byte
  prog : ProgImage := {}
  ctx : CtxImage := {}
  deriving DecidableEq, Repr

/-- The n bytes at offset o of a byte string as a number: a field of an item (R4). -/
def at_ (bs : List Byte) (o n : Nat) : Nat := fieldAt bs o n

/-- The part of a timetable that belongs to a tile. -/
def Timetable.tile (t : Timetable) (ltn : Nat) : TileTimetable :=
  (t.tiles.find? (fun x => x.ltn == ltn)).getD { ltn := ltn, records := [], sends := [] }

/-- ID of a timetable (R48). -/
def Timetable.id (t : Timetable) : Nat := at_ t.header 0 2
/-- SEGMENTED of R48. -/
def Timetable.segmented (t : Timetable) : Bool := bitOf (at_ t.header 2 2) 0
/-- LIMIT of R48. -/
def Timetable.limit (t : Timetable) : Nat := at_ t.header 4 4
/-- SS_WHOLE of R48. -/
def Timetable.ssWhole (t : Timetable) : Nat := at_ t.header 8 4
/-- SS_HEAD of R48. -/
def Timetable.ssHead (t : Timetable) : Nat := at_ t.header 12 4
/-- SS_MIDDLE of R48. -/
def Timetable.ssMiddle (t : Timetable) : Nat := at_ t.header 16 4
/-- SS_TAIL_BASE of R48. -/
def Timetable.ssTailBase (t : Timetable) : Nat := at_ t.header 20 4
/-- SS_TAIL_EACH of R48. -/
def Timetable.ssTailEach (t : Timetable) : Nat := at_ t.header 24 4
/-- MAX_SEG of R48. -/
def Timetable.maxSeg (t : Timetable) : Nat := at_ t.header 28 2
/-- CARRY_SIZE of R48. -/
def Timetable.carrySize (t : Timetable) : Nat := at_ t.header 32 4
/-- CARRY_BASE of R48. -/
def Timetable.carryBase (t : Timetable) : Nat := at_ t.header 36 4
/-- T_SEG of R48. -/
def Timetable.tSeg (t : Timetable) : Nat := at_ t.header 40 4
/-- SS_OFFSET of R48. -/
def Timetable.ssOffset (t : Timetable) : Nat := at_ t.header 48 4
/-- SS_RECORDS of R48. -/
def Timetable.ssRecords (t : Timetable) : Nat := at_ t.header 44 4

/-- Superstep count of a sequence (R48, R79): code 0 WHOLE, 1 HEAD, 2 MIDDLE, 3 TAIL of n segments. -/
def Timetable.ssCount (t : Timetable) (code n : Nat) : Nat :=
  match code with
  | 0 => t.ssWhole
  | 1 => t.ssHead
  | 2 => t.ssMiddle
  | _ => t.ssTailBase + (n - 2) * t.ssTailEach

/-- Record k of a tile (R49); an absent record reads as zeros. -/
def TileTimetable.record (t : TileTimetable) (k : Nat) : List Byte := t.records.getD k []

/-- BOUND of a superstep record (R49). -/
def recBound (r : List Byte) : Nat := at_ r 0 4
/-- SEND_FIRST of a superstep record (R49). -/
def recSendFirst (r : List Byte) : Nat := at_ r 4 4
/-- SEND_COUNT of a superstep record (R49). -/
def recSendCount (r : List Byte) : Nat := at_ r 8 2
/-- RECV_COUNT of a superstep record (R49). -/
def recRecvCount (r : List Byte) : Nat := at_ r 10 2
/-- HANDOVER of a superstep record (R49). -/
def recHandover (r : List Byte) : Bool := bitOf (at_ r 12 2) 0
/-- STEP_END of a superstep record (R49). -/
def recStepEnd (r : List Byte) : Bool := bitOf (at_ r 12 2) 1

/-- OFFSET of a send entry (R50). -/
def sendOffset (e : List Byte) : Nat := at_ e 0 4
/-- SRC of a send entry (R50). -/
def sendSrc (e : List Byte) : Nat := at_ e 4 4
/-- LENGTH of a send entry (R50). -/
def sendLength (e : List Byte) : Nat := at_ e 8 4
/-- DEST of a send entry (R50). -/
def sendDest (e : List Byte) : Nat := at_ e 12 2
/-- ROUTE of a send entry (R50). -/
def sendRoute (e : List Byte) : Nat := at_ e 14 2
/-- NODE of a send entry (R50). -/
def sendNode (e : List Byte) : Nat := at_ e 16 2
/-- CIRCULAR of a send entry (R50). -/
def sendCircular (e : List Byte) : Bool := bitOf (at_ e 18 2) 0
/-- PARTIAL of a send entry (R50). -/
def sendPartial (e : List Byte) : Bool := bitOf (at_ e 18 2) 1
/-- Virtual channel of a send entry (R50). -/
def sendVc (e : List Byte) : Nat := bitsOf (at_ e 18 2) 4 2
/-- REMOTE of a send entry (R50). -/
def sendRemote (e : List Byte) : Bool := bitOf (at_ e 18 2) 5
/-- DST of a send entry (R50). -/
def sendDst (e : List Byte) : Nat := at_ e 20 4

/-- The timetable of a program with the given ID. -/
def ProgImage.timetable (p : ProgImage) (id : Nat) : Option Timetable := p.timetables.find? (fun t => t.id == id)

/-- What a program declares for a tile. -/
def ProgImage.tile (p : ProgImage) (ltn : Nat) : ImageTile :=
  (p.tiles.find? (fun t => t.ltn == ltn)).getD { ltn := ltn }

/-- A table entry of an office as a number; an absent entry is 0 (INVALID). -/
def tableEntry (t : List OfficeEntry) (office index : Nat) : List Byte :=
  match t.find? (fun e => e.office == office && e.index == index) with
  | some e => e.bytes
  | none => []

end Sys2Proof.Machine
end

