-- ==== Sys2Proof/Syntax.lean ====
section
/-! DEFINITION. Syntax.lean: the commands of spec/opcode_table.json, one constructor per row. -/

namespace Sys2Proof

/-- What the read of a LOAD's image comes to (R350, R460): a host read failed, or the image. -/
inductive LoadResult where
  | readFailed
  | image (d : Machine.ImageData)
  deriving DecidableEq, Repr

/-- What the boot controller's fetch comes to (R396, R397): the read of the manifest, the record or the body failed, with what had been fetched before it, or the bytes of bundle and record. -/
inductive FetchResult where
  | noManifest
  | noRecord (block : List Byte)
  | noBody (block record : List Byte)
  | fetched (bundle record : List Byte)
  deriving DecidableEq, Repr

/-- What failed to train in STARTING (R397, R445): the UCIe link of an update die, or an HBM stack. -/
inductive TrainingFault where
  | ucie (die : BitVec 2)
  | hbm (stack : BitVec 3)
  deriving DecidableEq, Repr

/-- What follows the command code of an SMBus transfer (R482): a read of its word, with the PEC byte or without it, a data byte that is written, or a stop. -/
inductive SmbusTail where
  | read (pec : Bool)
  | write (data : Byte)
  | stop
  deriving DecidableEq, Repr

/-- An SMBus transfer: the 7-bit address, the command code and what follows it (R482). -/
structure SmbusTransfer where
  addr : BitVec 7
  code : Byte
  tail : SmbusTail
  deriving DecidableEq, Repr

/-- What a configuration request names (R335): a register of the configuration space, or 4 bytes of BAR4, for which the table of commands has no row of its own (log 98). -/
inductive ConfigTarget where
  | register (reg : BitVec 10)
  | bar4 (off : BitVec 13)
  deriving DecidableEq, Repr

/-- A command: a step of one of the block's agents (log 1). -/
inductive Instr where
  /-- ADD: ALU instruction at the pc of tile t (R76). -/
  | add (t : Ltn) (gd : GReg) (ga : GReg) (gb : GReg)
  /-- SUB: ALU instruction at the pc of tile t (R76). -/
  | sub (t : Ltn) (gd : GReg) (ga : GReg) (gb : GReg)
  /-- AND: ALU instruction at the pc of tile t (R76). -/
  | andR (t : Ltn) (gd : GReg) (ga : GReg) (gb : GReg)
  /-- OR: ALU instruction at the pc of tile t (R76). -/
  | orR (t : Ltn) (gd : GReg) (ga : GReg) (gb : GReg)
  /-- XOR: ALU instruction at the pc of tile t (R76). -/
  | xor (t : Ltn) (gd : GReg) (ga : GReg) (gb : GReg)
  /-- SLL: ALU instruction at the pc of tile t (R76). -/
  | sll (t : Ltn) (gd : GReg) (ga : GReg) (gb : GReg)
  /-- SRL: ALU instruction at the pc of tile t (R76). -/
  | srl (t : Ltn) (gd : GReg) (ga : GReg) (gb : GReg)
  /-- SRA: ALU instruction at the pc of tile t (R76). -/
  | sra (t : Ltn) (gd : GReg) (ga : GReg) (gb : GReg)
  /-- SLT: ALU instruction at the pc of tile t (R76). -/
  | slt (t : Ltn) (gd : GReg) (ga : GReg) (gb : GReg)
  /-- SLTU: ALU instruction at the pc of tile t (R76). -/
  | sltu (t : Ltn) (gd : GReg) (ga : GReg) (gb : GReg)
  /-- MUL: ALU instruction at the pc of tile t (R76). -/
  | mul (t : Ltn) (gd : GReg) (ga : GReg) (gb : GReg)
  /-- MULHS: ALU instruction at the pc of tile t (R76). -/
  | mulhs (t : Ltn) (gd : GReg) (ga : GReg) (gb : GReg)
  /-- MULHU: ALU instruction at the pc of tile t (R76). -/
  | mulhu (t : Ltn) (gd : GReg) (ga : GReg) (gb : GReg)
  /-- MIN: ALU instruction at the pc of tile t (R76). -/
  | minR (t : Ltn) (gd : GReg) (ga : GReg) (gb : GReg)
  /-- MAX: ALU instruction at the pc of tile t (R76). -/
  | maxR (t : Ltn) (gd : GReg) (ga : GReg) (gb : GReg)
  /-- MINU: ALU instruction at the pc of tile t (R76). -/
  | minu (t : Ltn) (gd : GReg) (ga : GReg) (gb : GReg)
  /-- MAXU: ALU instruction at the pc of tile t (R76). -/
  | maxu (t : Ltn) (gd : GReg) (ga : GReg) (gb : GReg)
  /-- ADDI: Immediate instruction (R76). -/
  | addi (t : Ltn) (gd : GReg) (ga : GReg) (imm : BitVec 16)
  /-- ANDI: Immediate instruction (R76). -/
  | andi (t : Ltn) (gd : GReg) (ga : GReg) (imm : BitVec 16)
  /-- ORI: Immediate instruction (R76). -/
  | ori (t : Ltn) (gd : GReg) (ga : GReg) (imm : BitVec 16)
  /-- XORI: Immediate instruction (R76). -/
  | xori (t : Ltn) (gd : GReg) (ga : GReg) (imm : BitVec 16)
  /-- SLTI: Immediate instruction (R76). -/
  | slti (t : Ltn) (gd : GReg) (ga : GReg) (imm : BitVec 16)
  /-- SLTIU: Immediate instruction (R76). -/
  | sltiu (t : Ltn) (gd : GReg) (ga : GReg) (imm : BitVec 16)
  /-- SHI_SLL: SHI (R76). -/
  | shiSll (t : Ltn) (gd : GReg) (ga : GReg) (sh : BitVec 5)
  /-- SHI_SRL: SHI (R76). -/
  | shiSrl (t : Ltn) (gd : GReg) (ga : GReg) (sh : BitVec 5)
  /-- SHI_SRA: SHI (R76). -/
  | shiSra (t : Ltn) (gd : GReg) (ga : GReg) (sh : BitVec 5)
  /-- LW: Load (R76-R82). -/
  | lw (t : Ltn) (gd : GReg) (ga : GReg) (imm : BitVec 16)
  /-- LH: Load (R76-R82). -/
  | lh (t : Ltn) (gd : GReg) (ga : GReg) (imm : BitVec 16)
  /-- LHU: Load (R76-R82). -/
  | lhu (t : Ltn) (gd : GReg) (ga : GReg) (imm : BitVec 16)
  /-- LB: Load (R76-R82). -/
  | lb (t : Ltn) (gd : GReg) (ga : GReg) (imm : BitVec 16)
  /-- LBU: Load (R76-R82). -/
  | lbu (t : Ltn) (gd : GReg) (ga : GReg) (imm : BitVec 16)
  /-- SW: Store (R76-R82). -/
  | sw (t : Ltn) (gs : GReg) (ga : GReg) (imm : BitVec 16)
  /-- SH: Store (R76-R82). -/
  | sh (t : Ltn) (gs : GReg) (ga : GReg) (imm : BitVec 16)
  /-- SB: Store (R76-R82). -/
  | sb (t : Ltn) (gs : GReg) (ga : GReg) (imm : BitVec 16)
  /-- JALR: Jump to a register and link (R76). -/
  | jalr (t : Ltn) (gd : GReg) (ga : GReg) (imm : BitVec 16)
  /-- BEQ: Branch (R76). -/
  | beq (t : Ltn) (ga : GReg) (gb : GReg) (off : BitVec 16)
  /-- BNE: Branch (R76). -/
  | bne (t : Ltn) (ga : GReg) (gb : GReg) (off : BitVec 16)
  /-- BLT: Branch (R76). -/
  | blt (t : Ltn) (ga : GReg) (gb : GReg) (off : BitVec 16)
  /-- BGE: Branch (R76). -/
  | bge (t : Ltn) (ga : GReg) (gb : GReg) (off : BitVec 16)
  /-- BLTU: Branch (R76). -/
  | bltu (t : Ltn) (ga : GReg) (gb : GReg) (off : BitVec 16)
  /-- BGEU: Branch (R76). -/
  | bgeu (t : Ltn) (ga : GReg) (gb : GReg) (off : BitVec 16)
  /-- LUI: LUI (R76). -/
  | lui (t : Ltn) (gd : GReg) (imm : BitVec 21)
  /-- JAL: Jump and link (R76). -/
  | jal (t : Ltn) (gd : GReg) (imm : BitVec 21)
  /-- CMD: Issue of a command to queue q (R85). -/
  | cmd (t : Ltn) (q : BitVec 4) (ga : GReg) (gb : GReg) (tag : BitVec 12)
  /-- WAITS: Wait for semaphore q (R76). -/
  | waits (t : Ltn) (q : BitVec 4) (ga : GReg)
  /-- QWAIT: Wait for queue q, or every queue (R76). -/
  | qwait (t : Ltn) (q : BitVec 4)
  /-- SYNC: SYNC with the index in ga (R90). -/
  | sync (t : Ltn) (ga : GReg)
  /-- CLOSING_SYNC: SYNC with ga = 0xFFFF_FFFF (R91). -/
  | closingSync (t : Ltn) (ga : GReg)
  /-- TRAP: TRAP (R76). -/
  | trap (t : Ltn) (code : BitVec 21)
  /-- COMMAND_START: The front command of queue q meets its start checks (R87, R89). -/
  | commandStart (t : Ltn) (q : BitVec 3)
  /-- COMMAND_COMPLETE: The front command of queue q completes (R87). -/
  | commandComplete (t : Ltn) (q : BitVec 3)
  /-- MMA: The started MMA of tile t runs (R104). -/
  | mma (t : Ltn)
  /-- HAND_OFF: The END MMA of tile t hands off (R113). -/
  | handOff (t : Ltn)
  /-- DRAIN: The started command of that name of tile t runs (R116). -/
  | drain (t : Ltn)
  /-- DRAIN_SP: The started command of that name of tile t runs (R115). -/
  | drainSp (t : Ltn)
  /-- VPROG: The started command of that name of tile t runs (R170). -/
  | vprog (t : Ltn)
  /-- SCAND: The started command of that name of tile t runs (R185). -/
  | scand (t : Ltn)
  /-- SMERGE: The started command of that name of tile t runs (R186). -/
  | smerge (t : Ltn)
  /-- SPICK: The started command of that name of tile t runs (R188). -/
  | spick (t : Ltn)
  /-- FILL: The started command of that name of tile t runs (R204). -/
  | fill (t : Ltn)
  /-- COPY: The started command of that name of tile t runs (R204). -/
  | copy (t : Ltn)
  /-- TS_READ: The started command of that name of tile t runs (R218). -/
  | tsRead (t : Ltn)
  /-- TS_WRITE: The started command of that name of tile t runs (R218). -/
  | tsWrite (t : Ltn)
  /-- TFILL: The started command of that name of tile t runs (R218). -/
  | tfill (t : Ltn)
  /-- TCOPY: The started command of that name of tile t runs (R207). -/
  | tcopy (t : Ltn)
  /-- TPWR: The started command of that name of tile t runs (R212). -/
  | tpwr (t : Ltn)
  /-- BANK_TRANSITION: A bank of a started TPWR makes its transition (R213). -/
  | bankTransition (t : Ltn) (bank : BitVec 4)
  /-- HREAD: The started HREAD of tile t runs; data is what a host read returns (R219). -/
  | hread (t : Ltn) (data : List Byte)
  /-- HWRITE: The started HWRITE of tile t runs (R219). -/
  | hwrite (t : Ltn)
  /-- USEND: The started USEND of tile t runs (R289). -/
  | usend (t : Ltn)
  /-- UCOUNT: The started UCOUNT of tile t runs (R289). -/
  | ucount (t : Ltn)
  /-- SCRUB: The scrubber of a scratchpad or tile-store bank reads its next row (R221). -/
  | scrub (t : Ltn) (ts : Bool) (bank : BitVec 4)
  /-- TILE_FAULT: The section stops on the tile faults of its tiles (R97). -/
  | tileFault (s : SectId)
  /-- BARRIER_RELEASE: The barrier of section s releases (R31). -/
  | barrierRelease (s : SectId)
  /-- SEND_INJECT: D-X of tile t injects its next send; late when after its OFFSET (R244). -/
  | sendInject (t : Ltn) (late : Bool)
  /-- NODE_COMBINE: A node emits its result (R239). -/
  | nodeCombine (office : ClusterId) (node : BitVec 12)
  /-- MESSAGE_RECEIVE: The i-th message on its way to tile t is received (R231). -/
  | messageReceive (t : Ltn) (i : Nat)
  /-- EXCHANGE_COMPLETE: Tile t completes step 3 of its SYNC, duration router cycles after the release reached its cluster (R30, R245). -/
  | exchangeComplete (t : Ltn) (duration : Nat)
  /-- EXCHANGE_OVERRUN: The phase of section s reaches BOUND x 2^OVERRUN_LIMIT in a cluster (R247). -/
  | exchangeOverrun (s : SectId) (cluster : ClusterId)
  /-- BARRIER_TIMEOUT: The watchdog limit of section s passes (R35). -/
  | barrierTimeout (s : SectId)
  /-- STEP: STEP descriptor and its value area, as fetched from job ring s (R345). -/
  | step (s : SectId) (desc : List Byte) (values : List Byte)
  /-- WHOLE: The accepted segment of that code begins its sequence (R46, R73). -/
  | whole (s : SectId)
  /-- HEAD: The accepted segment of that code begins its sequence (R61, R73). -/
  | head (s : SectId)
  /-- MIDDLE: The accepted segment of that code begins its sequence (R61, R73). -/
  | middle (s : SectId)
  /-- TAIL: The accepted segment of that code begins its sequence (R61, R73). -/
  | tail (s : SectId)
  /-- STEP_BOUNDARY: The step boundary of section s (R26). -/
  | stepBoundary (s : SectId)
  /-- SWITCH: SWITCH descriptor (R43). -/
  | switch (s : SectId) (desc : List Byte)
  /-- LOAD: LOAD descriptor (R42). -/
  | load (s : SectId) (desc : List Byte)
  /-- LOAD_DONE: The background LOAD of section s has read its image (R464). -/
  | loadDone (s : SectId) (result : LoadResult)
  /-- SAVE: SAVE descriptor (R344). -/
  | save (s : SectId) (desc : List Byte)
  /-- SAVE_DONE: The background SAVE of section s finishes (R346). -/
  | saveDone (s : SectId)
  /-- INGEST: INGEST descriptor (R325). -/
  | ingest (s : SectId) (desc : List Byte)
  /-- SEAL: SEAL descriptor (R52). -/
  | seal (s : SectId) (desc : List Byte)
  /-- FENCE: FENCE descriptor (R347). -/
  | fence (s : SectId) (desc : List Byte)
  /-- FENCE_COMPLETE: The waiting FENCE completes (R347). -/
  | fenceComplete (s : SectId)
  /-- BARRIER: BARRIER descriptor (R348). -/
  | barrier (s : SectId) (desc : List Byte)
  /-- NOP: NOP descriptor (R344). -/
  | nop (s : SectId) (desc : List Byte)
  /-- DOORBELL: An 8-byte write at offset off of the doorbell page (R340). -/
  | doorbell (off : BitVec 12) (value : Dword)
  /-- COALESCE_TIMEOUT: COAL_US after the first unannounced record of ring r (R343). -/
  | coalesceTimeout (r : BitVec 7)
  /-- RING_PRESSURE: Ring r has been above 7/8 for 10 ms (R358). -/
  | ringPressure (r : BitVec 7)
  /-- EVENT_LOST: Space has returned to ring r (R357). -/
  | eventLost (r : BitVec 7)
  /-- SECTION_RESET: A write of SECT_RESET with REQ = 1; entries are the job-ring entries announced and not processed (R41, R349). -/
  | sectionReset (s : SectId) (value : Word) (entries : List (List Byte))
  /-- SECTION_SEAL_REQUEST: A write of SECT_SEAL with REQ = 1 (R52). -/
  | sectionSealRequest (s : SectId) (value : Word)
  /-- DEVICE_SEAL_REQUEST: A write of GLB_SEAL with REQ = 1 (R55). -/
  | deviceSealRequest (value : Word)
  /-- DEVICE_SEAL_APPLY: The device seal is checked and applied (R55, R56). -/
  | deviceSealApply
  /-- AVS_READBACK: A reading of a commanded VCORE rail with its Status word; expired when 100 us have passed (R427, R429). -/
  | avsReadback (rail : BitVec 1) (mv : Nat) (status : BitVec 16) (expired : Bool)
  /-- REGISTER_WRITE: A BAR0 write of size bytes (R11). -/
  | registerWrite (off : BitVec 24) (size : Nat) (value : Dword)
  /-- READ_CLEAR: A BAR0 read (R11). -/
  | readClear (off : BitVec 24) (size : Nat)
  /-- RING_ENABLE: A write of RING_CTL with EN = 1 (R339). -/
  | ringEnable (r : BitVec 7) (value : Word)
  /-- BAR2_READ: A read through BAR2 (R336). -/
  | bar2Read (off : BitVec 38) (len : Nat)
  /-- BAR2_WRITE: A write through BAR2 (R336). -/
  | bar2Write (off : BitVec 38) (data : List Byte)
  /-- CONFIG_REQUEST: A configuration request for a register number or for BAR4 (R335). -/
  | configRequest (write : Bool) (target : ConfigTarget) (value : Word)
  /-- INGEST_DESCRIPTOR: Pipeline n takes a descriptor; chunk is what its reads return, none when one fails (R312). -/
  | ingestDescriptor (n : BitVec 5) (desc : List Byte) (chunk : Option (List Byte))
  /-- TUBELET_STAGE: Pipeline n writes its next tubelet (R323). -/
  | tubeletStage (n : BitVec 5)
  /-- INGEST_STALLED: A handover wait of section s exceeds INGEST_STALL.MS (R329). -/
  | ingestStalled (s : SectId)
  /-- SLICE_INTAKE: Update die d takes the next slice (R274). -/
  | sliceIntake (d : BitVec 2)
  /-- ROOT_COMPUTE_DONE: The root unit finishes the factors of a group (R285). -/
  | rootComputeDone (s : SectId) (g : BitVec 10)
  /-- VERSION_COPY_DONE: The version copy of section s finishes (R296). -/
  | versionCopyDone (s : SectId)
  /-- EVAL_COPY_DONE: The evaluation copy into section s finishes (R299). -/
  | evalCopyDone (s : SectId)
  /-- SNAP_DONE: The last byte of the snapshot of section s is written or acknowledged (R300). -/
  | snapDone (s : SectId)
  /-- FLIGHT_SEND: Link l sends a flight (R367). -/
  | flightSend (l : LinkId)
  /-- FLIGHT_RECEIVE: The blocks of a flight arrive, each a type bit and 32 bytes (R361); corrected symbols and uncorrectable codewords of its codewords (R363). -/
  | flightReceive (l : LinkId) (blocks : List (Bool × List Byte)) (corrected : Nat) (uncorrectable : Nat)
  /-- RESEND_TIMEOUT: 2 us after a resend without acceptance (R368). -/
  | resendTimeout (l : LinkId)
  /-- LANE_LOSS: A lane loses signal or codeword lock (R370). -/
  | laneLoss (l : LinkId) (lane : BitVec 2)
  /-- LANE_MONITOR: Corrected symbols of a lane in 1 ms (R370). -/
  | laneMonitor (l : LinkId) (lane : BitVec 2) (symbols : Nat)
  /-- LINK_UP: Training completes and LINK_STATE frames have been exchanged (R375). -/
  | linkUp (l : LinkId) (chip : BitVec 16) (link : LinkId)
  /-- LINK_DEGRADED: A retrain completes (R371). -/
  | linkDegraded (l : LinkId)
  /-- LINK_DOWN: A retrain has not completed within 10 ms (R372). -/
  | linkDown (l : LinkId)
  /-- LINK_OPEN: A write of XLINK_CTL with LINK_OPEN = 1 (R374). -/
  | linkOpen (l : LinkId) (value : Word)
  /-- LINK_CLOSE: A write of XLINK_CTL with LINK_OPEN = 0 (R374). -/
  | linkClose (l : LinkId) (value : Word)
  /-- RETRAIN: A write of XLINK_CTL with RETRAIN = 1 (R390). -/
  | retrain (l : LinkId) (value : Word)
  /-- PERST: PERST# is asserted (R433). -/
  | perst
  /-- PERST_DEASSERT: PERST# is deasserted (R436). -/
  | perstDeassert
  /-- COLD_RESET: The supplies come up (R430). -/
  | coldReset
  /-- HOT_RESET: PCIe hot reset, link disable or link down (R433). -/
  | hotReset
  /-- FLR: Function Level Reset (R433). -/
  | flr
  /-- DEVICE_RESET: A write of GLB_RESET, or a return from D3hot (R433). -/
  | deviceReset (value : Word) (fromD3 : Bool)
  /-- BOSC_READY: The start counter of BOSC expires (R419). -/
  | boscReady
  /-- REFCLK_WINDOW: A window of 65,536 BOSC cycles ends with so many REFCLK edges (R418). -/
  | refclkWindow (edges : Nat)
  /-- CLK_LOST: 64 BOSC cycles without a REFCLK edge (R418, R425). -/
  | clkLost
  /-- BOSC_TRIM: The count of BOSC cycles over 65,536 REFCLK cycles (R420). -/
  | boscTrim (count : Nat)
  /-- LOOP_READY: The lock detector of an island finds 4,096 cycles in band (R423). -/
  | loopReady (island : BitVec 7)
  /-- LOOP_UNLOCK: A locked loop leaves its band (R423). -/
  | loopUnlock (island : BitVec 7)
  /-- RAIL_MONITOR: The 1 ms reading of a rail (R429). -/
  | railMonitor (rail : BitVec 3) (answered : Bool) (mv : Nat) (amp : Nat) (c : Nat) (status : BitVec 16)
  /-- TEMP_SAMPLE: The 1 ms readings of the 76 sensors (R437). -/
  | tempSample (readings : List Nat)
  /-- HBM_TEMP_SAMPLE: The 1 ms readings of the eight stacks (R304). -/
  | hbmTempSample (readings : List Nat)
  /-- HBM_ECS: The 1 s ECS counts of the 256 channels, by stack + 8 x channel (R304). -/
  | hbmEcs (counts : List Nat)
  /-- LETTERBOX_READY: PERST# + 20 ms (R394). -/
  | letterboxReady
  /-- GO: A write of 1 to BOOT_CMD.GO (R394). -/
  | go
  /-- FETCH_DONE: The boot controller has fetched bundle and record; mv is V_HU at the write of EPOCH (R396). -/
  | fetchDone (result : FetchResult) (mv : Nat)
  /-- HOLDUP_RECHECK: The 1 ms recheck of V_HU (R409). -/
  | holdupRecheck (mv : Nat)
  /-- STARTING_DONE: Placement, training, fill and key derivation end; what failed to train (R396). -/
  | startingDone (trainingFailed : Option TrainingFault)
  /-- COMMIT: A write of 1 to BOOT_CMD.COMMIT (R410). -/
  | commit
  /-- DBG_OPEN: A write of 1 to DBG_CTL.DBG_OPEN (R414). -/
  | dbgOpen
  /-- DOE_DISCOVERY: DOE Discovery request (R413). -/
  | doeDiscovery (index : Byte)
  /-- GET_QUOTE: ATTEST request with OP 1; mv is V_HU at the write of LEAF; a DOE abort or a reset comes before the quote is released (R411). -/
  | getQuote (request : List Byte) (mv : Nat)
  /-- GET_CERT: ATTEST request with OP 2 (R413). -/
  | getCert (request : List Byte)
  /-- SMBUS_READ_WORD: A transfer on the SMBus telemetry port (R482). -/
  | smbusReadWord (transfer : SmbusTransfer)
  /-- BYPASS: JTAG BYPASS (R414). -/
  | bypass
  /-- IDCODE: JTAG IDCODE (R483). -/
  | idcode
  /-- SAMPLE_PRELOAD: JTAG SAMPLE/PRELOAD: the pins captured and the cells shifted in (R414). -/
  | samplePreload (pins : List Bool) (preload : List Bool)
  /-- EXTEST: JTAG EXTEST with the cells shifted in (R414). -/
  | extest (cells : List Bool)
  /-- EXTEST_PULSE: JTAG EXTEST_PULSE with the cells shifted in (R414). -/
  | extestPulse (cells : List Bool)
  /-- EXTEST_TRAIN: JTAG EXTEST_TRAIN with the cells shifted in (R414). -/
  | extestTrain (cells : List Bool)
  /-- INTERNAL_DEBUG: A Helweven internal debug instruction (R414). -/
  | internalDebug (op : Nat)
  /-- FAULT_FENCE: A write of FAULT_FENCE (R442). -/
  | faultFence (value : Word)
  /-- PPR_GO: A write of FAULT_PPR_CMD with GO = 1; spare tells whether the bank group has a spare row of the kind (R448). -/
  | pprGo (value : Word) (spare : Bool)
  /-- PPR_DONE: The post-package repair completes (R448). -/
  | pprDone
  /-- CHIP_FAILED: A shared unit fails (R446). -/
  | chipFailed (cause : BitVec 3) (loc : BitVec 12)
  /-- THERMTRIP_N: A compute-die sensor reads c degrees (R489). -/
  | thermtripN (sensor : BitVec 6) (c : Nat)
  /-- POWER_DOWN: The supplies leave their ranges (R431). -/
  | powerDown
  /-- PCIE_TRAINING_COMPLETE: PCIe training ends at a width and a rate in GT/s (R335). -/
  | pcieTrainingComplete (width : Nat) (rate : Nat)
  /-- RING_ERROR: A host read of the descriptor at the head of job ring r fails (R350). -/
  | ringError (r : BitVec 7)
  /-- COMMIT_DONE: The write sequences of the commit run; mvs are V_HU before each (R410). -/
  | commitDone (mvs : List Nat)
  /-- V_HU_MEASURE: The 1 ms measurement of V_HU (R415). -/
  | vHuMeasure (mv : Nat)
  /-- SMBUS_READY: PERST# + 10 ms (R482). -/
  | smbusReady
  /-- LATCHING_READ: A BAR0 read of a LO or HI word (R472). -/
  | latchingRead (off : BitVec 24) (size : Nat)
  deriving DecidableEq, Repr

end Sys2Proof
end

