-- ==== Sys2Proof/Decode.lean ====
section
/-! DEFINITION. Decode.lean: the commands that words of spec/opcode_table.json spell. The table gives no row any bits, so no word spells a command. -/

namespace Sys2Proof

/-- The command that the low nbits bits of w spell: none, since no row of the table has bits. -/
def decodeTableWord (nbits w : Nat) : Option Instr := match nbits, w with
  | _, _ => none

end Sys2Proof
end

