-- ==== Sys2Proof/Machine/Ecc.lean ====
section
/-! DEFINITION. Ecc.lean: the protection codes of scratchpad and tile store (R199-R202, R208, R209).

A protected word is held as the bytes last written and a mask of the stored bits, data then check, that differ from its code word (log 13). -/

namespace Sys2Proof.Machine

/-- Number of set bits among the low n bits of v. -/
def weight : Nat → Nat → Nat
  | 0, _ => 0
  | n + 1, v => v % 2 + weight n (v / 2)

/-- The nine-bit vectors of weight w, ascending (R200). -/
def columnsOf (w : Nat) : List Nat := (List.range 512).filter fun v => weight 9 v == w

/-- The columns of the 128 data bits and of the 9 check bits of the SEC-DED code (R200). -/
def secdedColumns : List Nat := columnsOf 3 ++ (columnsOf 5).take 44 ++ (List.range 9).map (fun j => 2 ^ j)

/-- The exclusive or of the columns whose bit is set in the mask. -/
def syndromeOf : List Nat → Nat → Nat
  | [], _ => 0
  | c :: cs, m => (if m % 2 = 1 then c else 0) ^^^ syndromeOf cs (m / 2)

/-- The place of a value in a list. -/
def indexIn (x : Nat) : List Nat → Nat → Option Nat
  | [], _ => none
  | c :: cs, i => if c = x then some i else indexIn x cs (i + 1)

/-- What a read of a protected word finds. -/
inductive EccResult where
  | clean (residual : Nat)       -- zero syndrome; bits delivered that differ from the data written
  | corrected (residual : Nat)   -- the same, after a correction
  | uncorrectable
  deriving DecidableEq, Repr

/-- SEC-DED over 128 data bits and 9 check bits (R200, R201). -/
def secdedRead (mask : Nat) : EccResult :=
  let s := syndromeOf secdedColumns mask
  if s = 0 then .clean (mask % 2 ^ 128)
  else match indexIn s secdedColumns 0 with
    | some i => .corrected ((mask ^^^ 2 ^ i) % 2 ^ 128)
    | none => .uncorrectable

/-- Product in GF(2)[x] of a by b, b of n bits. -/
def clmul : Nat → Nat → Nat → Nat
  | 0, _, _ => 0
  | n + 1, a, b => (if b % 2 = 1 then a else 0) ^^^ clmul n (2 * a) (b / 2)

/-- Remainder in GF(2)[x] of v, whose degree is below d + n, by g of degree d. -/
def polyMod (g d : Nat) : Nat → Nat → Nat
  | 0, v => v
  | n + 1, v => polyMod g d n (if bitOf v (d + n) then v ^^^ (g * 2 ^ n) else v)

/-- The minimal polynomial of alpha over GF(2): p(x) of R200 and R208. -/
def gfPoly : Nat := 0x11D

/-- The minimal polynomial of alpha^3 over GF(2): x^8 + x^6 + x^5 + x^4 + x^2 + x + 1. -/
def gfPoly3 : Nat := 0x177

/-- g(x) = m1(x) m3(x) (x + 1) of R200, degree 17. -/
def bchG : Nat := clmul 2 (clmul 9 gfPoly gfPoly3) 3

/-- The column of stored bit i of the DEC-TED code: x^(17 + i) mod g for data bit i, x^j for check bit j (R200). -/
def dectedColumns : List Nat :=
  (List.range 128).map (fun i => polyMod bchG 17 (i + 1) (2 ^ (17 + i))) ++ (List.range 17).map (fun j => 2 ^ j)

/-- Every pair of positions whose columns add to s. -/
def pairFor (s : Nat) (cols : List Nat) : List Nat → Nat → Option (Nat × Nat)
  | [], _ => none
  | c :: cs, i =>
    match indexIn (s ^^^ c) cols 0 with
    | some k => if k = i then pairFor s cols cs (i + 1) else some (i, k)
    | none => pairFor s cols cs (i + 1)

/-- DEC-TED over 128 data bits and 17 check bits: every pattern of one or two errors is corrected (R200, R201). -/
def dectedRead (mask : Nat) : EccResult :=
  let s := syndromeOf dectedColumns mask
  if s = 0 then .clean (mask % 2 ^ 128)
  else match indexIn s dectedColumns 0 with
    | some i => .corrected ((mask ^^^ 2 ^ i) % 2 ^ 128)
    | none => match pairFor s dectedColumns dectedColumns 0 with
      | some (i, k) => .corrected ((mask ^^^ 2 ^ i ^^^ 2 ^ k) % 2 ^ 128)
      | none => .uncorrectable

/-- Multiplication by alpha in GF(2^8) (R208). -/
def gfDouble (a : Nat) : Nat := if 128 ≤ a then (2 * a) ^^^ gfPoly else 2 * a

/-- Product in GF(2^8), b of n bits. -/
def gfMul : Nat → Nat → Nat → Nat
  | 0, _, _ => 0
  | n + 1, a, b => (if b % 2 = 1 then a else 0) ^^^ gfMul n (gfDouble a) (b / 2)

/-- The W-code word of the tile store: 32 data bytes, then 3 check bytes; byte i is the coefficient of x^(34 - i) (R208). Its value at a point. -/
def rsEval (pt : Nat) : List Nat → Nat → Nat
  | [], acc => acc
  | b :: bs, acc => rsEval pt bs (gfMul 8 acc pt ^^^ b)

/-- The 35 bytes of a mask, byte 0 first. -/
def maskBytes : Nat → Nat → List Nat
  | 0, _ => []
  | n + 1, m => m % 256 :: maskBytes n (m / 256)

/-- alpha^k. -/
def gfPow : Nat → Nat
  | 0 => 1
  | k + 1 => gfDouble (gfPow k)

/-- The W-code of the tile store: a word with one erroneous byte is corrected, with more it is uncorrectable (R208, R209). -/
def rsRead (mask : Nat) : EccResult :=
  let bs := maskBytes 35 mask
  let s0 := rsEval 1 bs 0
  let s1 := rsEval 2 bs 0
  let s2 := rsEval 4 bs 0
  if 2 ≤ (bs.filter (fun b => b != 0)).length then .uncorrectable
  else if s0 = 0 ∧ s1 = 0 ∧ s2 = 0 then .clean (mask % 2 ^ 256)
  else
    -- one error e at coefficient x^k gives s0 = e, s1 = e alpha^k, s2 = e alpha^2k
    match (List.range 35).find? (fun k => decide (s0 ≠ 0) && gfMul 8 s0 (gfPow k) == s1 && gfMul 8 s1 (gfPow k) == s2) with
    | some k => .corrected ((mask ^^^ (s0 * 2 ^ (8 * (34 - k)))) % 2 ^ 256)
    | none => .uncorrectable

end Sys2Proof.Machine
end

