-- ==== Sys2Proof/Machine/Fp.lean ====
section
/-! DEFINITION. Fp.lean: number formats, exact values and the one rounding operation (R102, R130-R138), the FP32 operations of R172 and the combination of partials (R140). -/

namespace Sys2Proof.Machine

/-- The formats of R102, with INT32, the stream format 0x10 of R169. -/
inductive Fmt where
  | fp4 | int4 | e4m3 | e5m2 | int8 | bf16 | fp16 | fp32 | accF | accI | int32
  deriving DecidableEq, Repr

/-- The format of a code of R102; codes 0xA-0xF are reserved. -/
def Fmt.ofCode : Nat → Option Fmt
  | 0 => some .fp4
  | 1 => some .int4
  | 2 => some .e4m3
  | 3 => some .e5m2
  | 4 => some .int8
  | 5 => some .bf16
  | 6 => some .fp16
  | 7 => some .fp32
  | 8 => some .accF
  | 9 => some .accI
  | _ => none

/-- Bits of an element (R130). -/
def Fmt.width : Fmt → Nat
  | .fp4 | .int4 => 4
  | .e4m3 | .e5m2 | .int8 => 8
  | .bf16 | .fp16 => 16
  | .fp32 | .int32 => 32
  | .accF | .accI => 40

/-- Integer class of R102. -/
def Fmt.isInt : Fmt → Bool
  | .int4 | .int8 | .accI | .int32 => true
  | _ => false

/-- Fraction bits of a float format (R130); 0 for the integer formats. -/
def Fmt.frac : Fmt → Nat
  | .fp4 => 1 | .e4m3 => 3 | .e5m2 => 2 | .bf16 => 7 | .fp16 => 10 | .fp32 => 23 | .accF => 28
  | _ => 0

/-- Exponent bits of a float format (R130). -/
def Fmt.expBits : Fmt → Nat
  | .fp4 => 2 | .e4m3 => 4 | .e5m2 => 5 | .bf16 => 8 | .fp16 => 5 | .fp32 => 8 | .accF => 11
  | _ => 0

/-- Bias of a float format (R130). -/
def Fmt.bias : Fmt → Nat
  | .fp4 => 1 | .e4m3 => 7 | .e5m2 => 15 | .bf16 => 127 | .fp16 => 15 | .fp32 => 127 | .accF => 1023
  | _ => 0

/-- Precision P of R132. -/
def Fmt.prec (f : Fmt) : Nat := f.frac + 1

/-- EMIN of R132. -/
def Fmt.emin (f : Fmt) : Int := 1 - (f.bias : Int)

/-- The code of the largest finite magnitude (R132), 7 and 127 for INT4 and INT8 (R133). -/
def Fmt.maxCode : Fmt → Nat
  | .fp4 => 0x7 | .int4 => 7 | .e4m3 => 0x7E | .e5m2 => 0x7B | .int8 => 127 | .bf16 => 0x7F7F | .fp16 => 0x7BFF
  | .fp32 => 0x7F7FFFFF | .accF => 0x7FEFFFFFFF | .accI => 0x7FFFFFFFFF | .int32 => 0x7FFFFFFF

/-- The infinity of a format, where it has one (R132). -/
def Fmt.infCode : Fmt → Option Nat
  | .e5m2 => some 0x7C | .bf16 => some 0x7F80 | .fp16 => some 0x7C00 | .fp32 => some 0x7F800000
  | _ => none

/-- The canonical NaN of a format, where it has one (R132). -/
def Fmt.nanCode : Fmt → Option Nat
  | .e4m3 => some 0x7F | .e5m2 => some 0x7E | .bf16 => some 0x7FC0 | .fp16 => some 0x7E00
  | .fp32 => some 0x7FC00000 | .accF => some 0x7FF8000000
  | _ => none

/-- An exact value: NaN, an infinity, or (-1)^neg x m x 2^e with a signed zero when m = 0. -/
inductive Ex where
  | nan
  | inf (neg : Bool)
  | fin (neg : Bool) (m : Nat) (e : Int)
  deriving DecidableEq, Repr

/-- The number 2^k for a k that is not negative, 1 otherwise. -/
def pow2 (k : Int) : Nat := 2 ^ k.toNat

/-- The two's-complement value of the low w bits of v. -/
def signedOf (w v : Nat) : Int :=
  let u := v % 2 ^ w
  if u < 2 ^ (w - 1) then (u : Int) else (u : Int) - (2 ^ w : Nat)

/-- An integer as an exact value; zero is +0. -/
def Ex.ofInt (i : Int) : Ex := .fin (decide (i < 0)) i.natAbs 0

/-- The value of an element (R131-R134): the most negative INT4 and INT8 codes read as -7 and -127. -/
def Fmt.decode (f : Fmt) (bits : Nat) : Ex :=
  match f with
  | .int4 => let v := signedOf 4 bits; Ex.ofInt (if v = -8 then -7 else v)
  | .int8 => let v := signedOf 8 bits; Ex.ofInt (if v = -128 then -127 else v)
  | .accI => Ex.ofInt (signedOf 40 bits)
  | .int32 => Ex.ofInt (signedOf 32 bits)
  | f =>
    let w := f.width
    let mag := bits % 2 ^ (w - 1)
    let neg := bitOf bits (w - 1)
    let E := mag / 2 ^ f.frac
    let F := mag % 2 ^ f.frac
    match f.infCode with
    | some ic =>
      if mag = ic then .inf neg
      else if ic < mag then .nan
      else if E = 0 then .fin neg F (1 - (f.bias : Int) - f.frac)
      else .fin neg (2 ^ f.frac + F) ((E : Int) - f.bias - f.frac)
    | none =>
      if f.nanCode.isSome && decide (f.maxCode < mag) then .nan
      else if E = 0 then .fin neg F (1 - (f.bias : Int) - f.frac)
      else .fin neg (2 ^ f.frac + F) ((E : Int) - f.bias - f.frac)

/-- The rounding modes of R135; SR carries the 4-bit value r. -/
inductive RMode where
  | rne
  | sr (r : Nat)
  deriving DecidableEq, Repr

/-- Whether the magnitude N / D, with n = N / D rounded down, rounds up (R135). -/
def roundsUp (mode : RMode) (N D : Nat) : Bool :=
  let n := N / D
  let r := N % D
  match mode with
  | .rne => decide (D < 2 * r) || (decide (2 * r = D) && decide (n % 2 = 1))
  | .sr r4 => decide (16 ≤ 16 * r / D + r4)

/-- floor(log2(num / den)) for positive num and den. -/
def ilog2 (num den : Nat) : Int :=
  let k : Int := (Nat.log2 num : Int) - (Nat.log2 den : Int)
  if num * pow2 (-k) < den * pow2 k then k - 1 else k

/-- The rounded magnitude of (num / den) x 2^e as a pair (n, k) meaning n x 2^k, with precision P and least exponent emin (R135). -/
def roundMag (P : Nat) (emin : Int) (mode : RMode) (num den : Nat) (e : Int) : Nat × Int :=
  let e0 := max (ilog2 num den + e) emin
  let k := e0 - (P : Int) + 1
  let N := num * pow2 (e - k)
  let D := den * pow2 (k - e)
  ((N / D) + boolNat (roundsUp mode N D), k)

/-- The code of the magnitude n x 2^k, where k is at least the subnormal unit and n is at most 2^P. -/
def Fmt.magCode (f : Fmt) (n : Nat) (k : Int) : Nat :=
  let (n, k) := if n = 2 ^ f.prec then (n / 2, k + 1) else (n, k)
  if n < 2 ^ f.frac then n
  else ((k + f.frac + f.bias).toNat) * 2 ^ f.frac + (n - 2 ^ f.frac)

/-- The two overflow treatments of R136. -/
inductive Ovf where
  | ieee | sat
  deriving DecidableEq, Repr

/-- What a rounding answers: the code, whether it was clamped to the largest finite value (R136), and whether a NaN met a format without NaN (R137). -/
structure Rounded where
  bits : Nat
  clamped : Bool := false
  nanUncoded : Bool := false
  deriving DecidableEq, Repr

/-- A magnitude code with its sign. -/
def Fmt.withSign (f : Fmt) (neg : Bool) (mag : Nat) : Nat := mag + boolNat neg * 2 ^ (f.width - 1)

/-- The integer v, clamped to lo .. hi and written in w bits. -/
def clampBits (w : Nat) (lo hi v : Int) : Rounded :=
  let c := max lo (min hi v)
  { bits := (c % (2 ^ w : Nat)).toNat, clamped := decide (c ≠ v) }

/-- round_to of R135-R137 for the positive magnitude (num / den) x 2^e with sign neg. -/
def roundRat (f : Fmt) (ovf : Ovf) (mode : RMode) (neg : Bool) (num den : Nat) (e : Int) : Rounded :=
  if f.isInt then
    let N := num * pow2 e
    let D := den * pow2 (-e)
    let n : Nat := N / D + boolNat (roundsUp mode N D)
    let v : Int := if neg then -(n : Int) else (n : Int)
    match f with
    | .int4 => clampBits 4 (-7) 7 v
    | .int8 => clampBits 8 (-127) 127 v
    | .int32 => clampBits 32 (-2147483648) 2147483647 v
    | _ => clampBits 40 (-549755813888) 549755813887 v
  else
    let (n, k) := roundMag f.prec f.emin mode num den e
    let code := f.magCode n k
    if f.maxCode < code then
      match ovf, f.infCode with
      | .ieee, some ic => { bits := f.withSign neg ic }
      | _, _ => { bits := f.withSign neg f.maxCode, clamped := true }
    else { bits := f.withSign neg code }

/-- Rounding of an exact value to a format (R135-R137). -/
def Fmt.round (f : Fmt) (ovf : Ovf) (mode : RMode) (x : Ex) : Rounded :=
  match x with
  | .nan => match f.nanCode with
    | some c => { bits := c }
    | none => { bits := 0, nanUncoded := true }
  | .inf neg =>
    match ovf, f.infCode with
    | .ieee, some ic => { bits := f.withSign neg ic }
    | _, _ =>
      if f.isInt then roundRat f ovf mode neg (2 ^ 64) 1 0
      else { bits := f.withSign neg f.maxCode, clamped := true }
  | .fin neg 0 _ => if f.isInt then { bits := 0 } else { bits := f.withSign neg 0 }
  | .fin neg m e => roundRat f ovf mode neg m 1 e

/-- Exact product of two finite values, sign by exclusive or. -/
def Ex.mulFin (n1 : Bool) (m1 : Nat) (e1 : Int) (n2 : Bool) (m2 : Nat) (e2 : Int) : Ex :=
  .fin (n1 != n2) (m1 * m2) (e1 + e2)

/-- Whether a value is a zero. -/
def Ex.isZero : Ex → Bool
  | .fin _ 0 _ => true
  | _ => false

/-- The sign of a value; a NaN has none and reads false. -/
def Ex.neg? : Ex → Bool
  | .nan => false
  | .inf n => n
  | .fin n _ _ => n

/-- Exact product, IEEE 754 specials. -/
def Ex.mul (a b : Ex) : Ex :=
  match a, b with
  | .nan, _ => .nan
  | _, .nan => .nan
  | .fin n1 m1 e1, .fin n2 m2 e2 => Ex.mulFin n1 m1 e1 n2 m2 e2
  | a, b => if a.isZero || b.isZero then .nan else .inf (a.neg? != b.neg?)

/-- Exact sum; a zero sum is +0 unless both are -0 (R111, R140). -/
def Ex.add (a b : Ex) : Ex :=
  match a, b with
  | .nan, _ => .nan
  | _, .nan => .nan
  | .inf n1, .inf n2 => if n1 = n2 then .inf n1 else .nan
  | .inf n1, _ => .inf n1
  | _, .inf n2 => .inf n2
  | .fin n1 m1 e1, .fin n2 m2 e2 =>
    let e := min e1 e2
    let v1 : Int := (if n1 then -1 else 1) * (m1 * pow2 (e1 - e) : Nat)
    let v2 : Int := (if n2 then -1 else 1) * (m2 * pow2 (e2 - e) : Nat)
    let v := v1 + v2
    if v = 0 then .fin (n1 && n2 && decide (m1 = 0) && decide (m2 = 0)) 0 0
    else .fin (decide (v < 0)) v.natAbs e

/-- Exact negation. -/
def Ex.negate : Ex → Ex
  | .nan => .nan
  | .inf n => .inf (!n)
  | .fin n m e => .fin (!n) m e

/-- Exact magnitude. -/
def Ex.abs : Ex → Ex
  | .nan => .nan
  | .inf _ => .inf false
  | .fin _ m e => .fin false m e

/-- Comparison of two values that are not NaN: a < b. -/
def Ex.lt (a b : Ex) : Bool :=
  match a, b with
  | .nan, _ => false
  | _, .nan => false
  | .inf n1, .inf n2 => n1 && !n2
  | .inf n1, _ => n1
  | _, .inf n2 => !n2
  | .fin n1 m1 e1, .fin n2 m2 e2 =>
    let e := min e1 e2
    let v1 : Int := (if n1 then -1 else 1) * (m1 * pow2 (e1 - e) : Nat)
    let v2 : Int := (if n2 then -1 else 1) * (m2 * pow2 (e2 - e) : Nat)
    decide (v1 < v2)

/-- Whether a value is a NaN. -/
def Ex.isNan : Ex → Bool
  | .nan => true
  | _ => false

/-- Whether a value is finite. -/
def Ex.isFin : Ex → Bool
  | .fin _ _ _ => true
  | _ => false

/-- Equality of values, +0 and -0 equal, a NaN equal to nothing. -/
def Ex.eqv (a b : Ex) : Bool := !a.isNan && !b.isNan && !Ex.lt a b && !Ex.lt b a

/-- The value of an FP32 word. -/
def f32 (w : Word) : Ex := Fmt.decode .fp32 w.toNat

/-- An exact value rounded once to FP32 by RNE with IEEE overflow (R172). -/
def toF32 (x : Ex) : Word := BitVec.ofNat 32 (Fmt.round .fp32 .ieee .rne x).bits

/-- FP32 addition (R172). -/
def fadd (a b : Word) : Word := toF32 (Ex.add (f32 a) (f32 b))
/-- FP32 subtraction (R172). -/
def fsub (a b : Word) : Word := toF32 (Ex.add (f32 a) (f32 b).negate)
/-- FP32 multiplication (R172). -/
def fmul (a b : Word) : Word := toF32 (Ex.mul (f32 a) (f32 b))
/-- FP32 a x b + c, rounded once (R172). -/
def ffma (a b c : Word) : Word := toF32 (Ex.add (Ex.mul (f32 a) (f32 b)) (f32 c))
/-- The FP32 canonical NaN (R132). -/
def f32Nan : Word := 0x7FC00000
/-- Sign change of the bit pattern; a NaN is written canonical (R134, R172). -/
def fneg (a : Word) : Word := if (f32 a).isNan then f32Nan else a ^^^ 0x80000000
/-- Sign cleared; a NaN is written canonical (R134, R172). -/
def fabs (a : Word) : Word := if (f32 a).isNan then f32Nan else a &&& 0x7FFFFFFF

/-- Division of two exact values, rounded once to FP32 by RNE with IEEE overflow (R176, chapter 11). -/
def divF32 (a b : Ex) : Word :=
  match a, b with
  | .nan, _ => f32Nan
  | _, .nan => f32Nan
  | .inf n1, .inf _ => if n1 then f32Nan else f32Nan
  | .inf n1, b => BitVec.ofNat 32 (Fmt.withSign .fp32 (n1 != b.neg?) 0x7F800000)
  | a, .inf n2 => BitVec.ofNat 32 (Fmt.withSign .fp32 (a.neg? != n2) 0)
  | .fin n1 m1 e1, .fin n2 m2 e2 =>
    if m2 = 0 then (if m1 = 0 then f32Nan else BitVec.ofNat 32 (Fmt.withSign .fp32 (n1 != n2) 0x7F800000))
    else if m1 = 0 then BitVec.ofNat 32 (Fmt.withSign .fp32 (n1 != n2) 0)
    else BitVec.ofNat 32 (roundRat .fp32 .ieee .rne (n1 != n2) m1 m2 (e1 - e2)).bits

/-- FP32 division. -/
def fdiv (a b : Word) : Word := divF32 (f32 a) (f32 b)

/-- The bits of floor(sqrt n) from bit k - 1 down, added to r. -/
def isqrtFrom : Nat → Nat → Nat → Nat
  | 0, _, r => r
  | k + 1, n, r => if (r + 2 ^ k) * (r + 2 ^ k) ≤ n then isqrtFrom k n (r + 2 ^ k) else isqrtFrom k n r

/-- floor(sqrt n). -/
def isqrt (n : Nat) : Nat := isqrtFrom (Nat.log2 n / 2 + 1) n 0

/-- A dyadic number with a sticky last bit, close enough to sqrt(num / den x 2^e) that one rounding of it to 24 bits is the rounding of the root itself. -/
def sqrtSticky (num den : Nat) (e : Int) : Nat × Int :=
  let sh : Nat := 64 + 2 * (Nat.log2 den + 1)
  let sh := if (e - sh) % 2 = 0 then sh else sh + 1
  let q := num * 2 ^ sh / den
  let exact0 := decide (q * den = num * 2 ^ sh)
  let s := isqrt q
  (2 * s + boolNat (!(exact0 && decide (s * s = q))), (e - sh) / 2 - 1)

/-- FP32 square root, rounded once (chapter 11). -/
def fsqrt (a : Word) : Word :=
  match f32 a with
  | .nan => f32Nan
  | .inf n => if n then f32Nan else 0x7F800000
  | .fin n 0 _ => if n then 0x80000000 else 0
  | .fin n m e =>
    if n then f32Nan
    else
      let (s, k) := sqrtSticky m 1 e
      BitVec.ofNat 32 (roundRat .fp32 .ieee .rne false s 1 k).bits

/-- RCP of R176. -/
def frcp (a : Word) : Word := fdiv 0x3F800000 a

/-- RSQRT of R176. -/
def frsqrt (a : Word) : Word :=
  match f32 a with
  | .nan => f32Nan
  | .inf n => if n then f32Nan else 0
  | .fin n 0 _ => if n then 0xFF800000 else 0x7F800000
  | .fin n m e =>
    if n then f32Nan
    else
      let (s, k) := sqrtSticky 1 m (-e)
      BitVec.ofNat 32 (roundRat .fp32 .ieee .rne false s 1 k).bits

/-- FMIN of R172. -/
def fmin (a b : Word) : Word :=
  let x := f32 a
  let y := f32 b
  if x.isNan || y.isNan then f32Nan
  else if x.isZero && y.isZero then (if x.neg? || y.neg? then 0x80000000 else 0)
  else if Ex.lt y x then b else a

/-- FMAX of R172. -/
def fmax (a b : Word) : Word :=
  let x := f32 a
  let y := f32 b
  if x.isNan || y.isNan then f32Nan
  else if x.isZero && y.isZero then (if x.neg? && y.neg? then 0x80000000 else 0)
  else if Ex.lt x y then b else a

/-- An FP32 value rounded to BF16 (RNE, IEEE overflow) and held as FP32 with [15:0] = 0 (R171). -/
def bfRound (x : Ex) : Word := BitVec.ofNat 32 ((Fmt.round .bf16 .ieee .rne x).bits * 65536)

/-- A value converted exactly to FP32, as operands and streams are (R171, R116). -/
def exToF32 (x : Ex) : Word := toF32 x

/-- An ACC40 float with a saturation flag: one sum rounded once by RNE or SR with SATURATE (R109, R111, R136). -/
def accRound (mode : RMode) (x : Ex) : Acc × Bool :=
  let r := Fmt.round .accF .sat mode x
  (BitVec.ofNat 40 r.bits, r.clamped)

/-- The canonical ACC40 NaN (R134). -/
def accNan : Acc := 0x7FF8000000

/-- One add of the exact product of two operands in float mode (R109, R111). -/
def accAddProd (mode : RMode) (acc : Acc) (a b : Ex) : Acc × Bool :=
  let x := Fmt.decode .accF acc.toNat
  if x.isNan then (acc, false)
  else if !a.isFin || !b.isFin then (accNan, false)
  else accRound mode (Ex.add x (Ex.mul a b))

/-- An exact integer sum clamped to the 40-bit range (R112, R140). -/
def accClamp (v : Int) : Acc × Bool :=
  let r := clampBits 40 (-549755813888) 549755813887 v
  (BitVec.ofNat 40 r.bits, r.clamped)

/-- The integer an exact value stands for; values that are no integer do not arise in the integer class. -/
def Ex.toInt : Ex → Int
  | .fin n m e => (if n then -1 else 1) * ((m * pow2 e / pow2 (-e) : Nat) : Int)
  | _ => 0

/-- One add of a product in integer mode (R112). -/
def accAddInt (acc : Acc) (a b : Ex) : Acc × Bool := accClamp (signedOf 40 acc.toNat + a.toInt * b.toInt)

/-- Combination of two ACC40 partials (R140): the result and whether it saturated or clamped. -/
def combineAcc (intMode : Bool) (l r : Acc) : Acc × Bool :=
  if intMode then accClamp (signedOf 40 l.toNat + signedOf 40 r.toNat)
  else
    let x := Fmt.decode .accF l.toNat
    let y := Fmt.decode .accF r.toNat
    if x.isNan || y.isNan then (accNan, false) else accRound .rne (Ex.add x y)

/-- The largest power of two below n, for n at least 2 (R141). -/
def pow2Below (n : Nat) : Nat := 2 ^ Nat.log2 (n - 1)

/-- combine_tree of R141 over a list of parts, with the combination given; fuel bounds the depth. -/
def combineTree {α : Type} (f : α → α → α) : Nat → List α → Option α
  | 0, _ => none
  | _ + 1, [] => none
  | _ + 1, [x] => some x
  | n + 1, x :: y :: zs =>
    let l := x :: y :: zs
    let h := pow2Below l.length
    match combineTree f n (l.take h), combineTree f n (l.drop h) with
    | some a, some b => some (f a b)
    | _, _ => none

/-- One ACC40 add of an exact FP32-valued term by RNE, as the row statistics make it: an infinite or NaN input gives NaN (R120). -/
def accAddTerm (acc : Acc) (t : Ex) : Acc :=
  let x := Fmt.decode .accF acc.toNat
  if x.isNan then accNan
  else if !t.isFin then accNan
  else (accRound .rne (Ex.add x t)).1

end Sys2Proof.Machine
end

