-- ==== Sys2Proof/Machine/TileState.lean ====
section
/-! DEFINITION. TileState.lean: the state of one tile as plain data: sequencer, command queues, engines, scratchpad, tile store, version ranges (R68-R129, R193-R222, R290). -/

namespace Sys2Proof.Machine

/-- What the sequencer is doing: stopped before an entry (R73) or after a closing SYNC (R91); running; in step 1, 2 or 3 of a SYNC with index k (R90). -/
inductive SeqStatus where
  | stopped
  | running
  | syncing (k : Nat)
  | arrived (k : Nat)
  | exchange (k : Nat)
  deriving DecidableEq, Repr

/-- Where a queued command stands: issued, started (R89 passed), its effect performed, or started and stopped by a fault with what it has begun still to come (R96). -/
inductive CmdStatus where
  | queued
  | started
  | executed
  | stopping
  deriving DecidableEq, Repr

/-- A command in a queue: the descriptor bytes copied at issue, the address, threshold and tag of its CMD (R76, R85), the place in the issue order of the tile (R89), its stage and the ENGINE sub-code it raises at completion (R119, R173), 0 for none. -/
structure QEntry where
  desc : List Byte
  cmdPc : Nat
  thr : Nat
  tag : Nat
  order : Nat
  status : CmdStatus := .queued
  endFault : Nat := 0
  deriving DecidableEq, Repr

/-- The values of R95. -/
structure TileFault where
  fpc : Nat
  fcode : Nat
  faddr : Nat
  ftag : Nat
  fmulti : Bool
  deriving DecidableEq, Repr

/-- Port class of a scratchpad bank (R194, R195). -/
inductive PortClass where
  | m | v | d
  deriving DecidableEq, Repr

/-- Power state of a tile-store bank (R211). -/
inductive BankState where
  | on | retain | off
  deriving DecidableEq, Repr

/-- State of a version range (R290). -/
inductive RangeState where
  | old | current | open
  deriving DecidableEq, Repr

/-- A version range of a program in a tile (R290): where it lies, its state, its stamp, the stamp it had before it was opened, and the 64-byte rows written in the step (R294). -/
structure VRange where
  prog : Nat
  group : Nat
  slotB : Bool
  off : Nat
  len : Nat
  st : RangeState
  stamp : Nat
  before : Nat
  rows : List Nat
  deriving DecidableEq, Repr

/-- Code and owner of a tile-store granule (R208, R210). -/
structure Granule where
  wcode : Bool := false
  owner : Option Nat := none
  deriving DecidableEq, Repr

/-- A write of which rows are held at the ports of banks in transition (R213): place, data, the agent that sent it, the postmark of the step it belongs to, if any, the rows still held, and the rows dropped so far, for the one dead letter of the access (R214). -/
structure HeldWrite where
  off : Nat
  data : List Byte
  source : Nat
  origin : Nat
  postmark : Option Nat := none
  rows : List Nat := []
  dropped : List Nat := []
  deriving DecidableEq, Repr

/-- One tile-store bank: power state, the transition a started TPWR has yet to perform, its in-flight counters (R211-R213). -/
structure TsBank where
  st : BankState := .on
  target : Option BankState := none
  inWrites : Nat := 0
  inReads : Nat := 0
  deriving DecidableEq, Repr

/-- Row-statistic state of one row (R120). -/
structure RowStat where
  sum : Acc := 0
  sumsq : Acc := 0
  dot : Acc := 0
  max : Word := 0xFF800000
  deriving DecidableEq, Repr

/-- Step state of a tensor slot (R149, R152): STEP_AMAX, the five health counters and ACC_SAT. -/
structure StepAcc where
  amax : Word := 0
  quantised : Nat := 0
  saturated : Nat := 0
  flushed : Nat := 0
  subnormal : Nat := 0
  zeroRange : Nat := 0
  accSat : Bool := false
  deriving DecidableEq, Repr

/-- Sequencer (R68-R73, R88): g0-g31, PC, status, s0-s15, commands issued per queue since entry (R79), the issue order, SYNCs retired in the sequence and whether the last carried STEP_END (R92), the lines of the fetch buffer, the newest first (R70), and the registers and lines whose parity is wrong (R94). -/
structure Seq where
  regs : Vector Word 32 := Vector.replicate 32 0
  pc : Word := 0
  status : SeqStatus := .stopped
  sems : Vector (BitVec 16) 16 := Vector.replicate 16 0
  issued : Vector Word 8 := Vector.replicate 8 0
  order : Nat := 0
  syncs : Nat := 0
  lastEnd : Bool := false
  lines : List Nat := []
  badRegs : List Nat := []
  badLines : List Nat := []
  /-- The barrier at which the tile stood when a fault stopped it (R54, R96). -/
  stood : Option Nat := none
  deriving DecidableEq, Repr

/-- Matrix engine, drain buffer and row-statistic unit (R99-R120). Tables are keyed by 48 i + j, the squares by 2304 q + 48 i + j with q = 0 A0, 1 A1, 2 B0, 3 B1. -/
structure Matrix where
  squares : Sparse Word := []
  acc : Sparse Acc := []
  /-- The accumulation is open (R106). -/
  accOpen : Bool := false
  accInt : Bool := false
  accSat : Bool := false
  accSkip : Nat := 0
  dbFull : Bool := false
  db : Sparse Acc := []
  dbInt : Bool := false
  dbSat : Bool := false
  dbSkip : Nat := 0
  stats : Sparse RowStat := []
  statValid : Bool := false
  deriving DecidableEq, Repr

/-- Scratchpad (R193-R203): bytes, row valid flags, bank classes and modes, and per 16-byte word the stored bits that differ from its code word (data bits first, then check bits). -/
structure Scratchpad where
  bytes : Memory := []
  valid : Sparse Bool := []
  cls : Vector PortClass 16 := Vector.replicate 16 .m
  wmode : Vector Bool 16 := Vector.replicate 16 false
  flips : Sparse Nat := []
  deriving DecidableEq, Repr

/-- Tile store (R205-R215): bytes, granule map, banks, the writes held at their ports in order of arrival, and per word (16-byte words under the A-code keyed 2w and 2w + 1, the 32-byte word w under the W-code keyed 2w) the stored bits that differ from its code word. -/
structure TileStore where
  bytes : Memory := []
  granules : Sparse Granule := []
  banks : Vector TsBank 16 := Vector.replicate 16 {}
  held : List HeldWrite := []
  flips : Sparse Nat := []
  deriving DecidableEq, Repr

/-- The tile's part in an exchange phase (R90, R244): the send entries DX has not injected, messages written so far, and the number expected. -/
structure TileExchange where
  sends : List (List Byte) := []
  /-- Sends of DX that a stall delays are injected later; the number injected late (R245). -/
  late : Nat := 0
  got : Nat := 0
  want : Nat := 0
  deriving DecidableEq, Repr

/-- One tile (R68). -/
structure Tile where
  seq : Seq := {}
  queues : Vector (List QEntry) 8 := Vector.replicate 8 []
  /-- Information block (R79), bytes 0-0x13F. -/
  info : Memory := []
  me : Matrix := {}
  sp : Scratchpad := {}
  /-- Scale register file, 4,096 FP32 entries (R78). -/
  scale : Sparse Word := []
  ts : TileStore := {}
  /-- Tile-local copies of the slots' step state (R152). -/
  acc : Sparse StepAcc := []
  /-- UCOUNT values of the step: group, counter, value (R289). -/
  ucounts : List (Nat × Nat × Nat) := []
  ex : TileExchange := {}
  ranges : List VRange := []
  fault : Option TileFault := none
  /-- The fault has been dealt with by TILE_FAULT (R97). -/
  faultSeen : Bool := false
  /-- SP_XCLASS, SP_WBR, SP_SEQ_LOST, SP_CORR, TS_CORR, SCRUB_UNCORR (R222). -/
  memCnt : Vector Word 6 := Vector.replicate 6 0
  /-- Next row of the scrubber of each scratchpad bank (0-15) and tile-store bank (16-31) (R221). -/
  scrub : Vector Nat 32 := Vector.replicate 32 0
  deriving DecidableEq, Repr

/-- Saturating addition to a memory counter (R222). -/
def Tile.count (t : Tile) (i : Fin 6) (n : Nat) : Tile :=
  { t with memCnt := t.memCnt.set i (BitVec.ofNat 32 (satAdd32 (t.memCnt.get i).toNat n)) i.isLt }

end Sys2Proof.Machine
end

