-- ==== Sys2Proof/Machine/Ucg.lean ====
section
/-! DEFINITION. Ucg.lean: the Umnel counter generator and the bits an element takes from a draw (R179-R181). -/

namespace Sys2Proof.Machine

/-- One round of the generator (R179): the rotations are those of round r. -/
def ucgRound (k0 k1 : Word) (r : Nat) (x : Word × Word × Word × Word) : Word × Word × Word × Word :=
  let (x0, x1, x2, x3) := x
  let ra := [13, 7, 19, 11].getD (r % 4) 0
  let rb := [5, 23, 9, 17].getD (r % 4) 0
  let x0 := x0 + x1
  let x1 := x1.rotateLeft ra ^^^ x0
  let x2 := x2 + x3
  let x3 := x3.rotateLeft rb ^^^ x2
  let (x1, x3) := (x3, x1)
  if r % 4 = 3 then
    let j : Word := BitVec.ofNat 32 ((r + 1) / 4)
    (x0 ^^^ (k0 + j * 0x9E3779B9), x1, x2 ^^^ (k1 + j * 0x7F4A7C15), x3)
  else (x0, x1, x2, x3)

/-- Rounds r, r + 1, ... for n rounds. -/
def ucgRounds (k0 k1 : Word) : Nat → Nat → Word × Word × Word × Word → Word × Word × Word × Word
  | 0, _, x => x
  | n + 1, r, x => ucgRounds k0 k1 n (r + 1) (ucgRound k0 k1 r x)

/-- A 128-bit draw (R179), as a number. -/
def ucg (seed : Dword) (stream : Nat) (step : Word) (purpose : Nat) (group : Nat) : Nat :=
  let k0 : Word := seed.extractLsb' 0 32
  let k1 : Word := seed.extractLsb' 32 32
  let x0 : Word := BitVec.ofNat 32 group
  let x1 : Word := BitVec.ofNat 32 ((group / 2 ^ 32) % 2 ^ 16 + (stream % 2 ^ 16) * 2 ^ 16)
  let x3 : Word := BitVec.ofNat 32 (0x5A000000 + purpose % 256)
  let (a, b, c, d) := ucgRounds k0 k1 12 0 (x0, x1, step, x3)
  a.toNat + b.toNat * 2 ^ 32 + c.toNat * 2 ^ 64 + d.toNat * 2 ^ 96

/-- The b bits of element e (R181): the draw for group floor(e / G), G = 128 / b, at shift b x (e mod G). -/
def ucgBits (seed : Dword) (stream : Nat) (step : Word) (purpose b e : Nat) : Nat :=
  let G := 128 / b
  (ucg seed stream step purpose (e / G) / 2 ^ (b * (e % G))) % 2 ^ b

/-- The seed of a purpose (R180): initialisation ignores the epoch. -/
def ucgSeed (base : Dword) (epoch : Word) (purpose : Nat) : Dword :=
  if purpose = 4 then base else base ^^^ (epoch.zeroExtend 64 <<< 32)

end Sys2Proof.Machine
end

