-- ==== Sys2Proof/Machine/Operands.lean ====
section
/-! DEFINITION. Operands.lean: how engines and sequencer reach a tile's memories (protection codes, valid flags, footprints) and the elements of the formats (R84, R86, R102, R199-R210). -/

namespace Sys2Proof.Machine

/-- Tile-fault codes (R94). -/
def fIllegal : Nat := 0x01
def fMisaligned : Nat := 0x02
def fAddrRange : Nat := 0x03
def fCmdRefused : Nat := 0x04
def fHazard : Nat := 0x05
def fFootprint : Nat := 0x06
def fSyncOrder : Nat := 0x07
def fRecvExcess : Nat := 0x08
def fTrap : Nat := 0x09
def fEngine : Nat := 0x0A
def fDeadWrite : Nat := 0x0B
def fSpUncorr : Nat := 0x10
def fTsUncorr : Nat := 0x11
def fSeqParity : Nat := 0x12

/-- A scratchpad range's size (R193) and a tile store's (R205). -/
def spSize : Nat := 0x100000
def tsSize : Nat := 0x1800000

/-- The byte i of a number. -/
def byteOf (v i : Nat) : Byte := BitVec.ofNat 8 (v / 256 ^ i)

/-! ### Scratchpad -/

/-- Whether the row that holds an offset is valid (R203). -/
def Scratchpad.rowValid (m : Scratchpad) (a : Nat) : Bool := Sparse.get false m.valid (a / 64)

/-- The syndrome decoding of the 16-byte word w under its bank's mode (R199, R201). -/
def Scratchpad.word (m : Scratchpad) (w : Nat) : EccResult :=
  let k := Sparse.get 0 m.flips w
  if k = 0 ∨ !m.rowValid (16 * w) then .clean 0
  else if m.wmode.toList.getD (w / 4096) false then dectedRead k else secdedRead k

/-- The bits that the data delivered from a word differ from the data last written. -/
def EccResult.residual : EccResult → Nat
  | .clean r => r
  | .corrected r => r
  | .uncorrectable => 0

/-- A byte as a read delivers it: zeros from a row that is not valid (R203). -/
def Scratchpad.byte (m : Scratchpad) (a : Nat) : Byte :=
  if m.rowValid a then m.bytes.read a ^^^ byteOf (m.word (a / 16)).residual (a % 16) else 0

/-- n bytes as a read delivers them. -/
def Scratchpad.read (m : Scratchpad) (a : Nat) : Nat → List Byte
  | 0 => []
  | n + 1 => m.byte a :: Scratchpad.read m (a + 1) n

/-- The word numbers of the range of n bytes at a, for words of k bytes. -/
def wordsOf (a n k : Nat) : List Nat := if n = 0 then [] else (List.range ((a + n - 1) / k + 1 - a / k)).map (· + a / k)

/-- Words of a range that a read corrects before the first one it cannot, and that one (R201; log 148 for the count). -/
def Scratchpad.check (m : Scratchpad) (a n : Nat) : Nat × Option Nat :=
  if m.flips.isEmpty then (0, none)
  else (wordsOf a n 16).foldl (fun r w =>
    match m.word w with
    | .clean _ => r
    | .corrected _ => if r.2.isNone then (r.1 + 1, none) else r
    | .uncorrectable => (r.1, if r.2.isNone then some (16 * w) else r.2)) (0, none)

/-- The words of a range that a write covers only in part; half tells that of the last byte only the low half is written (R202). -/
def partialWords (a n : Nat) (half : Bool := false) : List Nat :=
  (wordsOf a n 16).filter (fun w => decide (16 * w < a) || decide (a + n < 16 * w + 16) || (half && w == (a + n - 1) / 16))

/-- Words that a partial write corrects before the first it cannot, and that one (R202). -/
def Scratchpad.checkPartial (m : Scratchpad) (a n : Nat) (half : Bool := false) : Nat × Option Nat :=
  if m.flips.isEmpty then (0, none)
  else (partialWords a n half).foldl (fun r w =>
    match m.word w with
    | .clean _ => r
    | .corrected _ => if r.2.isNone then (r.1 + 1, none) else r
    | .uncorrectable => (r.1, if r.2.isNone then some (16 * w) else r.2)) (0, none)

/-- Writes what the words of a list deliver back into them, with new check bits (R202, R221). -/
def Scratchpad.settle (m : Scratchpad) : List Nat → Scratchpad
  | [] => m
  | w :: ws =>
    if Sparse.get 0 m.flips w = 0 then Scratchpad.settle m ws
    else Scratchpad.settle { m with bytes := m.bytes.writeBytes (16 * w) (m.read (16 * w) 16), flips := Sparse.set 0 m.flips w 0 } ws

/-- A row that becomes valid holds zeros in its other bytes, with correct check bits (R203). -/
def Scratchpad.openRow (m : Scratchpad) (r : Nat) : Scratchpad :=
  if Sparse.get false m.valid r then m
  else { m with
    bytes := Sparse.clearRange m.bytes (64 * r) (64 * r + 64)
    flips := Sparse.clearRange m.flips (4 * r) (4 * r + 4)
    valid := Sparse.set false m.valid r true }

/-- Makes the rows of a list valid (R203). -/
def Scratchpad.openRows (m : Scratchpad) : List Nat → Scratchpad
  | [] => m
  | r :: rs => Scratchpad.openRows (m.openRow r) rs

/-- A write: the rows become valid, partial words are merged with what they delivered, check bits are new (R202, R203). -/
def Scratchpad.write (m : Scratchpad) (a : Nat) (bs : List Byte) : Scratchpad :=
  let m := m.openRows (wordsOf a bs.length 64)
  let m := if m.flips.isEmpty then m else
    (let k := m.settle (partialWords a bs.length)
     { k with flips := (wordsOf a bs.length 16).foldl (fun f w => Sparse.set 0 f w 0) k.flips })
  { m with bytes := m.bytes.writeBytes a bs }

/-- Clears every valid flag: from then on every row reads as zeros (R203). -/
def Scratchpad.clear (m : Scratchpad) : Scratchpad := { m with bytes := [], valid := [], flips := [] }

/-! ### Tile store -/

/-- The granule that holds an offset (R205). -/
def TileStore.granule (m : TileStore) (a : Nat) : Granule := Sparse.get {} m.granules (a / 65536)

/-- The bank that holds an offset (R205). -/
def tsBankOf (a : Nat) : Nat := a / 0x180000

/-- The state of bank b. -/
def TileStore.bank (m : TileStore) (b : Nat) : TsBank := m.banks.toList.getD b {}

/-- Whether every bank of a range is ON (R214). -/
def TileStore.allOn (m : TileStore) (a n : Nat) : Bool :=
  n == 0 || (List.range (tsBankOf (a + n - 1) + 1 - tsBankOf a)).all (fun i => (m.bank (tsBankOf a + i)).st == .on)

/-- The syndrome decoding of the protected word that holds an offset (R208, R209). -/
def TileStore.word (m : TileStore) (a : Nat) : EccResult :=
  if (m.granule a).wcode then
    let k := Sparse.get 0 m.flips (2 * (a / 32))
    if k = 0 then .clean 0 else rsRead k
  else
    let k := Sparse.get 0 m.flips (a / 16)
    if k = 0 then .clean 0 else secdedRead k

/-- A byte as a read delivers it. -/
def TileStore.byte (m : TileStore) (a : Nat) : Byte :=
  let r := (m.word a).residual
  m.bytes.read a ^^^ byteOf r (if (m.granule a).wcode then a % 32 else a % 16)

/-- n bytes as a read delivers them. -/
def TileStore.read (m : TileStore) (a : Nat) : Nat → List Byte
  | 0 => []
  | n + 1 => m.byte a :: TileStore.read m (a + 1) n

/-- Protected words of a range that a read corrects before the first it cannot, and that one. -/
def TileStore.check (m : TileStore) (a n : Nat) : Nat × Option Nat :=
  if m.flips.isEmpty then (0, none)
  else (wordsOf a n 16).foldl (fun r w =>
    if (m.granule (16 * w)).wcode && w % 2 == 1 then r
    else match m.word (16 * w) with
      | .clean _ => r
      | .corrected _ => if r.2.isNone then (r.1 + 1, none) else r
      | .uncorrectable => (r.1, if r.2.isNone then some (16 * w) else r.2)) (0, none)

/-- A write of whole rows: new check bits for every word (R205). -/
def TileStore.write (m : TileStore) (a : Nat) (bs : List Byte) : TileStore :=
  { m with bytes := m.bytes.writeBytes a bs, flips := if m.flips.isEmpty then [] else Sparse.clearRange m.flips (a / 16) ((a + bs.length + 15) / 16) }

/-- Fills a range with zeros (R210, R212). -/
def TileStore.zero (m : TileStore) (a n : Nat) : TileStore :=
  { m with bytes := Sparse.clearRange m.bytes a (a + n), flips := Sparse.clearRange m.flips (a / 16) ((a + n) / 16) }

/-! ### Footprints and descriptors -/

/-- A footprint (R84): offset, length, SPACE. -/
structure Footprint where
  off : Nat
  len : Nat
  ts : Bool
  deriving DecidableEq, Repr

/-- The footprint at offset o of a descriptor (R84). -/
def footprint (d : List Byte) (o : Nat) : Footprint :=
  let a := fieldAt d o 4
  let b := fieldAt d (o + 4) 4
  { off := bitsOf a 24 0, len := bitsOf b 24 0, ts := bitOf a 31 }

/-- Whether reserved bits of the footprint at offset o are set. -/
def footprintReserved (d : List Byte) (o : Nat) : Bool :=
  bitsOf (fieldAt d o 4) 30 25 != 0 || bitsOf (fieldAt d (o + 4) 4) 31 25 != 0

/-- WR, RD0 and RD1 of R84, RD2 of R104. -/
def fpWr (d : List Byte) : Footprint := footprint d 8
def fpRd0 (d : List Byte) : Footprint := footprint d 16
def fpRd1 (d : List Byte) : Footprint := footprint d 24
def fpRd2 (d : List Byte) : Footprint := footprint d 32

/-- OP of R84. -/
def cmdOp (d : List Byte) : Nat := fieldAt d 0 2
/-- FLAGS.LONG of R84. -/
def cmdLong (d : List Byte) : Bool := bitOf (fieldAt d 4 2) 0
/-- WAIT.EN and the semaphore of WAIT. -/
def cmdWaitEn (d : List Byte) : Bool := bitOf (fieldAt d 2 1) 7
def cmdWaitSem (d : List Byte) : Nat := bitsOf (fieldAt d 2 1) 3 0
/-- SIG.EN and the semaphore of SIG. -/
def cmdSigEn (d : List Byte) : Bool := bitOf (fieldAt d 3 1) 7
def cmdSigSem (d : List Byte) : Nat := bitsOf (fieldAt d 3 1) 3 0

/-- The read footprints of a command of queue q (R104: RD2 of an MMA is one, of a 64-byte descriptor of ME too: log 150). -/
def readFps (q : Nat) (d : List Byte) : List Footprint :=
  if q = 0 then [fpRd0 d, fpRd1 d, fpRd2 d] else [fpRd0 d, fpRd1 d]

/-- Whether two footprints share a byte of one space. -/
def Footprint.meets (a b : Footprint) : Bool := a.ts == b.ts && overlaps a.off a.len b.off b.len

/-- Semaphore s satisfies threshold t (R88). -/
def semSatisfies (s t : BitVec 16) : Bool := decide ((s - t).toNat < 32768)

/-! ### Engine accesses -/

/-- The tile an engine works on, the 64-byte accesses that a command stopped by a fault still makes (R96; none while nothing stops it), and the bytes it has sent away from the tile. -/
structure EngState where
  tile : Tile
  grant : Option Nat := none
  out : List Byte := []
  deriving DecidableEq, Repr

/-- What an engine does to its tile: it answers, or stops with a fault code and FADDR, what it did before standing. -/
abbrev Eng (α : Type) := ExceptT (Nat × Nat) (StateM EngState) α

/-- The tile. -/
def engTile : Eng Tile := do
  let s ← get
  pure s.tile

/-- Changes the tile. -/
def engModify (f : Tile → Tile) : Eng Unit := modify fun s => { s with tile := f s.tile }

/-- Stops with a fault, if there is one. -/
def engStop : Option (Nat × Nat) → Eng Unit
  | none => pure ()
  | some f => throw f

/-- Whether a footprint holds every byte of a range (R86). -/
def Footprint.covers (f : Footprint) (ts : Bool) (a n : Nat) : Bool := f.ts == ts && decide (f.off ≤ a) && decide (a + n ≤ f.off + f.len)

/-- The part of [a, a + n) in the 64-byte row r: offset and bytes. -/
def rowPart (a n r : Nat) : Nat × Nat := (max a (64 * r), min (a + n) (64 * r + 64) - max a (64 * r))

/-- How many bytes of a range the accesses of a command reach, row by row upward, and what stops them there: FOOTPRINT at the first row that no footprint covers, which is not accessed (R86), or the end of what a command stopped by a fault still does (R96), code 0. -/
def engReach (grant : Option Nat) (covered : Nat → Nat → Bool) (ts : Bool) (a n : Nat) : Nat × Option (Nat × Nat) :=
  let rows := wordsOf a n 64
  let ok := (rows.takeWhile fun r => covered (rowPart a n r).1 (rowPart a n r).2).length
  let k := match grant with
    | some g => min g ok
    | none => ok
  if rows.length ≤ k then (n, none)
  else
    let o := max a (64 * (a / 64 + k))
    (o - a, some (if k = ok then (fFootprint, o + (if ts then 0x80000000 else 0)) else (0, 0)))

/-- The accesses to n bytes at a are made. -/
def EngState.spend (s : EngState) (a n : Nat) : EngState := { s with grant := s.grant.map (fun g => g - (wordsOf a n 64).length) }

/-- Reads the scratchpad inside the footprints as far as that goes: the bytes read, and what stopped the command (R86, R201). -/
def engTry (fs : List Footprint) (a n : Nat) : Eng (List Byte × Option (Nat × Nat)) := do
  let s ← get
  let (n', stop) := engReach s.grant (fun o k => fs.any fun f => f.covers false o k) false a n
  let c := s.tile.sp.check a n'
  set { s.spend a n' with tile := s.tile.count 3 c.1 }
  match c.2 with
  | some o => pure (s.tile.sp.read a (o / 64 * 64 - a), some (fSpUncorr, o))
  | none => pure (s.tile.sp.read a n', stop)

/-- An engine read of the scratchpad inside the footprints (R86, R201). -/
def engRead (fs : List Footprint) (a n : Nat) : Eng (List Byte) := do
  let r ← engTry fs a n
  engStop r.2
  pure r.1

/-- Writes the scratchpad inside the write footprint, row by row upward, with so many accesses left; half as in partialWords (R86, R202, R203). -/
def engPut (grant : Option Nat) (f : Footprint) (a : Nat) (bs : List Byte) (half : Bool := false) : Eng Unit := do
  let s ← get
  let (n', stop) := engReach grant (fun o k => f.covers false o k) false a bs.length
  let c := s.tile.sp.checkPartial a n' (half && n' == bs.length)
  match c.2 with
  | some o =>
    set { s with tile := { s.tile.count 3 c.1 with sp := s.tile.sp.write a (bs.take (o / 64 * 64 - a)) } }
    throw (fSpUncorr, o)
  | none =>
    set { s with tile := { s.tile.count 3 c.1 with sp := s.tile.sp.write a (bs.take n') } }
    engStop stop

/-- An engine write of the scratchpad inside the write footprint (R86, R202, R203). -/
def engWrite (f : Footprint) (a : Nat) (bs : List Byte) (half : Bool := false) : Eng Unit := do
  let s ← get
  set (s.spend a bs.length)
  engPut s.grant f a bs half

/-- Reads tile-store rows as far as that goes: the bytes read, and what stopped the command (R209). -/
def engTsTry (a n : Nat) : Eng (List Byte × Option (Nat × Nat)) := do
  let s ← get
  let (n', stop) := engReach s.grant (fun _ _ => true) true a n
  let c := s.tile.ts.check a n'
  set { s.spend a n' with tile := s.tile.count 4 c.1 }
  match c.2 with
  | some o => pure (s.tile.ts.read a (o / 64 * 64 - a), some (fTsUncorr, o))
  | none => pure (s.tile.ts.read a n', stop)

/-! ### Elements (R102) -/

/-- The bytes that n elements of a format take. -/
def Fmt.bytes (f : Fmt) (n : Nat) : Nat := (n * f.width + 7) / 8

/-- n element codes from a byte string, 4-bit elements with the lower index in [3:0]. -/
def elems (f : Fmt) (bs : List Byte) : Nat → List Nat
  | 0 => []
  | n + 1 =>
    if f.width = 4 then
      match n, bs with
      | _, [] => []
      | 0, b :: _ => [b.toNat % 16]
      | k + 1, b :: rest => b.toNat % 16 :: b.toNat / 16 :: elems f rest k
    else leNat (bs.take (f.width / 8)) :: elems f (bs.drop (f.width / 8)) n

/-- The bytes of element codes; the half byte beyond an odd number of 4-bit elements is the high half of old. -/
def packElems (f : Fmt) (old : Byte) : List Nat → List Byte
  | [] => []
  | [c] => if f.width = 4 then [BitVec.ofNat 8 (c % 16 + old.toNat / 16 * 16)] else leBytes (f.width / 8) c
  | c :: e :: cs =>
    if f.width = 4 then BitVec.ofNat 8 (c % 16 + e % 16 * 16) :: packElems f old cs
    else leBytes (f.width / 8) c ++ packElems f old (e :: cs)

/-- The random bits of an element for rounding: 4 bits of purpose 0x01 (R138, R181). -/
def roundBits (base : Dword) (epoch postmark : Word) (stream e : Nat) : Nat :=
  ucgBits (ucgSeed base epoch 1) stream postmark 1 4 e

/-- What the step in progress supplies to the engines: base seed, SEED_EPOCH, postmark (R180), and of each tensor slot its SCALE and HELD (R116, R156). -/
structure StepEnv where
  base : Dword := 0
  epoch : Word := 0
  postmark : Word := 0
  scales : Sparse (Word × Bool) := []
  deriving DecidableEq, Repr

/-- SCALE and HELD of a slot, 1.0 and clear for an unlisted one (R149, R156). -/
def StepEnv.slot (e : StepEnv) (i : Nat) : Word × Bool := Sparse.get (0x3F800000, false) e.scales i

end Sys2Proof.Machine
end

