-- ==== Sys2Proof/Machine/Dma.lean ====
section
/-! DEFINITION. Dma.lean: the memory-op unit and the DMA queues on their tile: start checks, bank and version judgements and the moves themselves (R204, R211-R220, R289-R291). -/

namespace Sys2Proof.Machine

/-- Whether a footprint is exactly a range of a space; a range of length 0 asks for an empty footprint. -/
def Footprint.equals (f : Footprint) (ts : Bool) (a n : Nat) : Bool :=
  if n = 0 then f.len == 0 else f.off == a && f.len == n && f.ts == ts

/-- MO_ENCODING of FILL and COPY (R204). -/
def moChecks (d : List Byte) : List Nat :=
  let dst := fieldAt d 32 4
  let len := fieldAt d 36 4
  let src := fieldAt d 40 4
  let bad := cmdLong d || dst % 64 != 0 || len % 64 != 0 || fieldAt d 44 4 != 0 || fieldAt d 48 16 != 0 || !(fpWr d).equals false dst len
    || (cmdOp d == 2 && (src % 64 != 0 || !(fpRd0 d).equals false src len || overlaps dst len src len))
  if bad then [0x0304] else []

/-- The pattern v, little-endian, over n bytes. -/
def patternBytes (v n : Nat) : List Byte := (List.replicate (n / 4) (leBytes 4 v)).flatten

/-- FILL (R204). -/
def fillRun (d : List Byte) : Eng Unit := engWrite (fpWr d) (fieldAt d 32 4) (patternBytes (fieldAt d 40 4) (fieldAt d 36 4))

/-- COPY in ascending order: the rows read before one that cannot be read are copied (R96, R204). -/
def copyRun (d : List Byte) : Eng Unit := do
  let r ← engTry [fpRd0 d] (fieldAt d 40 4) (fieldAt d 36 4)
  engPut none (fpWr d) (fieldAt d 32 4) r.1
  engStop r.2

/-- Fields of a DL descriptor (R217). -/
def dlSp (d : List Byte) : Nat := fieldAt d 32 4
def dlTs (d : List Byte) : Nat := fieldAt d 36 4
def dlLen (d : List Byte) : Nat := fieldAt d 40 4
def dlSrc (d : List Byte) : Nat := fieldAt d 44 4
def dlValue (d : List Byte) : Nat := fieldAt d 48 4
/-- First bank, number of banks and target of a TPWR (R217). -/
def tpwrFirst (d : List Byte) : Nat := bitsOf (fieldAt d 52 2) 3 0
def tpwrCount (d : List Byte) : Nat := bitsOf (fieldAt d 52 2) 7 4 + 1
def tpwrTarget (d : List Byte) : BankState :=
  match bitsOf (fieldAt d 52 2) 9 8 with
  | 0 => .on
  | 1 => .retain
  | _ => .off

/-- Whether a DL descriptor keeps the conditions of R217. -/
def dlOk (d : List Byte) : Bool :=
  let lenOk := dlLen d % 64 == 0 && decide (64 ≤ dlLen d) && decide (dlLen d ≤ 25165824)
  !cmdLong d && fieldAt d 54 10 == 0 && (fpRd1 d).len == 0 &&
  match cmdOp d with
  | 1 => lenOk && dlSp d % 64 == 0 && dlTs d % 64 == 0 && dlSrc d == 0 && dlValue d == 0 && fieldAt d 52 2 == 0
      && (fpWr d).equals false (dlSp d) (dlLen d) && (fpRd0 d).equals true (dlTs d) (dlLen d)
  | 2 => lenOk && dlSp d % 64 == 0 && dlTs d % 64 == 0 && dlSrc d == 0 && dlValue d == 0 && fieldAt d 52 2 == 0
      && (fpWr d).equals true (dlTs d) (dlLen d) && (fpRd0 d).equals false (dlSp d) (dlLen d)
  | 3 => lenOk && dlSp d == 0 && dlTs d % 64 == 0 && dlSrc d == 0 && fieldAt d 52 2 == 0
      && (fpWr d).equals true (dlTs d) (dlLen d) && (fpRd0 d).len == 0
  | 4 => lenOk && dlSp d == 0 && dlTs d % 64 == 0 && dlSrc d % 64 == 0 && dlValue d == 0 && fieldAt d 52 2 == 0
      && (fpWr d).equals true (dlTs d) (dlLen d) && (fpRd0 d).equals true (dlSrc d) (dlLen d)
      && !overlaps (dlTs d) (dlLen d) (dlSrc d) (dlLen d)
  | 5 => dlSp d == 0 && dlTs d == 0 && dlLen d == 0 && dlSrc d == 0 && dlValue d == 0
      && bitsOf (fieldAt d 52 2) 15 10 == 0 && bitsOf (fieldAt d 52 2) 9 8 != 3 && decide (tpwrFirst d + tpwrCount d ≤ 16)
      && (fpWr d).equals true (tpwrFirst d * 0x180000) (tpwrCount d * 0x180000) && (fpRd0 d).len == 0
  | _ => false

/-- The remote address of a DH command and whether it is a host address (R219). -/
def dhAddr (d : List Byte) : Nat := bitsOf (fieldAt d 32 8) 62 0
def dhHost (d : List Byte) : Bool := bitOf (fieldAt d 32 8) 63
def dhLocal (d : List Byte) : Nat := fieldAt d 40 4
def dhLen (d : List Byte) : Nat := fieldAt d 44 4

/-- The HBM range of R10. -/
def hbmBase : Nat := 0x8000000000
def hbmSize : Nat := 0x8000000000

/-- Whether a DH descriptor keeps the conditions of R219. -/
def dhOk (d : List Byte) : Bool :=
  let own := if cmdOp d = 1 then fpWr d else fpRd0 d
  let other := if cmdOp d = 1 then fpRd0 d else fpWr d
  !cmdLong d && fieldAt d 48 16 == 0 && dhLocal d % 64 == 0 && dhLen d % 64 == 0 && decide (64 ≤ dhLen d)
  && (dhHost d || (decide (hbmBase ≤ dhAddr d) && decide (dhAddr d + dhLen d ≤ hbmBase + hbmSize)))
  && own.equals own.ts (dhLocal d) (dhLen d) && other.len == 0 && (fpRd1 d).len == 0

/-- Fields of the DU operations (R289, R271). -/
def duSrc (d : List Byte) : Nat := fieldAt d 32 4
def duLen (d : List Byte) : Nat := fieldAt d 36 4
def duTarget (d : List Byte) : Nat := fieldAt d 40 4
def duGroup (d : List Byte) : Nat := fieldAt d 32 2
def duCounter (d : List Byte) : Nat := fieldAt d 34 1
def duValue (d : List Byte) : Nat := fieldAt d 36 4

/-- Whether a DU descriptor keeps the conditions of R289. -/
def duOk (d : List Byte) : Bool :=
  !cmdLong d &&
  match cmdOp d with
  | 1 => duLen d == 11520 && bitsOf (duTarget d) 31 30 == 0 && (fpRd0 d).equals false (duSrc d) 11520 && fieldAt d 44 20 == 0
  | 2 => decide (duGroup d < 1024) && decide (duCounter d ≤ 1) && fieldAt d 35 1 == 0 && fieldAt d 40 24 == 0
      && (fpWr d).len == 0 && (fpRd0 d).len == 0 && (fpRd1 d).len == 0
  | _ => false

/-- The tile-store footprints of a DMA command: the one it writes and the one it reads. -/
def tsWriteFp (d : List Byte) : Option Footprint := if (fpWr d).ts && (fpWr d).len != 0 then some (fpWr d) else none
def tsReadFp (d : List Byte) : Option Footprint := if (fpRd0 d).ts && (fpRd0 d).len != 0 then some (fpRd0 d) else none

/-- The lowest offset of a range that lies in a bank not ON, and the bytes of the range in such banks (R214). -/
def TileStore.asleep (m : TileStore) (a n : Nat) : Option (Nat × Nat) :=
  let banks := (List.range 16).filter (fun b => (m.bank b).st != .on && overlaps a n (b * 0x180000) 0x180000)
  match banks with
  | [] => none
  | b :: _ =>
    let part := fun b => min (a + n) ((b + 1) * 0x180000) - max a (b * 0x180000)
    some (max a (b * 0x180000), (banks.map part).foldl (· + ·) 0)

/-- Whether a range of a tile shares a byte with [a, a + n). -/
def VRange.meets (r : VRange) (a n : Nat) : Bool := overlaps r.off r.len a n

/-- The first range that refuses a read: it is OPEN (R290). -/
def staleRange (rs : List VRange) (a n : Nat) : Option VRange := rs.find? (fun r => r.meets a n && r.st == .open)

/-- The first range that refuses a write: it is CURRENT (R290). -/
def lockedRange (rs : List VRange) (a n : Nat) : Option VRange := rs.find? (fun r => r.meets a n && r.st == .current)

/-- The OLD ranges that a write would open (R290). -/
def opensRanges (rs : List VRange) (a n : Nat) : List VRange := rs.filter (fun r => r.meets a n && r.st == .old)

/-- Notes a row number in a rising list. -/
def insertRow (x : Nat) : List Nat → List Nat
  | [] => [x]
  | y :: ys => if x < y then x :: y :: ys else if x = y then y :: ys else y :: insertRow x ys

/-- Marks the ranges that a served write reaches: OLD ones open with the postmark of the step, rows written are noted (R290, R294). -/
def markWrite (postmark a n : Nat) (r : VRange) : VRange :=
  if !r.meets a n || r.st == .current then r
  else
    let r := if r.st == .old then { r with st := .open, before := r.stamp, stamp := postmark, rows := [] } else r
    let rows := ((List.range (n / 64)).map (fun i => (a + 64 * i) / 64)).filter (fun w => decide (r.off / 64 ≤ w) && decide (64 * w < r.off + r.len))
    { r with rows := rows.foldl (fun l w => insertRow w l) r.rows }

/-- A served tile-store write of a step with its postmark. -/
def Tile.tsServe (t : Tile) (postmark a : Nat) (bs : List Byte) : Tile :=
  { t with ts := t.ts.write a bs, ranges := t.ranges.map (markWrite postmark a bs.length) }

/-- Writes tile-store rows, row by row upward, with so many accesses left (R218, R290). -/
def engTsPut (grant : Option Nat) (postmark a : Nat) (bs : List Byte) : Eng Unit := do
  let (n', stop) := engReach grant (fun _ _ => true) true a bs.length
  engModify fun t => t.tsServe postmark a (bs.take n')
  engStop stop

/-- A write of tile-store rows. -/
def engTsWrite (postmark a : Nat) (bs : List Byte) : Eng Unit := do
  let s ← get
  set (s.spend a bs.length)
  engTsPut s.grant postmark a bs

/-- TS_READ: rows move in ascending order, those read before one that cannot be read are moved (R218, log 151). -/
def tsReadRun (d : List Byte) : Eng Unit := do
  let r ← engTsTry (dlTs d) (dlLen d)
  engPut none (fpWr d) (dlSp d) r.1
  engStop r.2

/-- TS_WRITE (R218). -/
def tsWriteRun (postmark : Nat) (d : List Byte) : Eng Unit := do
  let r ← engTry [fpRd0 d] (dlSp d) (dlLen d)
  engTsPut none postmark (dlTs d) r.1
  engStop r.2

/-- TFILL (R218). -/
def tfillRun (postmark : Nat) (d : List Byte) : Eng Unit := engTsWrite postmark (dlTs d) (patternBytes (dlValue d) (dlLen d))

/-- TCOPY (R207, R217). -/
def tcopyRun (postmark : Nat) (d : List Byte) : Eng Unit := do
  let r ← engTsTry (dlSrc d) (dlLen d)
  engTsPut none postmark (dlTs d) r.1
  engStop r.2

/-- The granules that a run of banks holds (R205). -/
def runGranules (d : List Byte) : List Nat := (List.range (24 * tpwrCount d)).map (· + 24 * tpwrFirst d)

/-- TS_OWNED of a TPWR to OFF: a granule owned by a program other than prog, or one that meets an extent of the program in execution (R215). -/
def tpwrOwned (m : TileStore) (prog : Option Nat) (extents : List (Nat × Nat)) (d : List Byte) : Bool :=
  cmdOp d == 5 && tpwrTarget d == .off &&
  ((runGranules d).any fun g =>
    (match (Sparse.get {} m.granules g).owner with
     | none => false
     | some p => prog != some p)
    || extents.any (fun e => overlaps e.1 e.2 (g * 65536) 65536))

/-- A started TPWR: each bank of the run has a transition to perform (R212). -/
def tpwrStart (m : TileStore) (d : List Byte) : TileStore :=
  { m with banks := Vector.ofFn fun (i : Fin 16) =>
      if tpwrFirst d ≤ i.val ∧ i.val < tpwrFirst d + tpwrCount d then { m.banks.get i with target := some (tpwrTarget d) } else m.banks.get i }

/-- A bank's transition: to OFF its contents are lost, from OFF it is filled with zeros (R212). -/
def bankTurn (m : TileStore) (b : Nat) (target : BankState) : TileStore :=
  let from_ := (m.bank b).st
  let m := if target == .off || from_ == .off then m.zero (b * 0x180000) 0x180000 else m
  { m with banks := m.banks.setIfInBounds b { m.bank b with st := target, target := none } }

/-- Whether every bank of a TPWR's run has reached its target. -/
def tpwrDone (m : TileStore) (d : List Byte) : Bool :=
  (List.range (tpwrCount d)).all fun i => (m.bank (tpwrFirst d + i)).target.isNone

end Sys2Proof.Machine
end

