-- ==== Sys2Proof/Machine/Hash.lean ====
section
/-! DEFINITION. Hash.lean: SHAKE256 (named by R400, R401; PRESUMED, FIPS 202, log 6), the IEEE 802.3 CRC-32 (R145, R362, R407) and the hash tree of R400. -/

namespace Sys2Proof.Machine

/-- Rotation offsets of the rho step, lane x + 5y. -/
def keccakRho : List Nat :=
  [0, 1, 62, 28, 27, 36, 44, 6, 55, 20, 3, 10, 43, 25, 39, 41, 45, 15, 21, 8, 18, 2, 61, 56, 14]

/-- Round constants of the iota step. -/
def keccakRc : List Dword :=
  [0x0000000000000001, 0x0000000000008082, 0x800000000000808A, 0x8000000080008000, 0x000000000000808B, 0x0000000080000001,
   0x8000000080008081, 0x8000000000008009, 0x000000000000008A, 0x0000000000000088, 0x0000000080008009, 0x000000008000000A] ++
  [0x000000008000808B, 0x800000000000008B, 0x8000000000008089, 0x8000000000008003, 0x8000000000008002, 0x8000000000000080,
   0x000000000000800A, 0x800000008000000A, 0x8000000080008081, 0x8000000000008080, 0x0000000080000001, 0x8000000080008008]

/-- Lane i of a state. -/
def lane (s : List Dword) (i : Nat) : Dword := s.getD i 0

/-- One round of the permutation. -/
def keccakRound (s : List Dword) (rc : Dword) : List Dword :=
  let c := (List.range 5).map fun x => lane s x ^^^ lane s (x + 5) ^^^ lane s (x + 10) ^^^ lane s (x + 15) ^^^ lane s (x + 20)
  let d := (List.range 5).map fun x => lane c ((x + 4) % 5) ^^^ (lane c ((x + 1) % 5)).rotateLeft 1
  let t := (List.range 25).map fun i => (lane s i ^^^ lane d (i % 5)).rotateLeft (keccakRho.getD i 0)
  -- lane (x, y) of the pi step comes from lane ((x + 3y) mod 5, x)
  let b := (List.range 25).map fun i => let x := i % 5; let y := i / 5; lane t ((x + 3 * y) % 5 + 5 * x)
  let a := (List.range 25).map fun i =>
    let y := i / 5 * 5
    lane b i ^^^ (~~~ lane b (y + (i + 1) % 5) &&& lane b (y + (i + 2) % 5))
  match a with
  | [] => []
  | a0 :: as => (a0 ^^^ rc) :: as

/-- The permutation Keccak-f[1600]. -/
def keccakF (s : List Dword) : List Dword := keccakRc.foldl keccakRound s

/-- A block of 136 bytes as 17 lanes, then 8 zero lanes. -/
def blockLanes : Nat → List Byte → List Dword
  | 0, _ => List.replicate 8 0
  | n + 1, bs => BitVec.ofNat 64 (leNat (bs.take 8)) :: blockLanes n (bs.drop 8)

/-- Absorbs n blocks. -/
def absorb : Nat → List Byte → List Dword → List Dword
  | 0, _, s => s
  | n + 1, bs, s => absorb n (bs.drop 136) (keccakF (List.zipWith (· ^^^ ·) s (blockLanes 17 (bs.take 136))))

/-- The padded message of SHAKE256. -/
def shakePad (m : List Byte) : List Byte :=
  let r := m.length % 136
  if r = 135 then m ++ [0x9F] else m ++ [0x1F] ++ List.replicate (134 - r) 0 ++ [0x80]

/-- The bytes of the first n lanes. -/
def laneBytes (s : List Dword) (n : Nat) : List Byte := (s.take n).flatMap fun l => leBytes 8 l.toNat

/-- SHAKE256(m, 32): the first 32 bytes of output (R400). -/
def shake256 (m : List Byte) : List Byte :=
  let p := shakePad m
  laneBytes (absorb (p.length / 136) p (List.replicate 25 0)) 4

/-- One byte of the reflected CRC-32. -/
def crcBits : Nat → BitVec 32 → BitVec 32
  | 0, c => c
  | n + 1, c => crcBits n (if c.getLsbD 0 then (c >>> 1) ^^^ 0xEDB88320 else c >>> 1)

/-- CRC-32 with the IEEE 802.3 polynomial. -/
def crc32 (bs : List Byte) : Word :=
  (bs.foldl (fun c b => crcBits 8 (c ^^^ b.zeroExtend 32)) 0xFFFFFFFF) ^^^ 0xFFFFFFFF

/-- Blocks of 64 KiB of a body, numbered from i (R400). -/
def treeLeaves : Nat → Nat → List Byte → List (List Byte)
  | 0, _, _ => []
  | n + 1, i, bs => shake256 (0 :: leBytes 4 i ++ bs.take 65536) :: treeLeaves n (i + 1) (bs.drop 65536)

/-- The shape of R141 over leaf digests, node(l, r) = SHAKE256(0x01 || l || r, 32) (R400). -/
def hashTree : Nat → List (List Byte) → List Byte
  | 0, _ => []
  | _ + 1, [] => []
  | _ + 1, [x] => x
  | n + 1, x :: y :: zs =>
    let l := x :: y :: zs
    let h := 2 ^ Nat.log2 (l.length - 1)
    shake256 (1 :: hashTree n (l.take h) ++ hashTree n (l.drop h))

/-- The tree root of a body of n blocks (R400). -/
def treeRoot (n : Nat) (body : List Byte) : List Byte := hashTree 16 (treeLeaves n 0 body)

end Sys2Proof.Machine
end

