-- ==== Sys2Proof/Config.lean ====
section
/-! DEFINITION. Config.lean: what the spec leaves open, as constants without a body: no proof can see their values (log 6-9, 16-18). -/

namespace Sys2Proof.Machine

/-- A profile that a stream signals, by the names of R308. -/
inductive VideoProfile where
  | main | high | high10 | high422 | main10 | main42210 | other
  deriving DecidableEq, Repr, Inhabited

/-- What a stream signals about its pictures (R308, R309): profile; ten times the level, of H.262 1 Low, 2 Main, 3 High 1440, 4 High; monochrome or 4:4:4; a scalable, multiview, 3D or screen-content extension, or large-scale tile decoding. -/
structure StreamInfo where
  profile : VideoProfile := .main
  level : Nat := 0
  otherChroma : Bool := false
  extension : Bool := false
  deriving DecidableEq, Repr, Inhabited

/-- A picture (R308-R310): luma size, chroma layout (false 4:2:0, true 4:2:2), bit depth, planes row by row, whether it is a frame whose bottom field comes first, the damage reason of R324 (0 none), and what its stream signals. -/
structure Picture where
  w : Nat
  h : Nat
  chroma422 : Bool
  depth : Nat
  luma : List Nat
  cb : List Nat
  cr : List Nat
  bottomFirst : Bool
  damage : Nat
  info : StreamInfo := {}
  deriving DecidableEq, Repr, Inhabited

/-- An output of a decoder: a frame, or the top and the bottom field of a field pair or field-coded picture (R316). -/
inductive Coded where
  | frame (p : Picture)
  | fields (top bottom : Picture)
  deriving DecidableEq, Repr, Inhabited

/-- A picture that a decoder reconstructs: the frame or fields before the stream's own cropping and without film grain; the cropping rectangle in luma samples (frame cropping of H.264, conformance window of H.265, UpscaledWidth x FrameHeight of AV1), whether it is output and its place in output order (R310); whether its decoding violated the standard, and the pictures that it references, by place in decoding order (R324). -/
structure Recon where
  coded : Coded
  cropX : Nat
  cropY : Nat
  cropW : Nat
  cropH : Nat
  shown : Bool
  order : Nat
  violated : Bool
  refs : List Nat
  deriving DecidableEq, Repr, Inhabited

/-- What a decoder makes of a chunk: its pictures in decoding order, and whether it could not resume after the last of them (R324). -/
structure Decoded where
  pics : List Recon
  stopped : Bool
  deriving DecidableEq, Repr, Inhabited

/-- The decoding processes of H.262, H.264, H.265 and AV1 (R308, R310), which the spec names and does not restate; what is accepted (R308, R309), the stream's cropping and the output order (R310), damage (R324), and weaving and splitting of fields (R316), are the model's definitions. -/
opaque Config.decode : (codec : Nat) → (chunk : List Byte) → Decoded

/-- The start-up state of the PUF array when it is powered for the n-th time (R406). -/
opaque Config.pufStartup : (n : Nat) → List Byte

/-- What Helweven's code-offset fuzzy extractor makes of the PUF's start-up state and PUF_HELPER (R406): the secret K. -/
opaque Config.pufSecret : (startup helper : List Byte) → List Byte

/-- How many of the write sequences of a commit that is in progress have run or are running when a reset or the loss of power meets it (R408, R431, R435). -/
opaque Config.sequencesRun : (commit : List (Nat × Nat)) → Nat

/-- Whether the mailbox is aborted while the quote with a leaf is made, between the write of LEAF and its release (R411): an event from outside, for which GET_QUOTE has no operand. Each leaf is used once. -/
opaque Config.quoteAborted : (leaf : Nat) → Bool

/-- The hash in the boot ROM (R401). -/
opaque Config.romKeyHash : List Byte

/-- The voltage in mV that the TRIMS item gives a half (false West) for an operating point (R426), as far as it lies in the range of the point. -/
opaque Config.trimVoltage : (trims : List Byte) → (east : Bool) → (op : Nat) → Nat

/-- The bytes of a tile's granule map in a TILE_DATA chunk, given the granules that the program owns (R460): the spec lays it out nowhere. -/
opaque Config.granuleMap : (granules : List (Nat × Bool)) → List Byte

/-- The bytes of a GROUPS chunk, given its items (R460): the spec lays it out nowhere. -/
opaque Config.groupsChunk : List CtxGroup → List Byte

/-- One group's part of a FACTORS chunk, given FACTORS_VALID and L, R, Lr and Rr of its blocks (R460): where FACTORS_VALID stands the spec does not say. -/
opaque Config.factorsChunk : (valid : Bool) → (factors : List Byte) → List Byte

/-- The node whose input a frame that arrives on a link under a route index is for: the header of R365 names none (log 18). -/
opaque Config.inboundNode : (link route : Nat) → Nat

/-- The vendor ID of the configuration header (R335, R413). -/
opaque Config.pcieVendor : BitVec 16

/-- The registers of the configuration header and capabilities that the PCIe base specification defines: what a read of a register returns, given what was written to it last (R335). -/
opaque Config.pcieRegister : (reg : Nat) → (written : Word) → Word

/-- The capabilities of the endpoint's configuration space whose registers R335 gives a limit. -/
inductive Capability where
  | pm | pcie | msix | aer
  deriving DecidableEq, Repr

/-- Number of the first register of a capability (R335): the spec does not place them. -/
opaque Config.capability : Capability → Nat

/-- The level of the strap SMB_ADDR[1:0] (R479, R482), which the board fixes. -/
opaque Config.smbAddr : BitVec 2

/-- Whether a cell of the boundary register belongs to a PCIe or an Xagon lane (R483): the spec does not lay the register out. -/
opaque Config.laneCell : (cell : Nat) → Bool

/-- The row of HBM that holds a 64-byte unit, given the channel counts of its die (R448): the spec gives rows no extent. -/
opaque Config.hbmRow : (parts : List Nat) → (unit : Nat) → Nat

/-- Stack and channel that PPR_REFUSED carries for an address outside HBM (R448, R466). -/
opaque Config.noHbmPlace : (addr : Nat) → Nat × Nat

/-- The FSEQ of a NULL flight of a sender that lacks replay space (R369), which no rule numbers. -/
opaque Config.nullFlightSeq : (next : Nat) → BitVec 10

/-- The event code that ABORT carries when a section faults because the host closed a link (R374, R384): that fault has no event. -/
opaque Config.closeAbortCode : BitVec 16

/-- Whether an AVSBus Status word reports a fault (Part III of the PMBus specification, which R428 names and does not restate). -/
opaque Config.avsFault : (status : BitVec 16) → Bool

/-- The requester ID of a PCIe request, which a dead letter of SOURCE 0 carries as ORIGIN (R355): the request's sender fixes it. -/
opaque Config.requesterId : Nat

/-- The next trim of the boot oscillator after a count of BOSC cycles (R420). -/
opaque Config.boscTrim : (trim count : Nat) → Nat

/-- The 64-byte accesses that a command in execution still makes when a fault stops its tile (R96): the command is known by its queue and its place in the issue order. -/
opaque Config.accessesLeft : (queue order : Nat) → Nat

/-- A byte of HBM that a read which is dropped, outside the partition of its agent, would have delivered (R302): the spec does not say what the reader goes on with. -/
opaque Config.hbmDropped : (addr : Nat) → Byte

/-- Whether the entry of a job ring at an address is a STEP: what the host has written there is not part of the block's state (R346, log 43). -/
opaque Config.entryIsStep : (addr : Nat) → Bool

/-- The bytes that stand for a trim profile whose read HBM cannot correct (R441): the read delivers none, and the spec does not say what the parcel's geometry then is. -/
opaque Config.lostProfile : (addr : Nat) → List Byte

/-- A byte that a copy out of a tile's memory holds where the read delivered none (R201, R209, R214): the spec does not say. -/
opaque Config.undelivered : (ltn off : Nat) → Byte

end Sys2Proof.Machine
end

