-- ==== Sys2Proof/Machine/SectState.lean ====
section
/-! DEFINITION. SectState.lean: the state of one section as plain data: programs, slots, groups, the step in progress, barriers, ingest, versions (R36-R67, R149-R166, R268-R300, R325-R333). -/

namespace Sys2Proof.Machine

/-- State of a section (R40). -/
inductive SectPhase where
  | off | idle | running | switching | held | faulted
  deriving DecidableEq, Repr

/-- Code of R40. -/
def SectPhase.code : SectPhase → Nat
  | .off => 0 | .idle => 1 | .running => 2 | .switching => 3 | .held => 4 | .faulted => 5

/-- State of one tensor slot (R149); its configuration and fixed scale are the SECT_SLOT registers (R165). HIST holds 32 entries, oldest first, the newest HIST_COUNT of them valid. -/
structure Slot where
  scale : Word := 0x3F800000
  hist : List Word := List.replicate 32 0
  count : Nat := 0
  held : Bool := false
  clamped : Bool := false
  /-- Filled by the probe of the step in progress (R158, R164). -/
  filled : Bool := false
  deriving DecidableEq, Repr

/-- A root computation in progress (R285): boundaries left until it takes effect, the captured factors of each block (order, L and order, R), and the results once it has finished. -/
structure RootJob where
  due : Nat
  factors : List (Nat × List Word × Nat × List Word)
  results : Option (List (Option (List Word × List Word)))
  /-- ROOT_WAIT has been counted for the boundary at which it is due. -/
  waited : Bool := false
  /-- Boundaries since the one that started it. -/
  age : Nat := 0
  deriving DecidableEq, Repr

/-- Step scalars of a group (R273, R276): d, eta, df, c1, c2, bc1, bc2, alpha. -/
structure StepScalars where
  d : Word
  eta : Word
  df : Word
  c1 : Word
  c2 : Word
  bc1 : Word
  bc2 : Word
  alpha : Word
  deriving DecidableEq, Repr

/-- A parameter group (R268): the slot that declares it, its descriptor, STEPS, FSTEPS, FACTORS_VALID, FALLBACK, the slices accepted in the step (R272), the row words before the step, the step scalars once formed, u of the treated elements of Kronecker blocks not completed (R282), and the roots being computed. -/
structure Group where
  prog : Nat
  desc : List Byte
  steps : Nat := 0
  fsteps : Nat := 0
  valid : Bool := false
  fallback : Bool := false
  slices : List Nat := []
  /-- Row words of the rows treated in the step, as they stood before it (R280). -/
  rowWas : Sparse (Option Word) := []
  scalars : Option StepScalars := none
  us : Sparse (Option Word) := []
  roots : List RootJob := []
  deriving DecidableEq, Repr

/-- The STEP in progress (R345): descriptor, value area, ring index, timetable ID run, whether the descriptor named the probe variant and whether a probe runs (R157), segment code, index and count (R61), whether its sequence has begun, supersteps the sequence has completed, the supersteps, overruns and late handovers of the step so far (R163), the SEED_EPOCH and MASK_SEL of the HEAD (R180, R262), the mask tables whose MASK_LOCKED has been posted (R263). -/
structure StepRun where
  desc : List Byte
  values : List Byte
  index : Nat
  tt : Nat
  named : Bool
  probe : Bool
  code : Nat
  segIndex : Nat
  segCount : Nat
  began : Bool := false
  /-- The closing barrier of a WHOLE or TAIL sequence has released: the step boundary is due. -/
  ended : Bool := false
  seqSs : Nat := 0
  stepSs : Nat := 0
  overruns : Nat := 0
  late : Nat := 0
  epoch : Nat := 0
  maskSel : Nat := 0
  lockedPosted : List Nat := []
  /-- The seal point of the step boundary has passed: the boundary's seal is captured (R54, R470). -/
  sealed : Bool := false
  deriving DecidableEq, Repr

/-- A chain between its segments (R61): descriptor and value area of the HEAD, the next segment index, and what the step has counted. -/
structure Chain where
  desc : List Byte
  values : List Byte
  tt : Nat
  named : Bool
  probe : Bool
  segCount : Nat
  nextSeg : Nat
  stepSs : Nat
  overruns : Nat
  late : Nat
  lockedPosted : List Nat
  deriving DecidableEq, Repr

/-- What a descriptor in execution other than a STEP is (R43, R347, R348): its bytes and ring index. -/
structure DescRun where
  desc : List Byte
  index : Nat
  deriving DecidableEq, Repr

/-- A background LOAD or SAVE (R346): its descriptor, and for a SAVE the bytes of the image. -/
inductive BgJob where
  | load (d : DescRun)
  | save (d : DescRun) (image : List Byte)
  deriving DecidableEq, Repr

/-- A version copy that is being written (R296): the version's postmark, where the area lies and its bytes. -/
structure VersionCopy where
  postmark : Nat
  area : Nat
  bytes : List Byte
  deriving DecidableEq, Repr

/-- A snapshot (R300): postmark, target host address or peer chip; once it is being shipped its bytes and, to a peer, the link. -/
structure Snapshot where
  postmark : Nat
  host : Option Nat
  peer : Nat
  link : Nat := 0
  /-- Which LAST frame of the link ends it, counted since the link opened (R385). -/
  last : Nat := 0
  shipping : Option (List Byte) := none
  deriving DecidableEq, Repr

/-- An evaluation copy in progress (R299): evaluation slot (false A, true B), version postmark and the area's bytes. -/
structure EvalCopy where
  slotB : Bool
  postmark : Nat
  bytes : List Byte
  deriving DecidableEq, Repr

/-- An installed shuffle table (R325, R326). -/
structure ShuffleTable where
  addr : Nat
  epoch : Nat
  prog : Nat
  window : Nat
  rows : Nat
  deriving DecidableEq, Repr

/-- A parcel staged or being staged in a section's queue (R311, R331). -/
structure Parcel where
  parcel : Nat
  ring : Nat
  first : Nat
  count : Nat
  digest : List Byte
  deriving DecidableEq, Repr

/-- Records of a STATE exchange of a span (R383): slot and step state. -/
abbrev SpanState := List (Nat × StepAcc)

/-- A section's part in a span barrier (R381-R383): ARRIVE frames received (link, INDEX, BSEQ), whether ARRIVE was sent, whether RELEASE has come, the children's state combined so far and the root's values. -/
structure SpanWait where
  arrived : List (Nat × Nat × Nat) := []
  sent : Bool := false
  released : Bool := false
  childState : SpanState := []
  rootState : SpanState := []
  deriving DecidableEq, Repr

/-- The fields of a completion record besides PHASE and TSTAMP (R351). -/
structure Completion where
  tag : Nat
  index : Nat
  type : Nat
  status : Nat
  flags : Nat := 0
  tt : Nat := 0
  segment : Nat := 0
  postmark : Nat := 0
  detail : Nat := 0
  irq : Bool := false
  deriving DecidableEq, Repr

/-- The route, circular and node tables that the sorting offices of a section hold, as the last switch read them from the tile stores (R43, R233, R236, R238). -/
structure OfficeTables where
  routes : List OfficeEntry := []
  circulars : List OfficeEntry := []
  nodes : List OfficeEntry := []
  deriving DecidableEq, Repr

/-- One section. -/
structure Section where
  /-- SECT_STATE.STATE (R40). -/
  phase : SectPhase := .off
  /-- The state to return to from HELD (R40). -/
  before : SectPhase := .idle
  /-- SECT_STATE.PROG and PROG_VALID. -/
  prog : Nat := 0
  progValid : Bool := false
  /-- Resident programs by slot 0-63 (R42). -/
  programs : Sparse (Option ProgImage) := []
  /-- Tables of the section's sorting offices (R43). -/
  offices : OfficeTables := {}
  /-- Tensor slots (R149). -/
  slots : Sparse Slot := []
  /-- Parameter groups (R268). -/
  groups : Sparse (Option Group) := []
  /-- SECT_POSTMARK: stamp of the CURRENT slots. -/
  postmark : Nat := 0
  /-- The exception of R57 holds: no step boundary since the last LOAD or restore. -/
  fresh : Bool := true
  /-- The stamp that a LOAD or restore gave since the last WHOLE or HEAD was accepted: the exception of R57 then holds beyond that step's boundary. -/
  loaded : Option Nat := none
  /-- SECT_SEAL.PEND: a requested seal has not applied (R53). -/
  sealPend : Bool := false
  /-- A seal has been requested after the seal point of the pending step boundary: a new seal (R470). -/
  sealNext : Bool := false
  /-- STEP in progress, chain between segments, waiting evaluation STEP (R299). -/
  run : Option StepRun := none
  chain : Option Chain := none
  evalWait : Option StepRun := none
  /-- SWITCH in progress: the descriptor that caused it, none when a STEP did (R43). -/
  switching : Option DescRun := none
  /-- The switch stands at the section barrier of its step 3 (R43). -/
  atSwitch : Bool := false
  /-- The device seal that held the section has been applied; its release proceeds (R55). -/
  freed : Bool := false
  /-- FENCE waiting (R347), BARRIER in progress (R348). -/
  fence : Option DescRun := none
  barrier : Option DescRun := none
  /-- Background LOAD or SAVE (R346). -/
  bg : Option BgJob := none
  /-- Completion records of NOPs that wait for that of the descriptor in execution (R346). -/
  nops : List Completion := []
  /-- The resident programs have been discarded and no LOAD has succeeded since (R444). -/
  discarded : Bool := false
  /-- Program slots whose save sets lie in their tile-store homes (R42, R43). -/
  saved : List Nat := []
  /-- Barriers passed since the program was switched in (R366). -/
  bseq : Nat := 0
  span : SpanWait := {}
  /-- Record of the exchange phase in progress (R29). -/
  exchange : Option Nat := none
  /-- Durations reported by the clusters of the phase overran its BOUND (R246). -/
  overran : List Nat := []
  /-- Ingest (R322-R333): HEAD, the staged SEQ + 1 of each slot, parcels, table, row counter, its value at the start of the step, HANDOVER supersteps of the step, whether the release in progress waited and whether INGEST_STALLED was posted for it. -/
  head : Nat := 0
  staged : Sparse Nat := []
  parcels : List Parcel := []
  table : Option ShuffleTable := none
  row : Nat := 0
  rowStart : Nat := 0
  windows : Nat := 0
  waited : Bool := false
  stalled : Bool := false
  /-- Version copy, snapshots being shipped, evaluation slots' stamps and the copy into one of them (R296-R300). -/
  copy : Option VersionCopy := none
  snap : Option Snapshot := none
  evalA : Nat := 0
  evalB : Nat := 0
  evalCopy : Option EvalCopy := none
  /-- Per link the flits and the sums of digests of the exchange phase (R454): in flits, out flits, IN_DIGEST, OUT_DIGEST. -/
  linkUse : List (Nat × Nat × Nat × Nat × Nat) := []
  /-- Captured frames of the phase (R453 type 8): bytes and frames, and the bytes themselves. -/
  capBytes : List Byte := []
  capFrames : Nat := 0
  deriving DecidableEq, Repr

end Sys2Proof.Machine
end

