-- ==== Sys2Proof/Machine/SysState.lean ====
section
/-! DEFINITION. SysState.lean: the state of the shared parts as plain data: registers, rings, network, update dies, decode pipelines, links, boot controller, clocks and power (R223-R252, R268-R307, R308-R334, R335-R358, R359-R390, R391-R439, R440-R466). -/

namespace Sys2Proof.Machine

/-- The setup registers (R11, R467-R476). A key is BAR0 offset x 65536 + selector value (0 for a register without selector). An unlisted key reads as the register's reset value. -/
structure RegFile where
  /-- Values in effect of RW, ST and W1C fields. -/
  eff : Sparse Word := []
  /-- Staged values, none where nothing is staged. -/
  staged : Sparse (Option Word) := []
  /-- Values captured at a seal point and not applied yet (R469). -/
  captured : Sparse (Option Word) := []
  /-- Values captured by a device seal requested after the application of the pending one has begun (R470). -/
  next : Sparse (Option Word) := []
  /-- RC counters. -/
  counters : Sparse Word := []
  /-- HI words latched by reads of LO words (R472), keyed by the LO offset. -/
  latches : Sparse Word := []
  deriving DecidableEq, Repr

/-- One ring (R338-R343): base, size and write-back address as of the last enable, indices, expected phase, records since EN was set, records held while the ring is full, with whether each is announced at once (R343, R357), records lost, records not announced (R343) and the descriptor entries that RING_PRESSURE watches. -/
structure Ring where
  base : Nat := 0
  size : Nat := 0
  wb : Nat := 0
  head : Nat := 0
  tail : Nat := 0
  phase : Bool := true
  seq : Nat := 0
  held : List (List Byte × Bool) := []
  lost : Nat := 0
  unannounced : Nat := 0
  deriving DecidableEq, Repr

/-- What Dyndirix sends to the host over PCIe, in order (R357): a posted write, or the MSI-X message of a vector. -/
inductive HostWrite where
  | write (addr : Nat) (data : List Byte)
  | msix (vector : Nat)
  deriving DecidableEq, Repr

/-- What the last read, mailbox request or port instruction returned. -/
inductive Reply where
  | none
  | data (value : Nat)
  | bytes (value : List Byte)
  | unsupported
  | notAcknowledged
  deriving DecidableEq, Repr

/-- The PCIe endpoint (R335): trained width and rate in GT/s, configuration registers written. -/
structure Pcie where
  trained : Bool := false
  width : Nat := 0
  rate : Nat := 0
  config : Sparse Word := []
  /-- MSI-X Enable and Function Mask of the capability's Message Control. -/
  msixEnable : Bool := false
  msixMask : Bool := false
  /-- BAR4 (R335): the MSI-X table by 8-byte word, two to a vector, and the pending-bit array. The second word of a vector holds its data and, in bit 32, its mask bit, which is 1 until it is written (log 98). -/
  msixTable : Sparse Dword := []
  msixPending : Dword := 0
  deriving DecidableEq, Repr

/-- A message on plane X on its way to a tile (R231): section, LTN, DST, data by offset within the message, the source code of FADDR (R94), and per 16 bytes of its flits the bits that differ from their code word (R252). -/
structure Msg where
  sect : Nat
  ltn : Nat
  dst : Nat
  parts : List (Nat × List Byte)
  source : Nat
  flips : Sparse Nat := []
  deriving DecidableEq, Repr

/-- Bytes of a message's parts. -/
def partsLen (ps : List (Nat × List Byte)) : Nat := (ps.map (·.2.length)).foldl (· + ·) 0

/-- An input that a reduction node holds (R239): its data, and per 16 bytes of its flits the bits that differ from their code word (R252). -/
structure NodeIn where
  data : List Byte
  flips : Sparse Nat := []
  deriving DecidableEq, Repr

/-- A reduction node's buffers (R239, R242, R248): section, office, node, the inputs of each side that no result has taken yet, oldest first, and whether one has come to that side in the exchange phase. -/
structure NodeBuf where
  sect : Nat
  office : Nat
  node : Nat
  left : List NodeIn := []
  right : List NodeIn := []
  seenLeft : Bool := false
  seenRight : Bool := false
  deriving DecidableEq, Repr

/-- A gradient slice on its way to an update die (R271, R272): section, target word, data, a logical tile of the cluster where it entered plane U, and per 16 bytes of its flits the bits that differ from their code word (R252). -/
structure SliceMsg where
  sect : Nat
  target : Nat
  data : List Byte
  origin : Nat
  flips : Sparse Nat := []
  deriving DecidableEq, Repr

/-- A decode pipeline (R312): the descriptor in progress, its profile, the kept pictures with the damage reason of each, the parcel's tubelets, those written so far and the damaged ones among them; whether an overlap has cut the parcel off (R323), and whether the ring has been enabled afresh since the descriptor was taken (R339). -/
structure Pipe where
  desc : Option (List Byte) := none
  profile : List Byte := []
  pics : List Picture := []
  total : Nat := 0
  done : Nat := 0
  damaged : Nat := 0
  cut : Bool := false
  stale : Bool := false
  deriving DecidableEq, Repr

/-- State of a link (R373). -/
inductive LinkPhase where
  | idle | training | active | retraining | failed
  deriving DecidableEq, Repr

/-- Code of R373. -/
def LinkPhase.code : LinkPhase → Nat
  | .idle => 0 | .training => 1 | .active => 2 | .retraining => 3 | .failed => 4

/-- A link frame (R364): its 64-bit header and 256 data bytes, and the section it belongs to at the sender. -/
structure Frame where
  header : Nat
  data : List Byte
  deriving DecidableEq, Repr

/-- A flight (R361, R362): FSEQ, the three frames and the CREDIT byte it carries. -/
structure Flight where
  fseq : Nat
  frames : List Frame
  credit : Nat
  deriving DecidableEq, Repr

/-- One Xagon link (R359-R390). -/
structure Link where
  phase : LinkPhase := .idle
  /-- LINK_OPEN and RETRAIN as XLINK_CTL reads them. -/
  isOpen : Bool := false
  retrainBit : Bool := false
  /-- Active lanes (bit n), lanes that have failed, lanes the repair map excludes (R449), lanes requested of the retrain. -/
  lanes : Nat := 0
  badLanes : Nat := 0
  excluded : Nat := 0
  wantLanes : Nat := 0
  /-- XLINK_PEER (R375); LINK_UP has been posted since the link opened. -/
  peerChip : Nat := 0xFFFF
  peerLink : Nat := 0
  /-- Next FSEQ to send, FSEQ expected, last FSEQ the partner acknowledged is implied by the replay buffer. -/
  fseqTx : Nat := 0
  fseqRx : Nat := 0
  /-- Flights sent and not acknowledged (R368), how many of them the present resend has yet to send, resends of the oldest one, an episode of NAK is on at the sender, at the receiver. -/
  replay : List Flight := []
  resend : Nat := 0
  resends : Nat := 0
  nakSeen : Bool := false
  nakSend : Bool := false
  /-- Frames waiting to be sent per LVC, credits held per LVC, frames received and held per LVC (R379), credits to return per LVC, LVC of the last credit returned. -/
  txq : Vector (List Frame) 8 := Vector.replicate 8 []
  credits : Vector Nat 8 := #v[352, 352, 352, 352, 352, 32, 256, 0]
  rxq : Vector (List Frame) 8 := Vector.replicate 8 []
  toReturn : Vector Nat 8 := Vector.replicate 8 0
  lastReturn : Nat := 7
  /-- The last flight sent: its 25 blocks, each a type bit and 32 bytes (R361). -/
  sent : List (Bool × List Byte) := []
  /-- The partner's LINK_STATE frame of the link's opening has come (R375). -/
  greeted : Bool := false
  /-- LAST frames of LVC6 queued since the link opened (R385). -/
  lasts : Nat := 0
  /-- Messages refused by the window check whose later frames are discarded (R380), as header keys. -/
  refused : List Nat := []
  /-- Messages whose frames arrive one by one: header key and the data received so far, by offset. -/
  partials : List (Nat × List (Nat × List Byte)) := []
  deriving DecidableEq, Repr

/-- State of the letterbox (R393). -/
inductive BootPhase where
  | reset | waiting | fetching | starting | ready | failed
  deriving DecidableEq, Repr

/-- Code of R393. -/
def BootPhase.code : BootPhase → Nat
  | .reset => 0 | .waiting => 1 | .fetching => 2 | .starting => 3 | .ready => 4 | .failed => 5

/-- A copy of a counter-store item (R407). -/
structure CsCopy where
  value : Nat
  gen : Nat
  crc : Nat
  deriving DecidableEq, Repr

/-- The boot controller (R391-R416). -/
structure Boot where
  phase : BootPhase := .reset
  err : Nat := 0
  item : Nat := 0
  /-- V_HU in mV at the latest measurement, and whether one has been made. -/
  vhu : Nat := 0
  vhuMeasured : Bool := false
  /-- Addresses and lengths taken at GO (R394). -/
  bundleAddr : Nat := 0
  bundleLen : Nat := 0
  recordAddr : Nat := 0
  recordLen : Nat := 0
  /-- The start-up state of the PUF array, read before any write (R406). -/
  puf : List Byte := []
  /-- Bytes of the staging area that hold a body (R395), and the sections placed at STARTING. -/
  staged : Nat := 0
  placed : List (List Byte) := []
  /-- The manifest, the record body and the digests of the sections of the verified copy (R395, R412). -/
  manifest : List Byte := []
  record : List Byte := []
  digests : List (List Byte) := []
  /-- Checks passed and EPOCH not yet written because V_HU is low: rechecks made (R409). -/
  holdup : Option Nat := none
  /-- BOOT_EPOCH. -/
  epoch : Nat := 0
  /-- Firmware verified since the last reset (R374). -/
  verified : Bool := false
  /-- Items found with one invalid copy at boot (R416). -/
  badCopies : List Nat := []
  /-- Counters a commit has yet to write, and the mask of those raised (R410). -/
  commit : Option (List (Nat × Nat) × Nat) := none
  /-- IDENTITY_LOW and KEY_EXHAUSTED posted in this boot (R413). -/
  lowPosted : Bool := false
  exhaustedPosted : Bool := false
  /-- DBG_CTL.DBG_OPEN (R414). -/
  dbgOpen : Bool := false
  /-- VCORE rails that did not reach the boot voltage within 100 us since the last GO that failed for it (R429). -/
  avsFailed : List Nat := []
  deriving DecidableEq, Repr

/-- Clock source of an island (R424). -/
inductive ClkSource where
  | bosc | loop
  deriving DecidableEq, Repr

/-- One island loop (R423, R424). -/
structure Loop where
  ready : Bool := false
  source : ClkSource := .bosc
  coasting : Bool := false
  deriving DecidableEq, Repr

/-- A voltage that Dyndirix has commanded and reads back (R427, R429): rail, target in mV, and what waits for it: 0 the boot voltage, 1 the OP 0 voltage of TRIMS, 2 a raise of a device seal, 3 a raise of a device seal whose reading has reached the window, 4 the boot voltage, not reached within 100 us. -/
structure AvsWait where
  rail : Nat
  target : Nat
  purpose : Nat
  deriving DecidableEq, Repr

/-- A supply rail as last read (R429), the VCORE voltage commanded last, the transition rate in mV/us written last (0 none, R428), the voltage from which its ramp began and the timestamp of that (R427, R484), and whether its excursion has been posted. -/
structure Rail where
  mv : Nat := 0
  amp : Nat := 0
  c : Nat := 0
  commanded : Nat := 750
  rate : Nat := 0
  origin : Nat := 750
  since : Nat := 0
  posted : Bool := false
  deriving DecidableEq, Repr

/-- Clocks, power, temperature and pins (R417-R439, R479-R489). -/
structure Phys where
  /-- Supplies in range; VIO18 and VHU alone are in range still, the other rails having left their ranges (R431, R489); PERST# asserted. -/
  powered : Bool := false
  vioOnly : Bool := false
  perst : Bool := true
  boscReady : Bool := false
  /-- Times the PUF array has been powered (R406): the model's own, the argument of a free value. -/
  pufReads : Nat := 0
  boscTrim : Nat := 0
  refclk : Bool := false
  /-- Consecutive windows of R418 in the band. -/
  windows : Nat := 0
  /-- Timestamp at which REFCLK was lost (R425). -/
  lostAt : Option Nat := none
  /-- Loops of the 101 islands (R422, R439). -/
  loops : Vector Loop 101 := Vector.replicate 101 {}
  /-- Operating points in effect (R426): West, East. -/
  opW : Nat := 0
  opE : Nat := 0
  rails : Vector Rail 5 := Vector.replicate 5 {}
  avs : List AvsWait := []
  avsOk : Bool := false
  /-- The AVSBus controller runs; until it does AVS_CLK is low and AVS_MDATA high (R428, R429, R479). -/
  avsRun : Bool := false
  /-- Sensors 0-75 in the numbering of TELEM_TEMP_SEL. -/
  temps : Vector Nat 76 := Vector.replicate 76 0
  warned : Bool := false
  thermtrip : Bool := false
  /-- Temperature of each HBM stack, which the refresh rate follows (R304), and ECS counts by stack + 8 x channel. -/
  hbmTemp : Vector Nat 8 := Vector.replicate 8 0
  ecs : Sparse Nat := []
  /-- The SMBus port acknowledges (R482). -/
  smbus : Bool := false
  /-- Boundary-scan cells last captured or driven, and whether the pins are driven from them: 0 no, 1 EXTEST, 2 EXTEST_PULSE, 3 EXTEST_TRAIN, of the last two the pins of the PCIe and Xagon lanes alone (R414, R483). -/
  boundary : List Bool := []
  extest : Nat := 0
  /-- The level to which a scan has driven TDO last; none, high impedance (R479). -/
  tdo : Option Bool := none
  deriving DecidableEq, Repr

/-- Faults, fences, repair and capture (R440-R458). -/
structure Repair where
  /-- Fenced physical tiles, packed as in R353. -/
  fenced : List Nat := []
  /-- DEGRADED clusters. -/
  degraded : List Nat := []
  /-- Fencing candidates (R98): tile, latest FCODE, count. -/
  cands : List (Nat × Nat × Nat) := []
  failed : Bool := false
  cause : Nat := 0
  loc : Nat := 0
  /-- A post-package repair in progress (R448): address and HARD. -/
  ppr : Option (Nat × Bool) := none
  /-- Spare rows used up per bank group and kind are the stacks'; a refusal EXHAUSTED is told by the command. Capture (R456): active, steps left, bytes written. -/
  capActive : Bool := false
  capSteps : Nat := 0
  capUsed : Nat := 0
  /-- The armed window has run; cleared by a write of FAULT_CAP_CTL. -/
  capDone : Bool := false
  deriving DecidableEq, Repr

end Sys2Proof.Machine
end

