-- ==== Sys2Proof/Machine/State.lean ====
section
/-! DEFINITION. State.lean: the state of the block, its reset, and the reasons a step can stop. -/

namespace Sys2Proof.Machine

/-- Faults of the model: none. Every fault of the spec is an effect on the state (R94, R354), so no step stops with a fault. -/
inductive Fault where
  deriving DecidableEq, Repr

/-- Why the model has no meaning for a step. -/
inductive Refusal where
  /-- A command whose meaning is not written; raised by an arm of exec alone; safe. -/
  | notModelled (mnemonic : String)
  /-- An internal debug instruction while DBG_OPEN is set: R414 says that it can read and write engine state and not what it does; raised by INTERNAL_DEBUG; safe. -/
  | internalDebug
  deriving DecidableEq, Repr

/-- The state of Dyndirix. -/
structure State where
  /-- Logical tiles by LTN (R68). -/
  tiles : Sparse Tile := []
  /-- Tiles in slots that no logical number maps to, by physical tile (R443). -/
  spares : Sparse Tile := []
  /-- Sections 0-15 (R36). -/
  sects : Vector Section 16 := Vector.replicate 16 {}
  /-- HBM by device address (R10, R301), and the 64-byte units (address / 64) that on-die ECC cannot correct (R441). -/
  hbm : Memory := []
  hbmBad : List Nat := []
  /-- Setup registers (R467). -/
  regs : RegFile := {}
  /-- GLB_SEAL.PEND (R55), whether its application has begun, and whether another device seal has been requested since (R470). -/
  glbPend : Bool := false
  glbBegun : Bool := false
  glbNext : Bool := false
  /-- Rings 0-66 (R338). -/
  rings : Sparse Ring := []
  /-- What was sent to the host, oldest first (R357). -/
  posted : List HostWrite := []
  /-- What the last read or port instruction returned. -/
  reply : Reply := .none
  pcie : Pcie := {}
  /-- Messages on plane X, node buffers, slices on plane U by update die (R223). -/
  msgs : List Msg := []
  nodes : List NodeBuf := []
  slices : Vector (List SliceMsg) 4 := Vector.replicate 4 []
  /-- Decode pipelines 0-31 (R308). -/
  pipes : Vector Pipe 32 := Vector.replicate 32 {}
  /-- Xagon links 0-31 (R359). -/
  links : Vector Link 32 := Vector.replicate 32 {}
  /-- The snapshot being received (R386): source chip and bytes so far. -/
  snapRx : Option (Nat × Nat) := none
  boot : Boot := {}
  /-- Counter store (R407): copies 0 and 1 of items 0-17, copy c of item i at 2i + c. -/
  store : Vector CsCopy 36 := Vector.replicate 36 { value := 0, gen := 0, crc := 0 }
  phys : Phys := {}
  repair : Repair := {}
  /-- Timestamp of R351, REFCLK cycles. -/
  tstamp : Nat := 0
  /-- The commands that are waiting, first in, first out. -/
  pending : List Instr := []
  deriving DecidableEq, Repr

/-- The machine right after a power-up of a package as it ships (R430, R407): PERST# asserted, supplies in range, every counter-store item 0 in two valid copies (the CRC of twelve zero bytes is 0x7BD5C66F). -/
def State.reset : State :=
  { store := Vector.replicate 36 { value := 0, gen := 0, crc := 0x7BD5C66F }, phys := { powered := true } }

end Sys2Proof.Machine
end

