-- ==== Sys2Proof/Machine/Regs.lean ====
section
/-! DEFINITION. Regs.lean: the setup register map: where each register lies, the types of its fields, its reset value, and the operations on values in effect, staged and captured (R11, R467-R475). -/

namespace Sys2Proof.Machine

/-- Which selector addresses a register, if any (R468). -/
inductive SelKind where
  | none
  | slot (s : Nat)
  | group
  | smap
  deriving DecidableEq, Repr

/-- Which seal applies a register's staged fields (R468). -/
inductive Scope where
  | none
  | device
  | sect (s : Nat)
  | groupSect
  deriving DecidableEq, Repr

/-- One register: masks of its RW, ST and W1C fields, whether its fields are RC, reset value, selector and scope. -/
structure RegSpec where
  rw : Nat := 0
  st : Nat := 0
  w1c : Nat := 0
  rc : Bool := false
  reset : Nat := 0
  sel : SelKind := .none
  scope : Scope := .none
  deriving DecidableEq, Repr

/-! ### Offsets -/

def oGlbId : Nat := 0x000
def oGlbStatus : Nat := 0x004
def oGlbSeal : Nat := 0x008
def oGlbReset : Nat := 0x00C
def oBar2Win : Nat := 0x010
def oChipId : Nat := 0x014
def oTstampLo : Nat := 0x018
def oTstampHi : Nat := 0x01C
def oBootStatus : Nat := 0x10000
def oBootCmd : Nat := 0x10004
def oBundleLo : Nat := 0x10008
def oBundleHi : Nat := 0x1000C
def oBundleLen : Nat := 0x10010
def oRecordLo : Nat := 0x10014
def oRecordHi : Nat := 0x10018
def oRecordLen : Nat := 0x1001C
def oEpochLo : Nat := 0x10020
def oEpochHi : Nat := 0x10024
def oLeaf : Nat := 0x10028
def oMinverSel : Nat := 0x1002C
def oMinver : Nat := 0x10030
def oVhu : Nat := 0x10034
def oClkStatus : Nat := 0x20000
def oClkSrc : Nat := 0x20004
def oPwrOp : Nat := 0x30000
def oPwrStatus : Nat := 0x30004
def oPwrTwarn : Nat := 0x30008
def oRing (r : Nat) : Nat := 0x40000 + 0x20 * r
def oRingDone (s : Nat) : Nat := 0x41000 + 4 * s
def oSect (s : Nat) : Nat := 0x60000 + 0x100 * s
def oXlink (l : Nat) : Nat := 0x80000 + 0x400 * l
def oSnapRxBase : Nat := 0x88000
def oSnapRxLen : Nat := 0x88004
def oProfBase : Nat := 0xC0000
def oStall : Nat := 0xC0004
def oIngestSel : Nat := 0xC0008
def oIngestCnt (i : Nat) : Nat := 0xC0010 + 4 * i
def oQBase (s : Nat) : Nat := 0xC0100 + 0x10 * s
def oQSize (s : Nat) : Nat := 0xC0104 + 0x10 * s
def oQHeadLo (s : Nat) : Nat := 0xC0108 + 0x10 * s
def oGrpSel : Nat := 0xE0000
def oGrpCtl : Nat := 0xE0004
def oGrpKron : Nat := 0xE0008
def oGrpState : Nat := 0xE000C
def oGrpSteps : Nat := 0xE0010
def oGrpHp (i : Nat) : Nat := 0xE0020 + 4 * i
def oGrpCnt (i : Nat) : Nat := 0xE0040 + 4 * i
def oHbmPart (d : Nat) : Nat := 0xE0100 + 4 * d
def oHbmCfg : Nat := 0xE0110
def oScrubCfg : Nat := 0x100000
def oFaultChip : Nat := 0x100004
def oCandSel : Nat := 0x100010
def oCand : Nat := 0x100014
def oCandCnt : Nat := 0x100018
def oFence : Nat := 0x100020
def oSmapSel : Nat := 0x100024
def oFencedLo : Nat := 0x100028
def oFencedHi : Nat := 0x10002C
def oSmap (i : Nat) : Nat := 0x100040 + 4 * i
def oPprLo : Nat := 0x100060
def oPprHi : Nat := 0x100064
def oPprCmd : Nat := 0x100068
def oCapCtl : Nat := 0x100080
def oCapStart : Nat := 0x100084
def oCapSteps : Nat := 0x100088
def oCapBase : Nat := 0x10008C
def oCapLen : Nat := 0x100090
def oMemSel : Nat := 0x120000
def oMemCnt (i : Nat) : Nat := 0x120010 + 4 * i
def oNetSel : Nat := 0x120040
def oNetCnt (i : Nat) : Nat := 0x120050 + 4 * i
def oTempSel : Nat := 0x120080
def oTemp : Nat := 0x120084
def oRailSel : Nat := 0x120090
def oRail : Nat := 0x120094
def oHbmSel : Nat := 0x1200A0
def oHbm : Nat := 0x1200A4
def oDbgCtl : Nat := 0x140000

/-- Offsets inside the SECT registers of a section (R468). -/
def sMapLo : Nat := 0x00
def sMapHi : Nat := 0x04
def sState : Nat := 0x08
def sSeal : Nat := 0x0C
def sWdog : Nat := 0x10
def sEval : Nat := 0x14
def sReset : Nat := 0x18
def sReplay : Nat := 0x1C
def sOvr : Nat := 0x20
def sOvrCnt : Nat := 0x24
def sSeedLo : Nat := 0x28
def sSeedHi : Nat := 0x2C
def sProbes : Nat := 0x30
def sPostmark : Nat := 0x34
def sSlotSel : Nat := 0x40
def sSlotCfg : Nat := 0x44
def sSlotFixed : Nat := 0x48
def sSlotState : Nat := 0x4C
def sSlotScale : Nat := 0x50

/-- A register with RW fields only. -/
def rwReg (mask reset : Nat) : RegSpec := { rw := mask, reset := reset }

/-- A register with RO fields only. -/
def roReg (reset : Nat) : RegSpec := { reset := reset }

/-- A register whose field is RC. -/
def rcReg : RegSpec := { rc := true }

/-- A register with ST fields of a scope. -/
def stReg (scope : Scope) (mask reset : Nat) : RegSpec := { st := mask, reset := reset, scope := scope }

/-- The SECT registers of section s. -/
def sectSpec (s o : Nat) : Option RegSpec :=
  if o = sMapLo ∨ o = sMapHi then some (stReg .device 0xFFFFFFFF 0)
  else if o = sState then some (roReg 0)
  else if o = sSeal then some { rw := 0, w1c := 4 }
  else if o = sWdog then some (stReg (.sect s) 0xFFFF 100)
  else if o = sEval then some (stReg .device 0x1F 0)
  else if o = sReset then some { rw := 0, w1c := 2 }
  else if o = sReplay then some (stReg (.sect s) 1 0)
  else if o = sOvr then some (stReg (.sect s) 0xF 4)
  else if o = sOvrCnt then some rcReg
  else if o = sSeedLo ∨ o = sSeedHi then some (stReg (.sect s) 0xFFFFFFFF 0)
  else if o = sProbes then some rcReg
  else if o = sPostmark then some (roReg 0)
  else if o = sSlotSel then some (rwReg 0x3FF 0)
  else if o = sSlotCfg then some { st := 0x7FFF, reset := 0x408, scope := .sect s, sel := .slot s }
  else if o = sSlotFixed then some { st := 0xFFFFFFFF, reset := 0x3F800000, scope := .sect s, sel := .slot s }
  else if o = sSlotState then some (roReg 0)
  else if o = sSlotScale then some (roReg 0x3F800000)
  else none

/-- The RING registers at offset o of a ring. -/
def ringSpec (o : Nat) : Option RegSpec :=
  if o = 0 then some (rwReg 0xFFFFFFC0 0)
  else if o = 4 then some (rwReg 0x7FFFFFFF 0)
  else if o = 8 then some (rwReg 0x1FFFFFF 0)
  else if o = 0xC then some { rw := 0xFFFF03FD, w1c := 2, reset := 0x40100000 }
  else if o = 0x10 ∨ o = 0x14 then some (roReg 0)
  else if o = 0x18 then some (rwReg 0xFFFFFFC0 0)
  else if o = 0x1C then some (rwReg 0x7FFFFFFF 0)
  else none

/-- The XLINK registers at offset o of a link. -/
def xlinkSpec (o : Nat) : Option RegSpec :=
  if o = 0 then some { rw := 0x00FFFF3C, reset := 0x00100010 }
  else if o = 4 then some { w1c := 0x200 }
  else if o = 8 then some (roReg 0xFFFF)
  else if o = 0x10 ∨ o = 0x14 ∨ o = 0x18 ∨ o = 0x1C ∨ o = 0x20 then some rcReg
  else none

/-- Registers of the GLB, BOOT, CLK and PWR blocks. -/
def lowSpec (off : Nat) : Option RegSpec :=
  if off = oGlbId then some (roReg 0x00010D01)
  else if off = oGlbStatus then some (roReg 0)
  else if off = oGlbSeal then some { rw := 0, w1c := 4 }
  else if off = oGlbReset then some (roReg 0)
  else if off = oBar2Win then some (rwReg 0xF 0)
  else if off = oChipId then some (rwReg 0xFFFF 0xFFFF)
  else if off = oTstampLo ∨ off = oTstampHi then some (roReg 0)
  else if off = oBootStatus then some (roReg 0)
  else if off = oBootCmd then some (roReg 0)
  else if off = oBundleLo then some (rwReg 0xFFFFF000 0)
  else if off = oBundleHi ∨ off = oRecordHi then some (rwReg 0x7FFFFFFF 0)
  else if off = oBundleLen then some (rwReg 0x1FFF 0)
  else if off = oRecordLo then some (rwReg 0xFFFFFFC0 0)
  else if off = oRecordLen then some (rwReg 0x1FFFFF 0)
  else if off = oEpochLo ∨ off = oEpochHi ∨ off = oLeaf ∨ off = oMinver ∨ off = oVhu then some (roReg 0)
  else if off = oMinverSel then some (rwReg 0xF 0)
  else if off = oClkStatus then some { w1c := 0x18, reset := 0x20 }
  else if off = oClkSrc then some (stReg .device 1 1)
  else if off = oPwrOp then some (stReg .device 0xF 0)
  else if off = oPwrStatus then some (roReg 0)
  else if off = oPwrTwarn then some (rwReg 0x7F 95)
  else none

/-- Registers of the INGEST and UPD blocks. -/
def midSpec (off : Nat) : Option RegSpec :=
  if off = oProfBase then some (rwReg 0xFFFFFF 0)
  else if off = oStall then some (rwReg 0xFFFF 1000)
  else if off = oIngestSel then some (rwReg 0x1F 0)
  else if oIngestCnt 0 ≤ off ∧ off ≤ oIngestCnt 4 then some rcReg
  else if oQBase 0 ≤ off ∧ off < oQBase 16 then
    (if off % 16 = 0 then some (stReg .device 0xFFFFFF 0)
     else if off % 16 = 4 then some (stReg .device 0xFFFFFFFF 0)
     else some (roReg 0))
  else if off = oGrpSel then some (rwReg 0x3FFF 0)
  else if off = oGrpCtl then some { st := 0xFFF, scope := .groupSect, sel := .group }
  else if off = oGrpKron then some { st := 0xFFFFFFFF, reset := 0x54006401, scope := .groupSect, sel := .group }
  else if off = oGrpState ∨ off = oGrpSteps then some (roReg 0)
  else if oGrpHp 0 ≤ off ∧ off ≤ oGrpHp 5 then some { st := 0xFFFFFFFF, scope := .groupSect, sel := .group }
  else if off = oGrpHp 6 ∨ off = oGrpHp 7 then some { scope := .groupSect, sel := .group }
  else if oGrpCnt 0 ≤ off ∧ off ≤ oGrpCnt 3 then some rcReg
  else if oHbmPart 0 ≤ off ∧ off ≤ oHbmPart 3 then some (stReg .device 0x0FFFFFFF 0x01020428)
  else if off = oHbmCfg then some (stReg .device 3 0)
  else none

/-- Registers of the FAULT, TELEM and DBG blocks. -/
def highSpec (off : Nat) : Option RegSpec :=
  if off = oScrubCfg then some (rwReg 0x1FFFF 0x10410)
  else if off = oFaultChip ∨ off = oCand ∨ off = oCandCnt ∨ off = oFencedLo ∨ off = oFencedHi then some (roReg 0)
  else if off = oCandSel ∨ off = oSmapSel then some (rwReg 0x3F 0)
  else if off = oFence then some (roReg 0)
  else if oSmap 0 ≤ off ∧ off ≤ oSmap 7 then
    some { st := 0x3F3F3F3F, reset := 0x03020100 + (off - oSmap 0) * 0x01010101, scope := .device, sel := .smap }
  else if off = oPprLo then some (rwReg 0xFFFFFFC0 0)
  else if off = oPprHi then some (rwReg 0xFF 0)
  else if off = oPprCmd then some (rwReg 2 0)
  else if off = oCapCtl then some { rw := 0x1F, w1c := 0x40 }
  else if off = oCapStart then some (rwReg 0x7FFFFFFF 0)
  else if off = oCapSteps then some (rwReg 0xFFFF 1)
  else if off = oCapBase then some (rwReg 0xFFFFFF 0)
  else if off = oCapLen then some (rwReg 0xFFFFFFFF 0)
  else if off = oMemSel then some (rwReg 0x7FF 0)
  else if oMemCnt 0 ≤ off ∧ off ≤ oMemCnt 5 then some rcReg
  else if off = oNetSel then some (rwReg 0x3F 0)
  else if oNetCnt 0 ≤ off ∧ off ≤ oNetCnt 4 then some rcReg
  else if off = oTempSel then some (rwReg 0x7F 0)
  else if off = oRailSel then some (rwReg 7 0)
  else if off = oHbmSel then some (rwReg 0xFF 0)
  else if off = oTemp ∨ off = oRail ∨ off = oHbm then some (roReg 0)
  else if off = oDbgCtl then some (roReg 0)
  else none

/-- The register at a BAR0 offset; none where R467 assigns none. -/
def regSpec (off : Nat) : Option RegSpec :=
  if off % 4 ≠ 0 then none
  else if off < 0x40000 then lowSpec off
  else if off < oRing 67 then ringSpec (off % 0x20)
  else if off < oRingDone 0 then none
  else if off < oRingDone 16 then some (roReg 0)
  else if off < oSect 0 then none
  else if off < oSect 16 then sectSpec ((off - oSect 0) / 0x100) (off % 0x100)
  else if off < oXlink 0 then none
  else if off < oXlink 32 then xlinkSpec (off % 0x400)
  else if off = oSnapRxBase then some (rwReg 0x1FFFFFF 0)
  else if off = oSnapRxLen then some (rwReg 0xFFFFFFFF 0)
  else if off < 0xC0000 then none
  else if off < 0x100000 then midSpec off
  else highSpec off

/-! ### Values -/

/-- The key of a register and selector value. -/
def regKey (off sel : Nat) : Nat := off * 65536 + sel

/-- The reset value of a key. -/
def keyReset (k : Nat) : Word :=
  match regSpec (k / 65536) with
  | some r => BitVec.ofNat 32 r.reset
  | none => 0

/-- The value in effect of a key. -/
def RegFile.get (f : RegFile) (k : Nat) : Word := Sparse.get (keyReset k) f.eff k

/-- Sets the value in effect of a key. -/
def RegFile.put (f : RegFile) (k : Nat) (v : Word) : RegFile := { f with eff := Sparse.set (keyReset k) f.eff k v }

/-- What a read of a key's ST and RW fields returns: the value written last (R11). -/
def RegFile.seen (f : RegFile) (k : Nat) : Word :=
  match Sparse.get none f.staged k with
  | some v => v
  | none => match Sparse.get none f.next k with
    | some v => v
    | none => match Sparse.get none f.captured k with
      | some v => v
      | none => f.get k

/-- Stages a value. -/
def RegFile.stage (f : RegFile) (k : Nat) (v : Word) : RegFile := { f with staged := Sparse.set none f.staged k (some v) }

/-- Adds to a counter, saturating (R222, R246, R252, R307, R333, R390); SECT_PROBES too, of which R165 does not say whether it saturates or wraps (log 209). -/
def RegFile.count (f : RegFile) (k n : Nat) : RegFile :=
  { f with counters := Sparse.modify 0 f.counters k (fun v => BitVec.ofNat 32 (satAdd32 v.toNat n)) }

/-- The value in effect at an offset without selector, as a number. -/
def State.reg (s : State) (off : Nat) : Nat := (s.regs.get (regKey off 0)).toNat

/-- Sets the value in effect at an offset without selector. -/
def State.setReg (s : State) (off : Nat) (v : Nat) : State := { s with regs := s.regs.put (regKey off 0) (BitVec.ofNat 32 v) }

/-- Adds to a counter. -/
def State.count (s : State) (off sel n : Nat) : State := { s with regs := s.regs.count (regKey off sel) n }

/-- Scope of a key: of a UPD group register the section that the selector names (R468). -/
def keyScope (k : Nat) : Scope :=
  match regSpec (k / 65536) with
  | some r => (match r.scope with
    | .groupSect => .sect (k % 16)
    | x => x)
  | none => .none

end Sys2Proof.Machine
end

