-- ==== Sys2Proof/Machine/SeqInsn.lean ====
section
/-! DEFINITION. SeqInsn.lean: the instructions of the tile sequencer and their 32-bit encoding (R74-R76). -/

namespace Sys2Proof.Machine

/-- Operation of the ALU format, by func (R76). -/
inductive AluOp where
  | add | sub | and | or | xor | sll | srl | sra | slt | sltu | mul | mulhs | mulhu | min | max | minu | maxu
  deriving DecidableEq, Repr

/-- Operation of an immediate form (R76). -/
inductive ImmOp where
  | addi | andi | ori | xori | slti | sltiu
  deriving DecidableEq, Repr

/-- Width and extension of a load (R76). -/
inductive LoadOp where
  | lw | lh | lhu | lb | lbu
  deriving DecidableEq, Repr

/-- Width of a store (R76). -/
inductive StoreOp where
  | sw | sh | sb
  deriving DecidableEq, Repr

/-- Shift of an SHI (R76). -/
inductive ShiftOp where
  | sll | srl | sra
  deriving DecidableEq, Repr

/-- Condition of a branch (R76). -/
inductive BrOp where
  | beq | bne | blt | bge | bltu | bgeu
  deriving DecidableEq, Repr

/-- An instruction of the tile sequencer (R76). -/
inductive SeqInsn where
  | alu (op : AluOp) (gd ga gb : GReg)
  | imm (op : ImmOp) (gd ga : GReg) (imm : BitVec 16)
  | shift (op : ShiftOp) (gd ga : GReg) (sh : BitVec 5)
  | load (op : LoadOp) (gd ga : GReg) (imm : BitVec 16)
  | store (op : StoreOp) (gs ga : GReg) (imm : BitVec 16)
  | jalr (gd ga : GReg) (imm : BitVec 16)
  | br (op : BrOp) (ga gb : GReg) (off : BitVec 16)
  | lui (gd : GReg) (imm : BitVec 21)
  | jal (gd : GReg) (imm : BitVec 21)
  | cmd (q : BitVec 4) (ga gb : GReg) (tag : BitVec 12)
  | waits (q : BitVec 4) (ga : GReg)
  | qwait (q : BitVec 4)
  | sync (ga : GReg)
  | trap (code : BitVec 21)
  deriving DecidableEq, Repr

/-- func of an ALU operation (R76). -/
def AluOp.func : AluOp → BitVec 11
  | .add => 0x000 | .sub => 0x001 | .and => 0x002 | .or => 0x003 | .xor => 0x004 | .sll => 0x005 | .srl => 0x006
  | .sra => 0x007 | .slt => 0x008 | .sltu => 0x009 | .mul => 0x00A | .mulhs => 0x00B | .mulhu => 0x00C
  | .min => 0x00D | .max => 0x00E | .minu => 0x00F | .maxu => 0x010

/-- The ALU operation with a func, none where R76 lists none. -/
def AluOp.ofFunc (f : BitVec 11) : Option AluOp :=
  match f.toNat with
  | 0x000 => some .add | 0x001 => some .sub | 0x002 => some .and | 0x003 => some .or | 0x004 => some .xor
  | 0x005 => some .sll | 0x006 => some .srl | 0x007 => some .sra | 0x008 => some .slt | 0x009 => some .sltu
  | 0x00A => some .mul | 0x00B => some .mulhs | 0x00C => some .mulhu | 0x00D => some .min | 0x00E => some .max
  | 0x00F => some .minu | 0x010 => some .maxu
  | _ => none

/-- Opcodes of the immediate forms, loads, stores and branches (R76). -/
def ImmOp.code : ImmOp → BitVec 6
  | .addi => 0x01 | .andi => 0x02 | .ori => 0x03 | .xori => 0x04 | .slti => 0x05 | .sltiu => 0x06
def LoadOp.code : LoadOp → BitVec 6
  | .lw => 0x08 | .lh => 0x09 | .lhu => 0x0A | .lb => 0x0B | .lbu => 0x0C
def StoreOp.code : StoreOp → BitVec 6
  | .sw => 0x0D | .sh => 0x0E | .sb => 0x0F
def BrOp.code : BrOp → BitVec 6
  | .beq => 0x11 | .bne => 0x12 | .blt => 0x13 | .bge => 0x14 | .bltu => 0x15 | .bgeu => 0x16
def ShiftOp.code : ShiftOp → BitVec 2
  | .sll => 0 | .srl => 1 | .sra => 2

/-- Decodes a word; none is ILLEGAL_INSN (R74-R76). -/
def seqDecode (w : Word) : Option SeqInsn :=
  let x := w.extractLsb' 21 5
  let y := w.extractLsb' 16 5
  let z := w.extractLsb' 11 5
  let func := w.extractLsb' 0 11
  let i16 := w.extractLsb' 0 16
  let i21 := w.extractLsb' 0 21
  let q := w.extractLsb' 22 4
  let qa := w.extractLsb' 17 5
  let qb := w.extractLsb' 12 5
  let i12 := w.extractLsb' 0 12
  match (w.extractLsb' 26 6).toNat with
  | 0x00 => (AluOp.ofFunc func).map (fun op => .alu op x y z)
  | 0x01 => some (.imm .addi x y i16)
  | 0x02 => some (.imm .andi x y i16)
  | 0x03 => some (.imm .ori x y i16)
  | 0x04 => some (.imm .xori x y i16)
  | 0x05 => some (.imm .slti x y i16)
  | 0x06 => some (.imm .sltiu x y i16)
  | 0x07 =>
    if w.extractLsb' 5 9 = 0 then
      match (w.extractLsb' 14 2).toNat with
      | 0 => some (.shift .sll x y (w.extractLsb' 0 5))
      | 1 => some (.shift .srl x y (w.extractLsb' 0 5))
      | 2 => some (.shift .sra x y (w.extractLsb' 0 5))
      | _ => none
    else none
  | 0x08 => some (.load .lw x y i16)
  | 0x09 => some (.load .lh x y i16)
  | 0x0A => some (.load .lhu x y i16)
  | 0x0B => some (.load .lb x y i16)
  | 0x0C => some (.load .lbu x y i16)
  | 0x0D => some (.store .sw x y i16)
  | 0x0E => some (.store .sh x y i16)
  | 0x0F => some (.store .sb x y i16)
  | 0x10 => some (.jalr x y i16)
  | 0x11 => some (.br .beq x y i16)
  | 0x12 => some (.br .bne x y i16)
  | 0x13 => some (.br .blt x y i16)
  | 0x14 => some (.br .bge x y i16)
  | 0x15 => some (.br .bltu x y i16)
  | 0x16 => some (.br .bgeu x y i16)
  | 0x18 => some (.lui x i21)
  | 0x19 => some (.jal x i21)
  | 0x20 => some (.cmd q qa qb i12)
  | 0x21 => if qb = 0 ∧ i12 = 0 then some (.waits q qa) else none
  | 0x22 => if qa = 0 ∧ qb = 0 ∧ i12 = 0 then some (.qwait q) else none
  | 0x28 => if x = 0 ∧ i16 = 0 then some (.sync y) else none
  | 0x30 => if x = 0 then some (.trap i21) else none
  | _ => none

/-- The word of an instruction (R74, R76). -/
def seqEncode : SeqInsn → Word
  | .alu op gd ga gb => (0 : BitVec 6) ++ gd ++ ga ++ gb ++ op.func
  | .imm op gd ga i => op.code ++ gd ++ ga ++ i
  | .shift op gd ga sh => (0x07 : BitVec 6) ++ gd ++ ga ++ op.code ++ (0 : BitVec 9) ++ sh
  | .load op gd ga i => op.code ++ gd ++ ga ++ i
  | .store op gs ga i => op.code ++ gs ++ ga ++ i
  | .jalr gd ga i => (0x10 : BitVec 6) ++ gd ++ ga ++ i
  | .br op ga gb o => op.code ++ ga ++ gb ++ o
  | .lui gd i => (0x18 : BitVec 6) ++ gd ++ i
  | .jal gd i => (0x19 : BitVec 6) ++ gd ++ i
  | .cmd q ga gb tag => (0x20 : BitVec 6) ++ q ++ ga ++ gb ++ tag
  | .waits q ga => (0x21 : BitVec 6) ++ q ++ ga ++ (0 : BitVec 5) ++ (0 : BitVec 12)
  | .qwait q => (0x22 : BitVec 6) ++ q ++ (0 : BitVec 5) ++ (0 : BitVec 5) ++ (0 : BitVec 12)
  | .sync ga => (0x28 : BitVec 6) ++ (0 : BitVec 5) ++ ga ++ (0 : BitVec 16)
  | .trap code => (0x30 : BitVec 6) ++ (0 : BitVec 5) ++ code

end Sys2Proof.Machine
end

