-- ==== Sys2Proof/Machine/Sequencer.lean ====
section
/-! DEFINITION. Sequencer.lean: what each sequencer instruction does to its tile (R69-R92). -/

namespace Sys2Proof.Machine

/-- What a sequencer instruction comes to: the tile after it, a stall, or faults of one cycle with the tag of R95 and the scratchpad words that its reads have corrected (R201). -/
inductive SeqRes where
  | ok (t : Tile)
  | stall
  | fault (fs : List (Nat × Nat)) (tag : Nat) (corrected : Nat := 0)
  deriving DecidableEq, Repr

/-- A register; g0 reads as 0 (R69). -/
def Seq.reg (s : Seq) (r : GReg) : Word := if r = 0 then 0 else s.regs.get r.toFin

/-- Writes a register, with correct parity; a write to g0 is discarded (R69). -/
def Seq.setReg (s : Seq) (r : GReg) (v : Word) : Seq :=
  if r = 0 then s else { s with regs := s.regs.set r.toNat v r.isLt, badRegs := s.badRegs.filter (fun n => n != r.toNat) }

/-- The registers that an instruction reads (R74, R76). -/
def SeqInsn.reads : SeqInsn → List GReg
  | .alu _ _ ga gb => [ga, gb]
  | .imm _ _ ga _ => [ga]
  | .shift _ _ ga _ => [ga]
  | .load _ _ ga _ => [ga]
  | .store _ gs ga _ => [gs, ga]
  | .jalr _ ga _ => [ga]
  | .br _ ga gb _ => [ga, gb]
  | .lui _ _ => []
  | .jal _ _ => []
  | .cmd _ ga gb _ => [ga, gb]
  | .waits _ ga => [ga]
  | .qwait _ => []
  | .sync ga => [ga]
  | .trap _ => []

/-- The parity errors that an instruction meets in the registers it reads, one per register (R94, R95). -/
def Seq.parityFaults (s : Seq) (i : SeqInsn) : List (Nat × Nat) :=
  (i.reads.eraseDups.filter (fun r => r != 0 && s.badRegs.contains r.toNat)).map fun r => (fSeqParity, r.toNat)

/-- Moves to the next instruction. -/
def Seq.next (s : Seq) : Seq := { s with pc := s.pc + 4 }

/-- The low five bits of a register, a shift amount (R76). -/
def shAmt (b : Word) : Nat := b.toNat % 32

/-- gd of the ALU format (R76). -/
def aluResult (op : AluOp) (a b : Word) : Word :=
  match op with
  | .add => a + b
  | .sub => a - b
  | .and => a &&& b
  | .or => a ||| b
  | .xor => a ^^^ b
  | .sll => a <<< shAmt b
  | .srl => a >>> shAmt b
  | .sra => a.sshiftRight (shAmt b)
  | .slt => if a.slt b then 1 else 0
  | .sltu => if a.ult b then 1 else 0
  | .mul => a * b
  | .mulhs => (a.signExtend 64 * b.signExtend 64).extractLsb' 32 32
  | .mulhu => (a.zeroExtend 64 * b.zeroExtend 64).extractLsb' 32 32
  | .min => if b.slt a then b else a
  | .max => if a.slt b then b else a
  | .minu => if b.ult a then b else a
  | .maxu => if a.ult b then b else a

/-- gd of the immediate forms (R76): ADDI and SLTI sign-extend, the others zero-extend. -/
def immResult (op : ImmOp) (a : Word) (i : BitVec 16) : Word :=
  match op with
  | .addi => a + i.signExtend 32
  | .andi => a &&& i.zeroExtend 32
  | .ori => a ||| i.zeroExtend 32
  | .xori => a ^^^ i.zeroExtend 32
  | .slti => if a.slt (i.signExtend 32) then 1 else 0
  | .sltiu => if a.ult (i.zeroExtend 32) then 1 else 0

/-- gd of SHI (R76). -/
def shiftResult (op : ShiftOp) (a : Word) (sh : BitVec 5) : Word :=
  match op with
  | .sll => a <<< sh.toNat
  | .srl => a >>> sh.toNat
  | .sra => a.sshiftRight sh.toNat

/-- Condition of a branch (R76). -/
def brTaken (op : BrOp) (a b : Word) : Bool :=
  match op with
  | .beq => a == b
  | .bne => a != b
  | .blt => a.slt b
  | .bge => !a.slt b
  | .bltu => a.ult b
  | .bgeu => !a.ult b

/-- CODE_BASE and CODE_LIMIT of the information block (R79). -/
def Tile.codeBase (t : Tile) : Nat := t.info.readLe 0x20 4
def Tile.codeLimit (t : Tile) : Nat := t.info.readLe 0x24 4

/-- Whether an address lies in the code region (R72). -/
def Tile.inCode (t : Tile) (a : Nat) : Bool := decide (t.codeBase ≤ a) && decide (a < t.codeLimit)

/-- The ranges of the tile-local address space (R78). -/
inductive Region where
  | sp | square (q : Nat) | scale | info | window | none
  deriving DecidableEq, Repr

/-- The range that holds an address (R78). -/
def regionOf (a : Nat) : Region :=
  if a < 0x100000 then .sp
  else if 0x200000 ≤ a ∧ a < 0x202400 then .square 0
  else if 0x204000 ≤ a ∧ a < 0x206400 then .square 1
  else if 0x208000 ≤ a ∧ a < 0x20A400 then .square 2
  else if 0x20C000 ≤ a ∧ a < 0x20E400 then .square 3
  else if 0x300000 ≤ a ∧ a < 0x304000 then .scale
  else if 0x400000 ≤ a ∧ a < 0x400140 then .info
  else if 0x500000 ≤ a ∧ a < 0x500080 then .window
  else .none

/-- Width of a load or store in bytes (R76). -/
def LoadOp.size : LoadOp → Nat
  | .lw => 4 | .lh => 2 | .lhu => 2 | .lb => 1 | .lbu => 1
def StoreOp.size : StoreOp → Nat
  | .sw => 4 | .sh => 2 | .sb => 1

/-- The register value of a loaded number (R76). -/
def LoadOp.extend (op : LoadOp) (v : Nat) : Word :=
  match op with
  | .lw => BitVec.ofNat 32 v
  | .lh => (BitVec.ofNat 16 v).signExtend 32
  | .lhu => (BitVec.ofNat 16 v).zeroExtend 32
  | .lb => (BitVec.ofNat 8 v).signExtend 32
  | .lbu => (BitVec.ofNat 8 v).zeroExtend 32

/-- The queues of a tile as a list. -/
def Tile.queueList (t : Tile) : List (List QEntry) := t.queues.toList

/-- Queue q. -/
def Tile.queue (t : Tile) (q : Nat) : List QEntry := t.queueList.getD q []

/-- Replaces queue q. -/
def Tile.setQueue (t : Tile) (q : Nat) (es : List QEntry) : Tile := { t with queues := t.queues.setIfInBounds q es }

/-- Whether no queue holds an incomplete command. -/
def Tile.idle (t : Tile) : Bool := t.queueList.all List.isEmpty

/-- Whether the write footprint of an incomplete command meets a scratchpad range (R82). -/
def Tile.writeBusy (t : Tile) (a n : Nat) : Bool :=
  t.queueList.any fun es => es.any fun e => (fpWr e.desc).meets { off := a, len := n, ts := false }

/-- Whether a footprint of an incomplete command meets a scratchpad range (R82). -/
def Tile.anyBusy (t : Tile) (a n : Nat) : Bool :=
  t.queueList.zipIdx.any fun q => q.1.any fun e =>
    (fpWr e.desc :: readFps q.2 e.desc).any fun f => f.meets { off := a, len := n, ts := false }

/-- Faults of an access: alignment and address range (R77, R78). -/
def accessFaults (a size : Nat) (ok : Bool) : List (Nat × Nat) :=
  (if a % size = 0 then [] else [(fMisaligned, a)]) ++ (if ok then [] else [(fAddrRange, a)])

/-- A load (R76-R82). The spec does not say whether the sends that SYNC hands to DX count in ISSUED of queue 3; the model counts what CMD issues alone, so it reads 0 there (log 149). -/
def seqLoad (t : Tile) (op : LoadOp) (gd ga : GReg) (imm : BitVec 16) : SeqRes :=
  let a := (t.seq.reg ga + imm.signExtend 32).toNat
  let r := regionOf a
  let ok := match r with
    | .sp => true
    | .none => false
    | _ => op.size == 4
  match accessFaults a op.size ok with
  | f :: fs => .fault (f :: fs) 0
  | [] =>
    match r with
    | .sp =>
      if t.writeBusy a op.size then .stall
      else
        let c := t.sp.check a op.size
        match c.2 with
        | some o => .fault [(fSpUncorr, o)] 0 c.1
        | none =>
          let t := t.count 3 c.1
          .ok { t with seq := (t.seq.setReg gd (op.extend (leNat (t.sp.read a op.size)))).next }
    | .square q =>
      if t.queue 0 ≠ [] then .stall
      else .ok { t with seq := (t.seq.setReg gd (Sparse.get 0 t.me.squares (2304 * q + a % 0x4000 / 4))).next }
    | .scale =>
      if t.queue 1 ≠ [] then .stall
      else .ok { t with seq := (t.seq.setReg gd (Sparse.get 0 t.scale (a % 0x4000 / 4))).next }
    | .info => .ok { t with seq := (t.seq.setReg gd (BitVec.ofNat 32 (t.info.readLe (a - 0x400000) 4))).next }
    | .window =>
      let v : Word := if a % 16 = 0 then t.seq.issued.toList.getD ((a - 0x500000) / 16) 0 else if a % 16 = 4 then 16 else 0
      .ok { t with seq := (t.seq.setReg gd v).next }
    | .none => .stall

/-- A store (R76-R82, R202). -/
def seqStore (t : Tile) (op : StoreOp) (gs ga : GReg) (imm : BitVec 16) : SeqRes :=
  let a := (t.seq.reg ga + imm.signExtend 32).toNat
  let r := regionOf a
  let ok := match r with
    | .sp => !t.inCode a
    | .scale => op.size == 4
    | _ => false
  match accessFaults a op.size ok with
  | f :: fs => .fault (f :: fs) 0
  | [] =>
    match r with
    | .sp =>
      if t.anyBusy a op.size then .stall
      else
        let c := t.sp.checkPartial a op.size
        match c.2 with
        | some o => .fault [(fSpUncorr, o)] 0 c.1
        | none =>
          let t := t.count 3 c.1
          .ok { t with sp := t.sp.write a (leBytes op.size (t.seq.reg gs).toNat), seq := t.seq.next }
    | .scale =>
      if t.queue 1 ≠ [] then .stall
      else .ok { t with scale := Sparse.set 0 t.scale (a % 0x4000 / 4) (t.seq.reg gs), seq := t.seq.next }
    | _ => .stall

/-- Operations that a queue accepts (R104, R115, R167, R204, R217, R219, R289). -/
def queueOps (q : Nat) : List Nat :=
  match q with
  | 0 => [1]
  | 1 => [1, 2]
  | 2 => [1, 2, 3, 4]
  | 4 => [1, 2]
  | 5 => [1, 2]
  | 6 => [1, 2, 3, 4, 5]
  | 7 => [1, 2]
  | _ => []

/-- Whether a footprint is aligned to 64 bytes and within its space; an empty one always is (R84, R85). -/
def Footprint.legal (f : Footprint) : Bool :=
  f.len == 0 || (f.off % 64 == 0 && f.len % 64 == 0 && decide (f.off + f.len ≤ (if f.ts then tsSize else spSize)))

/-- The checks of R85 on a descriptor for queue q that has been read. A 64-byte descriptor of ME carries no RD2 (bytes 32 to 39), so R85 does not check one there; R82 and R89 all the same see what readFps reads (log 150). -/
def descRefused (t : Tile) (q : Nat) (d : List Byte) : Bool :=
  let fps := fpWr d :: (if q = 0 ∧ !cmdLong d then [fpRd0 d, fpRd1 d] else readFps q d)
  bitsOf (fieldAt d 2 1) 6 4 != 0 || bitsOf (fieldAt d 3 1) 6 4 != 0 || bitsOf (fieldAt d 4 2) 15 1 != 0 || fieldAt d 6 2 != 0
  || footprintReserved d 8 || footprintReserved d 16 || footprintReserved d 24
  || !(queueOps q).contains (cmdOp d)
  || fps.any (fun f => !f.legal)
  || ((q == 0 || q == 1 || q == 2 || q == 7) && fps.any (fun f => f.ts && f.len != 0))
  || (!(fpWr d).ts && overlaps (fpWr d).off (fpWr d).len t.codeBase (t.codeLimit - t.codeBase))

/-- Whether a descriptor of n bytes may lie at a (R85). -/
def descPlaceOk (a n : Nat) : Bool := a % n == 0 && decide (a + n ≤ spSize)

/-- CMD (R76, R77, R81, R85). -/
def seqCmd (t : Tile) (word : Word) (q : BitVec 4) (ga gb : GReg) (tag : BitVec 12) : SeqRes :=
  let qn := q.toNat
  if qn = 3 ∨ 8 ≤ qn then .fault [(fIllegal, word.toNat)] tag.toNat
  else if 16 ≤ (t.queue qn).length then .stall
  else
    let a := (t.seq.reg ga).toNat
    if !descPlaceOk a 64 then .fault [(fCmdRefused, a)] tag.toNat
    else
      let n := if cmdLong (t.sp.read a 64) then 128 else 64
      if t.writeBusy a n then .stall
      else
        let c := t.sp.check a n
        match c.2 with
        | some o => .fault [(fSpUncorr, o)] tag.toNat c.1
        | none =>
          let d := t.sp.read a n
          if !descPlaceOk a n || descRefused t qn d then .fault [(fCmdRefused, a)] tag.toNat c.1
          else
            let t := t.count 3 c.1
            let e : QEntry := { desc := d, cmdPc := t.seq.pc.toNat, thr := (t.seq.reg gb).toNat % 65536, tag := tag.toNat, order := t.seq.order }
            let s := { t.seq with issued := t.seq.issued.setIfInBounds qn (t.seq.issued.toList.getD qn 0 + 1), order := t.seq.order + 1 }
            .ok { t.setQueue qn (t.queue qn ++ [e]) with seq := s.next }

/-- A semaphore. -/
def Seq.sem (s : Seq) (i : Nat) : BitVec 16 := s.sems.toList.getD i 0

/-- The index of a closing SYNC (R91). -/
def closingIndex : Nat := 0xFFFFFFFF

/-- SYNC and closing SYNC (R90-R92): ssRecords is SS_RECORDS of the timetable that runs, 0 for SWITCH_IN. -/
def seqSync (t : Tile) (ssRecords k : Nat) : SeqRes :=
  let bad :=
    if k = closingIndex then decide (t.seq.syncs ≠ t.info.readLe 0x14 4)
    else decide (ssRecords ≤ k) || t.seq.lastEnd
  if bad then .fault [(fSyncOrder, k)] 0
  else .ok { t with seq := { t.seq with status := if t.idle then .arrived k else .syncing k } }

/-- A jump to a target, with the link written first where there is one (R76, R77). -/
def seqJump (t : Tile) (gd : GReg) (target : Word) : SeqRes :=
  if target.toNat % 4 ≠ 0 then .fault [(fMisaligned, target.toNat)] 0
  else .ok { t with seq := { t.seq.setReg gd (t.seq.pc + 4) with pc := target } }

/-- The effect of an instruction on its tile; ssRecords as for SYNC, word the instruction word. -/
def seqEffect (t : Tile) (ssRecords : Nat) (word : Word) : SeqInsn → SeqRes
  | .alu op gd ga gb => .ok { t with seq := (t.seq.setReg gd (aluResult op (t.seq.reg ga) (t.seq.reg gb))).next }
  | .imm op gd ga i => .ok { t with seq := (t.seq.setReg gd (immResult op (t.seq.reg ga) i)).next }
  | .shift op gd ga sh => .ok { t with seq := (t.seq.setReg gd (shiftResult op (t.seq.reg ga) sh)).next }
  | .load op gd ga i => seqLoad t op gd ga i
  | .store op gs ga i => seqStore t op gs ga i
  | .jalr gd ga i => seqJump t gd (t.seq.reg ga + i.signExtend 32)
  | .br op ga gb o =>
    if brTaken op (t.seq.reg ga) (t.seq.reg gb) then .ok { t with seq := { t.seq with pc := t.seq.pc + (o.signExtend 32 <<< 2) } }
    else .ok { t with seq := t.seq.next }
  | .lui gd i => .ok { t with seq := (t.seq.setReg gd (i.zeroExtend 32 <<< 11)).next }
  | .jal gd i => seqJump t gd (t.seq.pc + (i.signExtend 32 <<< 2))
  | .cmd q ga gb tag => seqCmd t word q ga gb tag
  | .waits q ga =>
    if semSatisfies (t.seq.sem q.toNat) ((t.seq.reg ga).extractLsb' 0 16) then .ok { t with seq := t.seq.next } else .stall
  | .qwait q =>
    if (if q = 15 then t.idle else (t.queue q.toNat).isEmpty) then .ok { t with seq := t.seq.next } else .stall
  | .sync ga => seqSync t ssRecords (t.seq.reg ga).toNat
  | .trap code => .fault [(fTrap, code.toNat)] 0

/-- The line that holds the pc. -/
def Tile.fetchLine (t : Tile) : Nat := t.seq.pc.toNat / 64 * 64

/-- The tile once the line of the pc is in the fetch buffer: a line it lacks is read from the scratchpad, with the words corrected counted, and takes the place of the oldest of four (R70, R201; log 152 for the place). -/
def Tile.fetched (t : Tile) : Tile :=
  let l := t.fetchLine
  if !t.inCode t.seq.pc.toNat || t.seq.lines.contains l then t
  else
    let c := t.sp.check l 64
    let t := t.count 3 c.1
    if c.2.isSome then t
    else { t with seq := { t.seq with lines := (l :: t.seq.lines).take 4, badLines := t.seq.badLines.filter (fun b => b != l) } }

/-- What fetching at the pc finds (R72, R75, R94, R201). -/
inductive Fetch where
  | insn (w : Word) (i : SeqInsn)
  | fault (code addr : Nat)
  deriving DecidableEq, Repr

/-- Fetches and decodes the instruction at the pc. -/
def Tile.fetch (t : Tile) : Fetch :=
  let a := t.seq.pc.toNat
  if !t.inCode a then .fault fAddrRange a
  else if t.seq.lines.contains t.fetchLine && t.seq.badLines.contains t.fetchLine then .fault fSeqParity (0x80000000 + t.fetchLine)
  else match (if t.seq.lines.contains t.fetchLine then none else (t.sp.check t.fetchLine 64).2) with
    | some o => .fault fSpUncorr o
    | none =>
      let w : Word := BitVec.ofNat 32 (leNat (t.sp.read a 4))
      match seqDecode w with
      | some i => .insn w i
      | none => .fault fIllegal w.toNat

/-- The fault record of faults of one cycle: the hardware fault with the lowest code, or else the program fault with the lowest code (R95). Where two have the same code the model records the lower FADDR, which for ENGINE is the lowest sub-code of R95; for other codes (R89 and R114 at one start, two registers with wrong parity) the spec gives no order (log 153). -/
def pickFault (fpc tag : Nat) (fs : List (Nat × Nat)) : Option TileFault :=
  let hw := fs.filter (fun f => decide (0x10 ≤ f.1))
  let cand := if hw.isEmpty then fs else hw
  match cand with
  | [] => none
  | f :: rest =>
    let g := rest.foldl (fun (m x : Nat × Nat) => if x.1 < m.1 ∨ (x.1 = m.1 ∧ x.2 < m.2) then x else m) f
    some { fpc := fpc, fcode := g.1, faddr := g.2, ftag := tag, fmulti := decide (1 < fs.length) }

/-- What is left of a queue at a fault: queued commands are discarded, the command in execution is to stop after the access it has begun (R96). A command whose own access raised the fault has done all it does and is gone before. -/
def stopQueue : List QEntry → List QEntry
  | [] => []
  | e :: _ => if e.status = .started ∨ e.status = .stopping then [{ e with status := .stopping }] else []

/-- A TPWR that stops makes no further transition (R96). -/
def TileStore.stopTurns (m : TileStore) : TileStore := { m with banks := m.banks.map fun b => { b with target := none } }

/-- The sequencer of a tile that stops (R96): it keeps the barrier at which it stood. -/
def Seq.halt (q : Seq) : Seq :=
  { q with
    status := .stopped
    stood := match q.status with
      | .arrived k => some k
      | _ => q.stood }

/-- The actions of R96 in the faulting tile and in every tile the section stops (R97): nothing is fetched, queued commands and sends not injected are discarded, commands in execution stop. -/
def Tile.halt (t : Tile) : Tile :=
  { t with seq := t.seq.halt, queues := t.queues.map stopQueue, ts := t.ts.stopTurns, ex := { t.ex with sends := [] } }

/-- Records the faults of one cycle and stops the tile; a tile that already has a fault keeps it (R95, R96). -/
def Tile.raise (t : Tile) (fpc tag : Nat) (fs : List (Nat × Nat)) : Tile :=
  match t.fault with
  | some _ => t.halt
  | none => match pickFault fpc tag fs with
    | some f => { t.halt with fault := some f, faultSeen := false }
    | none => t

/-- FTAG of a fault of an instruction: imm12 of a CMD, 0 of any other (R95). -/
def SeqInsn.cmdTag : SeqInsn → Nat
  | .cmd _ _ _ tag => tag.toNat
  | .alu _ _ _ _ => 0
  | .imm _ _ _ _ => 0
  | .shift _ _ _ _ => 0
  | .load _ _ _ _ => 0
  | .store _ _ _ _ => 0
  | .jalr _ _ _ => 0
  | .br _ _ _ _ => 0
  | .lui _ _ => 0
  | .jal _ _ => 0
  | .waits _ _ => 0
  | .qwait _ => 0
  | .sync _ => 0
  | .trap _ => 0

/-- One step of a tile's sequencer: the instruction at the pc, which must be one that want accepts, takes effect, stalls or faults. -/
def seqTile (want : SeqInsn → Bool) (ssRecords : Nat) (t : Tile) : Tile :=
  if t.seq.status ≠ .running ∨ t.fault.isSome then t
  else match t.fetch with
    | .fault c a => t.fetched.raise t.seq.pc.toNat 0 [(c, a)]
    | .insn w i =>
      if want i then
        let t := t.fetched
        match t.seq.parityFaults i with
        | f :: fs => t.raise t.seq.pc.toNat i.cmdTag (f :: fs)
        | [] =>
          match seqEffect t ssRecords w i with
          | .ok t' => t'
          | .stall => t
          | .fault fs tag corrected => (t.count 3 corrected).raise t.seq.pc.toNat tag fs
      else t

end Sys2Proof.Machine
end

