-- ==== Sys2Proof/Machine/Ops.lean ====
section
/-! DEFINITION. Ops.lean: the named operations that the meanings share: tiles and sections, rings and records, events, dead letters, completions, postbook records, HBM, stopping a section (R10, R95-R98, R302, R338-R357, R452). -/

namespace Sys2Proof.Machine

/-! ### Tiles and sections -/

/-- Logical tile n. -/
def State.tile (s : State) (t : Ltn) : Tile := Sparse.get {} s.tiles t.toNat

/-- Replaces logical tile n. -/
def State.setTile (s : State) (t : Ltn) (x : Tile) : State := { s with tiles := Sparse.set {} s.tiles t.toNat x }

/-- Logical tile by number. -/
def State.tileN (s : State) (n : Nat) : Tile := Sparse.get {} s.tiles n

/-- Replaces a logical tile by number. -/
def State.setTileN (s : State) (n : Nat) (x : Tile) : State := { s with tiles := Sparse.set {} s.tiles n x }

/-- Section k. -/
def State.sectN (s : State) (k : Nat) : Section := s.sects.toList.getD k {}

/-- Replaces section k. -/
def State.setSectN (s : State) (k : Nat) (x : Section) : State := { s with sects := s.sects.setIfInBounds k x }

/-- The section mask in effect of section k (R36). -/
def State.sectMask (s : State) (k : Nat) : Nat := s.reg (oSect k + sMapLo) + 2 ^ 32 * s.reg (oSect k + sMapHi)

/-- Whether a cluster belongs to section k. -/
def State.inSect (s : State) (k cluster : Nat) : Bool := bitOf (s.sectMask k) cluster

/-- The section of a cluster (R36). -/
def State.sectOf (s : State) (cluster : Nat) : Option Nat := (List.range 16).find? (fun k => s.inSect k cluster)

/-- The cluster of a logical tile: half x 32 + cluster (R10). -/
def clusterOf (ltn : Nat) : Nat := ltn / 32

/-- The clusters of section k, ascending. -/
def State.clusters (s : State) (k : Nat) : List Nat := (List.range 64).filter (s.inSect k)

/-- The tiles of section k, ascending. -/
def State.ltns (s : State) (k : Nat) : List Nat := ((s.clusters k).map (fun c => (List.range 32).map (· + 32 * c))).flatten

/-- Applies f to every tile of section k that differs from a tile at rest or is listed. -/
def State.mapTiles (s : State) (k : Nat) (f : Nat → Tile → Tile) : State :=
  (s.ltns k).foldl (fun s n => s.setTileN n (f n (s.tileN n))) s

/-- The program in execution of a section. -/
def Section.program (x : Section) : Option ProgImage := if x.progValid then Sparse.get none x.programs x.prog else none

/-- The timetable that the step in progress runs. -/
def Section.timetable (x : Section) : Option Timetable :=
  match x.run, x.program with
  | some r, some p => p.timetable r.tt
  | _, _ => none

/-- Whether the section runs SWITCH_IN, held or not (R40, R43). -/
def Section.inSwitch (x : Section) : Bool := x.phase == .switching || (x.phase == .held && x.before == .switching)

/-- SS_RECORDS of the timetable that runs. The SWITCH_IN code uses no superstep record (R79): there the model takes it as 0, so that R92 refuses every SYNC but the closing one, whether a STEP caused the switch or not (log 28). -/
def Section.ssRecords (x : Section) : Nat :=
  if x.inSwitch then 0
  else match x.timetable with
    | some t => t.ssRecords
    | none => 0

/-- The physical slot of a logical tile (R443). -/
def State.slotOf (s : State) (ltn : Nat) : Nat :=
  let c := clusterOf ltn
  let w := (s.regs.get (regKey (oSmap (ltn % 32 / 4)) c)).toNat
  bitsOf (w / 256 ^ (ltn % 4)) 5 0

/-- The physical tile of a logical tile, packed as in R353. -/
def State.physOf (s : State) (ltn : Nat) : Nat := s.slotOf ltn + 64 * clusterOf ltn

/-! ### Rings (R338-R343, R357) -/

/-- Ring r. -/
def State.ring (s : State) (r : Nat) : Ring := Sparse.get {} s.rings r

/-- Replaces ring r. -/
def State.setRing (s : State) (r : Nat) (x : Ring) : State := { s with rings := Sparse.set {} s.rings r x }

/-- RING_CTL of ring r. -/
def State.ringCtl (s : State) (r : Nat) : Nat := s.reg (oRing r + 0xC)

/-- Whether ring r runs: EN is set and ERR is clear (R339). -/
def State.ringOn (s : State) (r : Nat) : Bool := bitOf (s.ringCtl r) 0 && !bitOf (s.ringCtl r) 1

/-- Entries in a ring. -/
def Ring.occupancy (x : Ring) : Nat := (x.tail + x.size - x.head) % x.size

/-- Entries free in a ring: it holds at most SIZE - 1. -/
def Ring.free (x : Ring) : Nat := x.size - 1 - x.occupancy

/-- A posted write to host memory. -/
def State.hostWrite (s : State) (addr : Nat) (bs : List Byte) : State := { s with posted := s.posted ++ [.write addr bs] }

/-- The second word of a vector in the MSI-X table: message data, and its mask bit in bit 32 (R335, log 98). -/
def Pcie.vectorControl (p : Pcie) (v : Nat) : Dword := Sparse.get 0x100000000 p.msixTable (2 * v + 1)

/-- Whether a vector or the function is masked. -/
def Pcie.masked (p : Pcie) (v : Nat) : Bool := p.msixMask || (p.vectorControl v).toNat.testBit 32

/-- Whether the message of a vector is sent when it is raised: MSI-X is enabled and nothing masks it. -/
def Pcie.sends (p : Pcie) (v : Nat) : Bool := p.msixEnable && !p.masked v

/-- What raising a vector leaves: of one that is enabled and masked, its pending bit. -/
def Pcie.raised (p : Pcie) (v : Nat) : Pcie := if p.msixEnable && p.masked v then { p with msixPending := p.msixPending ||| BitVec.ofNat 64 (2 ^ v) } else p

/-- An MSI-X message (R335, R343): sent, or kept as a pending bit where the vector is masked. -/
def State.msix (s : State) (v : Nat) : State := { s with posted := s.posted ++ (if s.pcie.sends v then [.msix v] else []), pcie := s.pcie.raised v }

/-- The write-back of an index that Dyndirix owns (R342). -/
def State.writeBack (s : State) (r index : Nat) : State :=
  if (s.ring r).wb = 0 then s else s.hostWrite (s.ring r).wb (leBytes 4 index)

/-- COAL_N, 0 read as 1. -/
def coalN (ctl : Nat) : Nat := max 1 (bitsOf ctl 23 16)

/-- The announcement of one record or advance (R343). -/
def State.announce (s : State) (r : Nat) (atOnce : Bool) : State :=
  let ctl := s.ringCtl r
  let x := s.ring r
  let irq := bitsOf ctl 3 2
  let send := fun s : State => (s.setRing r { s.ring r with unannounced := 0 }).msix (bitsOf ctl 9 4)
  if irq = 1 then send s
  else if irq = 2 then
    if atOnce || decide (coalN ctl ≤ x.unannounced + 1) then send s
    else s.setRing r { x with unannounced := x.unannounced + 1 }
  else s

/-- Bytes of an entry of a ring that Dyndirix produces. -/
def entryBytes (r : Nat) : Nat := if r = 66 then 64 else 32

/-- Where the PHASE bit of a record lies: byte, always bit 0 (R351, R353, R355, R452). -/
def phaseByte (r : Nat) : Nat := if r = 66 then 5 else if r = 65 then 2 else if r = 64 then 3 else 10

/-- Sets bit 0 of a byte of a record. -/
def setPhase (p : Bool) (o : Nat) (bs : List Byte) : List Byte :=
  if p then bs.set o (bs.getD o 0 ||| 1) else bs

/-- Writes the entries of a record one after another, flipping the expected phase at each wrap (R343, R452); fuel bounds the number of entries. -/
def State.writeEntries (s : State) (r : Nat) : Nat → List Byte → State
  | 0, _ => s
  | n + 1, bs =>
    match bs with
    | [] => s
    | b :: rest =>
      let e := entryBytes r
      let x := s.ring r
      let s := s.hostWrite (x.base + e * x.tail) ((b :: rest).take e)
      let t := (x.tail + 1) % x.size
      let s := s.setRing r { x with tail := t, phase := if t = 0 then !x.phase else x.phase }
      State.writeEntries s r n ((b :: rest).drop e)

/-- Writes a record into a ring with room for it: entries, write-back, announcement (R342, R343). -/
def State.ringWrite (s : State) (r : Nat) (rec : List Byte) (atOnce : Bool) : State :=
  let s := s.writeEntries r (rec.length / entryBytes r + 1) (setPhase (s.ring r).phase (phaseByte r) rec)
  (s.writeBack r (s.ring r).tail).announce r atOnce

/-- Posts a record: written at once where there is room, else held; the event and the dead-letter ring hold 256 and count the rest (R357). Nothing is written to a ring that does not run (R339). -/
def State.ringPost (s : State) (r : Nat) (rec : List Byte) (atOnce : Bool) : State :=
  if !s.ringOn r then s
  else
    let x := s.ring r
    if x.held.isEmpty && decide (rec.length / entryBytes r ≤ x.free) then s.ringWrite r rec atOnce
    else if (r = 64 ∨ r = 65) ∧ 256 ≤ x.held.length then s.setRing r { x with lost := x.lost + 1 }
    else s.setRing r { x with held := x.held ++ [(rec, atOnce)] }

/-- Writes held records while there is room; fuel bounds their number. -/
def State.ringDrain (s : State) (r : Nat) : Nat → State
  | 0 => s
  | n + 1 =>
    let x := s.ring r
    match x.held with
    | [] => s
    | rec :: rest =>
      if rec.1.length / entryBytes r ≤ x.free then State.ringDrain ((s.setRing r { x with held := rest }).ringWrite r rec.1 rec.2) r n
      else s

/-- Counts a record of ring r and answers its number. -/
def State.ringSeq (s : State) (r : Nat) : State × Nat :=
  if s.ringOn r then (s.setRing r { s.ring r with seq := (s.ring r).seq + 1 }, (s.ring r).seq) else (s, 0)

/-! ### Records -/

/-- The section byte of a record that concerns no section (R353, R453). -/
def noSect : Nat := 0xFF

/-- Posts an event (R353): code, section or 0xFF, DATA. -/
def State.event (s : State) (code sect : Nat) (data : List Byte) : State :=
  let (s, n) := s.ringSeq 64
  s.ringPost 64 (leBytes 2 code ++ leBytes 1 sect ++ [0] ++ leBytes 4 n ++ leBytes 8 s.tstamp ++ padTo 16 data) false

/-- DATA items of 4 bytes each (R353). -/
def items (xs : List Nat) : List Byte := (xs.map (leBytes 4)).flatten

/-- Logs a dead letter (R355). -/
def State.deadLetter (s : State) (reason source : Nat) (write : Bool) (addr origin len : Nat) : State :=
  let (s, n) := s.ringSeq 65
  s.ringPost 65 (leBytes 1 reason ++ leBytes 1 source ++ leBytes 1 (2 * boolNat write) ++ [0] ++ leBytes 4 n
    ++ leBytes 8 addr ++ leBytes 4 origin ++ leBytes 4 len ++ leBytes 8 s.tstamp) false

/-- Posts a completion record of job ring k (R351). -/
def State.complete (s : State) (k : Nat) (c : Completion) : State :=
  let (s, _) := s.ringSeq (48 + k)
  s.ringPost (48 + k) (leBytes 4 c.tag ++ leBytes 4 c.index ++ leBytes 1 c.type ++ leBytes 1 c.status ++ leBytes 2 c.flags
    ++ leBytes 2 c.tt ++ leBytes 1 c.segment ++ [0] ++ leBytes 4 c.postmark ++ leBytes 4 c.detail ++ leBytes 8 s.tstamp) c.irq

/-- The completion record of the descriptor in execution, and after it those of NOPs processed meanwhile (R346). -/
def State.done (s : State) (k : Nat) (c : Completion) : State :=
  let x := s.sectN k
  x.nops.foldl (fun s c => s.complete k c) ((s.setSectN k { x with nops := [] }).complete k c)

/-- TAG, TYPE and FLAGS.IRQ of a descriptor (R344). -/
def descType (d : List Byte) : Nat := fieldAt d 0 1
def descTag (d : List Byte) : Nat := fieldAt d 4 4
def descIrq (d : List Byte) : Bool := bitOf (fieldAt d 1 1) 0

/-- The completion of a descriptor with a status and DETAIL. -/
def descDone (d : List Byte) (index status detail : Nat) : Completion :=
  { tag := descTag d, index := index, type := descType d, status := status, detail := detail, irq := descIrq d }

/-- Fields of a STEP descriptor (R345). -/
def stTt (d : List Byte) : Nat := fieldAt d 8 2
def stCode (d : List Byte) : Nat := bitsOf (fieldAt d 10 1) 1 0
def stSegCount (d : List Byte) : Nat := fieldAt d 11 1
def stPostmark (d : List Byte) : Nat := fieldAt d 12 4
def stEpoch (d : List Byte) : Nat := fieldAt d 16 4
def stSnap (d : List Byte) : Nat := fieldAt d 20 2
def stPeer (d : List Byte) : Nat := fieldAt d 22 2
def stReport (d : List Byte) : Nat := fieldAt d 24 8
def stSnapAddr (d : List Byte) : Nat := fieldAt d 32 8
def stSnapLen (d : List Byte) : Nat := fieldAt d 40 8

/-- SEGMENT of a completion or postbook record: code and segment index (R351, R452). -/
def segByte (code index : Nat) : Nat := code + 4 * index

/-- POSTMARK, STEP_SS, TT_ID and SEGMENT of the step in progress (R452): of the segment that runs or waits for its version, between two segments of a chain of the one that has ended, else 0. -/
def Section.progress (x : Section) : Nat × Nat × Nat × Nat :=
  match x.run.orElse (fun _ => x.evalWait), x.chain with
  | some r, _ => (stPostmark r.desc, r.stepSs, r.tt, segByte r.code r.segIndex)
  | none, some c => (stPostmark c.desc, c.stepSs, c.tt, segByte (if c.nextSeg ≤ 1 then 1 else 2) (c.nextSeg - 1))
  | none, none => (0, 0, 0, 0)

/-- Posts a postbook record (R452): type, section, STEP_SS, RECORD, payload of whole units. -/
def State.postbook (s : State) (type sect record : Nat) (captured : Bool) (payload : List Byte) : State :=
  let (s, n) := s.ringSeq 66
  let x := s.sectN sect
  let replay := decide (sect < 16) && bitOf (s.reg (oSect sect + sReplay)) 0
  let (pm, ss, tt, seg) := if sect < 16 then x.progress else (0, 0, 0, 0)
  s.ringPost 66 (leBytes 2 type ++ leBytes 2 (1 + payload.length / 64) ++ leBytes 1 sect
    ++ leBytes 1 (2 * boolNat replay + 4 * boolNat captured) ++ leBytes 2 0 ++ leBytes 8 n ++ leBytes 4 pm ++ leBytes 4 ss
    ++ leBytes 2 tt ++ leBytes 2 record ++ leBytes 1 seg ++ fillBytes 3 0 ++ leBytes 8 s.tstamp ++ fillBytes 24 0 ++ payload) false

/-- Whether the postbook ring has room for n units (R357). -/
def State.postbookRoom (s : State) (n : Nat) : Bool :=
  !s.ringOn 66 || ((s.ring 66).held.isEmpty && decide (n ≤ (s.ring 66).free))

/-! ### HBM (R301, R302, R441) -/

/-- UPDATE, INGEST, SPILL and SNAPSHOT channel counts of update die d in effect. -/
def State.hbmParts (s : State) (d : Nat) : List Nat :=
  let w := s.reg (oHbmPart d)
  [bitsOf w 6 0, bitsOf w 13 7, bitsOf w 20 14, bitsOf w 27 21]

/-- Bytes of an HBM channel. -/
def channelBytes : Nat := 0x80000000

/-- The base of update die d in HBM. -/
def dieBase (d : Nat) : Nat := hbmBase + d * 0x2000000000

/-- The partition (0 UPDATE, 1 INGEST, 2 SPILL, 3 SNAPSHOT) that holds offset o of a die, from counts. -/
def partOf : List Nat → Nat → Nat → Nat
  | [], _, k => k
  | n :: ns, o, k => if o < n * channelBytes then k else partOf ns (o - n * channelBytes) (k + 1)

/-- The partition that holds an HBM address; 4 when a die's partitions end below it. -/
def State.hbmPart (s : State) (a : Nat) : Nat :=
  let d := (a - hbmBase) / 0x2000000000
  partOf (s.hbmParts d) ((a - hbmBase) % 0x2000000000) 0

/-- Whether [a, a + n) lies wholly in partition p of one update die, given the counts of each die. -/
def inPartition (parts : Nat → List Nat) (p a n : Nat) : Bool :=
  let d := (a - hbmBase) / 0x2000000000
  let o := (a - hbmBase) % 0x2000000000
  let lo := (((parts d).take p).foldl (· + ·) 0) * channelBytes
  decide (hbmBase ≤ a) && decide (d < 4) && decide (lo ≤ o) && decide (o + n ≤ lo + (parts d).getD p 0 * channelBytes)

/-- inPartition under the partitions in effect. -/
def State.inPart (s : State) (p a n : Nat) : Bool := inPartition s.hbmParts p a n

/-- Whether every byte of [a, a + n) lies in partition p (R302). -/
def State.allPart (s : State) (p a n : Nat) : Bool :=
  n == 0 || (decide (hbmBase ≤ a) && decide (a + n ≤ hbmBase + hbmSize) && s.hbmPart a == p && s.hbmPart (a + n - 1) == p && s.inPart p a n)

/-- The lowest uncorrectable unit that a range of HBM meets (R441). -/
def State.hbmBadUnit (s : State) (a n : Nat) : Option Nat := s.hbmBad.find? (fun u => overlaps (64 * u) 64 a n)

/-- HBM_UNCORRECTABLE (R441). -/
def State.hbmUncorr (s : State) (sect u : Nat) : State := s.event 0x0A07 sect (leBytes 8 (64 * u))

/-- Writes HBM; units written whole are correct again. -/
def State.hbmWrite (s : State) (a : Nat) (bs : List Byte) : State :=
  { s with hbm := s.hbm.writeBytes a bs, hbmBad := s.hbmBad.filter (fun u => !(decide (a ≤ 64 * u) && decide (64 * u + 64 ≤ a + bs.length))) }

/-! ### Section faults (R96-R98, R154, R295, R330, R349, R384) -/

/-- Discards the step state of a tile (R154). -/
def Tile.dropStep (t : Tile) : Tile := { t with acc := [], ucounts := [] }

/-- The span table of the program in execution; empty where it declares none. -/
def Section.spanTable (x : Section) : List Byte :=
  match x.program with
  | some p => p.span
  | none => []

/-- Fields of a span table (R377). -/
def spanChips (sp : List Byte) : Nat := if sp.isEmpty then 1 else fieldAt sp 2 2
def spanParent (sp : List Byte) : Nat := fieldAt sp 4 1
def spanChildren (sp : List Byte) : Nat := fieldAt sp 8 4
def spanUsed (sp : List Byte) (l : Nat) : Bool := !sp.isEmpty && bitOf (fieldAt sp (16 + 4 * l + 3) 1) 0
def spanPeerChip (sp : List Byte) (l : Nat) : Nat := fieldAt sp (16 + 4 * l) 2
def spanPeerLink (sp : List Byte) (l : Nat) : Nat := bitsOf (fieldAt sp (16 + 4 * l + 2) 1) 4 0

/-- Whether a section is joined with others: its span table lists more than one chip, and it does not run in replay (R34, R457). -/
def State.joined (s : State) (k : Nat) : Bool :=
  decide (1 < spanChips (s.sectN k).spanTable) && !bitOf (s.reg (oSect k + sReplay)) 0

/-- Links of a span's barrier tree: the parent's and the children's (R377). -/
def treeLinks (sp : List Byte) : List Nat :=
  (if spanParent sp < 32 then [spanParent sp] else []) ++ (List.range 32).filter (fun l => bitOf (spanChildren sp) l)

/-- Link l. -/
def State.linkN (s : State) (l : Nat) : Link := s.links.toList.getD l {}

/-- Replaces link l. -/
def State.setLinkN (s : State) (l : Nat) (x : Link) : State := { s with links := s.links.setIfInBounds l x }

/-- Puts a frame into the transmit queue of an LVC of a link (R367). -/
def Link.enqueue (x : Link) (lvc : Nat) (f : Frame) : Link := { x with txq := x.txq.setIfInBounds lvc (x.txq.toList.getD lvc [] ++ [f]) }

/-- Header of a barrier frame (R366): KIND, INDEX, BSEQ. -/
def barrierHeader (kind index bseq : Nat) : Nat := 5 + 8 * kind + 2 ^ 8 * (index % 65536) + 2 ^ 24 * (bseq % 2 ^ 32)

/-- Sends a barrier frame on a link. -/
def State.sendBarrier (s : State) (l kind index bseq : Nat) (data : List Byte) : State :=
  s.setLinkN l ((s.linkN l).enqueue 5 { header := barrierHeader kind index bseq, data := padTo 256 data })

/-- INDEX of link frames and postbook records for a barrier index (R366, R452). -/
def index16 (k : Nat) : Nat := if k = closingIndex then 0xFFFF else k

/-- Index at which a tile has arrived. -/
def Tile.arrivedAt (t : Tile) : Option Nat :=
  match t.seq.status with
  | .arrived k => some k
  | _ => none

/-- The INDEX that an ABORT of section k carries, as ARRIVE (R366): that of the barrier at which its lowest tile stands, else of the superstep whose exchange phase runs, else 0xFFFF (log 173). -/
def State.abortIndex (s : State) (k : Nat) : Nat :=
  match (s.ltns k).findSome? fun n => (s.tileN n).arrivedAt with
  | some i => index16 i
  | none => (s.sectN k).exchange.getD 0xFFFF

/-- ABORT on tree links other than one (R384): originating chip and event code. -/
def State.sendAborts (s : State) (sp : List Byte) (except : Option Nat) (index bseq chip code : Nat) : State :=
  ((treeLinks sp).filter (fun l => except != some l)).foldl (fun s l => s.sendBarrier l 2 index bseq (leBytes 2 chip ++ leBytes 2 code)) s

/-- Completion of the STEP in progress: SEGMENT, TT_ID and postmark are those of the run (R351). -/
def runDone (r : StepRun) (status flags : Nat) : Completion :=
  { tag := descTag r.desc, index := r.index, type := 1, status := status, flags := flags + 16 * boolNat r.probe,
    tt := r.tt, segment := segByte r.code r.segIndex, postmark := stPostmark r.desc, irq := descIrq r.desc }

/-- The ABORTED record of the descriptor in execution (R349). -/
def State.abortRun (s : State) (k : Nat) : State :=
  let x := s.sectN k
  match x.run.orElse (fun _ => x.evalWait), x.switching, x.barrier, x.fence with
  | some r, _, _, _ => s.done k (runDone r 0x0E 0)
  | none, some d, _, _ => s.done k (descDone d.desc d.index 0x0E 0)
  | none, none, some d, _ => s.done k (descDone d.desc d.index 0x0E 0)
  | none, none, none, some d => s.done k (descDone d.desc d.index 0x0E 0)
  | none, none, none, none => s

/-- FILLED is a flag of the step that ran the probe (R164). -/
def clearFilled (m : Sparse Slot) : Sparse Slot := (m.map fun e => (e.1, { e.2 with filled := false })).filter fun e => e.2 != {}

/-- Whether a key belongs to a scope. -/
def inScope (sc : Scope) (k : Nat) : Bool := keyScope k == sc

/-- The seal point: every staged value of a scope is captured (R469); a value captured before gives way (R470). -/
def RegFile.capture (f : RegFile) (sc : Scope) : RegFile :=
  let mine := f.staged.filter fun e => inScope sc e.1
  { f with
    staged := f.staged.filter fun e => !inScope sc e.1
    captured := mine.foldl (fun m e => Sparse.set none m e.1 e.2) f.captured }

/-- Whether a tile stands at the barrier of index k, or stood there when a fault stopped it. -/
def Tile.stands (t : Tile) (k : Nat) : Bool := t.arrivedAt == some k || t.seq.stood == some k

/-- Whether the seal point of the step boundary has come: the last tile of a WHOLE or TAIL sequence has arrived at the closing barrier, or that barrier has released (R54). -/
def State.atSealPoint (s : State) (k : Nat) : Bool :=
  let x := s.sectN k
  match x.run with
  | some r => (r.code == 0 || r.code == 3) && r.began
      && (r.ended || ((x.phase == .running || x.phase == .held) && (s.ltns k).all fun n => (s.tileN n).stands closingIndex))
  | none => false

/-- The capture at the seal point of the step boundary (R54, R469). The model makes it before the first staged write or seal request after that point, before a fault of the section is acted on, and at the latest at the release of the closing barrier: nothing tells the difference. -/
def State.sealPoint (s : State) (k : Nat) : State :=
  match (s.sectN k).run with
  | some r =>
    if s.atSealPoint k && !r.sealed then
      ({ s with regs := s.regs.capture (.sect k) } : State).setSectN k { s.sectN k with run := some { r with sealed := true } }
    else s
  | none => s

/-- Ends what a section was doing. A seal whose seal point has passed, that of a step boundary too, stays pending, and R53 has it applied without a barrier. -/
def Section.quiesce (x : Section) : Section :=
  { x with
    sealPend := x.sealPend || (match x.run with
      | some r => r.sealed
      | none => false)
    run := none, chain := none, evalWait := none, switching := none, fence := none, barrier := none, atSwitch := false, freed := false,
    exchange := none, overran := [], row := x.rowStart, windows := 0, waited := false, stalled := false,
    linkUse := [], capBytes := [], capFrames := 0, span := {}, slots := clearFilled x.slots,
    groups := x.groups.map fun e => (e.1, e.2.map fun g => { g with slices := [], rowWas := [], scalars := none, us := [] }) }

/-- Stops every tile of a section and puts it in FAULTED (R96, R97); code is the event that faulted it, sent in ABORT (R384); the tree link an ABORT came on gets none. -/
def State.faultSectFrom (s : State) (k code chip : Nat) (from_ : Option Nat) : State :=
  let x := s.sectN k
  if x.phase = .off ∨ x.phase = .faulted then s
  else
    let joined := s.joined k
    let index := s.abortIndex k
    let s := (s.sealPoint k).abortRun k
    let s := s.mapTiles k (fun _ t => t.halt.dropStep)
    let s := s.setSectN k { (s.sectN k).quiesce with phase := .faulted }
    if joined then s.sendAborts x.spanTable from_ index x.bseq chip code else s

/-- Puts a section in FAULTED on a cause of this chip. -/
def State.faultSect (s : State) (k code : Nat) : State := s.faultSectFrom k code (s.reg oChipId) none

/-- The chip fails (R445, R446): every section stops, CHIP_FAILED is posted; a chip that has failed keeps its first cause. -/
def State.failChip (s : State) (cause loc : Nat) : State :=
  if s.repair.failed then s
  else
    let s : State := { s with repair := { s.repair with failed := true, cause := cause, loc := loc } }
    let s := (List.range 16).foldl (fun (s : State) k => s.faultSect k 0x0A01) s
    s.event 0x0A01 noSect (items [cause, loc])

/-- Records a fencing candidate (R98): up to 64 distinct tiles in order of first fault. -/
def noteCand (cs : List (Nat × Nat × Nat)) (tile fcode : Nat) : List (Nat × Nat × Nat) :=
  match cs with
  | [] => [(tile, fcode, 1)]
  | c :: rest => if c.1 = tile then (tile, fcode, min 255 (c.2.2 + 1)) :: rest else c :: noteCand rest tile fcode

/-- noteCand within the 64 places. -/
def Repair.note (r : Repair) (tile fcode : Nat) : Repair :=
  if r.cands.any (fun c => c.1 == tile) || decide (r.cands.length < 64) then { r with cands := noteCand r.cands tile fcode } else r

/-- DATA of TILE_FAULT (R353). -/
def faultData (ltn phys : Nat) (f : TileFault) : List Byte :=
  leBytes 2 ltn ++ leBytes 2 phys ++ leBytes 4 f.fpc ++ leBytes 1 f.fcode ++ leBytes 1 (boolNat f.fmulti) ++ leBytes 2 f.ftag ++ leBytes 4 f.faddr

/-- Posts the TILE_FAULT of a tile and notes a candidate of a hardware fault (R97, R98). -/
def State.reportFault (s : State) (k ltn : Nat) (f : TileFault) : State :=
  let s := s.event 0x0201 k (faultData ltn (s.physOf ltn) f)
  let s := if 0x10 ≤ f.fcode then { s with repair := s.repair.note (s.physOf ltn) f.fcode } else s
  s.setTileN ltn { s.tileN ltn with faultSeen := true }

/-- Tiles of a section whose fault has not been dealt with, ascending. -/
def State.newFaults (s : State) (k : Nat) : List (Nat × TileFault) :=
  (s.ltns k).filterMap fun n =>
    let t := s.tileN n
    match t.fault with
    | some f => if t.faultSeen then none else some (n, f)
    | none => none

/-- The faults of a section's tiles that have not been dealt with stop it: one TILE_FAULT event per faulting tile in ascending LTN (R97, R98). -/
def State.stopFaulted (s : State) (k : Nat) : State :=
  match s.newFaults k with
  | [] => s
  | fs => (fs.foldl (fun s f => s.reportFault k f.1 f.2) s).faultSect k 0x0201

/-! ### Time -/

/-- An idle step: one count of the timestamp (R351, log 4). -/
def idleTick (s : State) : State := { s with tstamp := (s.tstamp + 1) % 2 ^ 64 }

end Sys2Proof.Machine
end

