-- ==== Sys2Proof/Machine/Access.lean ====
section
/-! DEFINITION. Access.lean: accesses to a tile's memories that no command of the tile makes: LOAD, SAVE, switches, version and evaluation copies, the ingest handover, update dies and BAR2 (R10, R201-R203, R209, R213, R214, R216, R251, R290). -/

namespace Sys2Proof.Machine

/-- FPC of a fault that no instruction or command of the tile caused (R95). -/
def noPc : Nat := 0xFFFFFFFF

/-- An access to a tile that raises a fault there for an instruction at fpc that is no CMD (R95). -/
def State.faultTileAt (s : State) (fpc ltn fcode faddr : Nat) : State := s.setTileN ltn ((s.tileN ltn).raise fpc 0 [(fcode, faddr)])

/-- An access from outside the tile that raises a fault there: FPC 0xFFFF_FFFF, FTAG 0 (R95, R214). -/
def State.faultTile (s : State) (ltn fcode faddr : Nat) : State := s.faultTileAt noPc ltn fcode faddr

/-- Whether the slot of a logical tile is fenced: its port is closed on all four planes and its clocks stand (R251, R442). -/
def State.fencedLtn (s : State) (ltn : Nat) : Bool := s.repair.fenced.contains (s.physOf ltn)

/-- What a tile does of itself: nothing while it is fenced, its clocks being stopped (R442). -/
def State.clocked (s : State) (t : Ltn) (f : State → State) : State := if s.fencedLtn t.toNat then s else f s

/-- Adds to a network counter of a cluster: 0 NET_CORR, 1 INJECT_LATE, 2 OVERRUN, 3 DEAD, 4 NODE_WAIT. -/
def State.netCount (s : State) (cluster i n : Nat) : State := s.count (oNetCnt i) cluster n

/-- Traffic for a closed port is discarded whole at the office (R251); addr is the device address where the access named one, else the offset in the tile (R355). -/
def State.fencedLetter (s : State) (write : Bool) (ltn addr len : Nat) : State :=
  (s.deadLetter 8 5 write addr (clusterOf ltn) len).netCount (clusterOf ltn) 3 1

/-! ### Tile store -/

/-- What becomes of a row of an access from outside: it lies in the unpopulated part of the stride (R10), waits at a bank in transition (R213), is served, or is dropped (R214). -/
inductive RowFate where
  | reserved | held | on | asleep
  deriving DecidableEq, Repr

/-- The fate of the 64-byte row r. -/
def TileStore.rowFate (m : TileStore) (r : Nat) : RowFate :=
  if tsSize ≤ 64 * r then .reserved
  else
    let b := m.bank (tsBankOf (64 * r))
    if b.target.isSome then .held else if b.st == .on then .on else .asleep

/-- The rows of a range with a given fate. -/
def TileStore.rowsWith (m : TileStore) (f : RowFate) (a n : Nat) : List Nat := (wordsOf a n 64).filter fun r => m.rowFate r == f

/-- Bytes of a range that lie in a list of rows. -/
def bytesIn (a n : Nat) (rows : List Nat) : Nat := (rows.map fun r => (rowPart a n r).2).foldl (· + ·) 0

/-- ADDR of a dead letter about a tile store: the offset for a queue of the tile, else the device address (R355). -/
def storeAddr (source ltn o : Nat) : Nat := if source = 1 then o else ltn * 0x2000000 + o

/-- A write inside one row of a tile store whose bank is ON. Every access is a whole row: one that brings a part of it reads and corrects the row, merges the part and writes the row back (R202, R205, R209). A write of a step carries its postmark and takes note in the version ranges (R290). -/
def Tile.storePart (t : Tile) (postmark : Option Nat) (off : Nat) (bs : List Byte) : Tile :=
  let r := off / 64 * 64
  let whole := bs.length == 64 || t.ts.flips.isEmpty
  let c := if whole then (0, none) else t.ts.check r 64
  let t := t.count 4 c.1
  match c.2 with
  | some o => t.raise noPc 0 [(fTsUncorr, o)]
  | none =>
    let m := if whole then t.ts.write off bs else (t.ts.write r (t.ts.read r 64)).write off bs
    match postmark with
    | some p => { t with ts := m, ranges := t.ranges.map (markWrite p off bs.length) }
    | none => { t with ts := m }

/-- The bytes of a write that go to a row. -/
def HeldWrite.part (h : HeldWrite) (r : Nat) : Nat × List Byte :=
  let p := rowPart h.off h.data.length r
  (p.1, (h.data.drop (p.1 - h.off)).take p.2)

/-- The least number of a list, none of an empty one. -/
def leastOf : List Nat → Option Nat
  | [] => none
  | x :: xs => some (xs.foldl min x)

/-- The one dead letter of an access whose rows have all been judged (R214): ADDR that of the lowest dropped row, LENGTH the bytes dropped. -/
def State.heldLetter (s : State) (ltn : Nat) (h : HeldWrite) : State :=
  match leastOf h.dropped with
  | none => s
  | some r => s.deadLetter 4 h.source true (storeAddr h.source ltn (rowPart h.off h.data.length r).1) h.origin (bytesIn h.off h.data.length h.dropped)

/-- Judges rows of a write by the states of their banks (R214): rows of banks that are ON are performed, others dropped, the first with DEAD_WRITE. Its other rows stay held; once none is left, the dead letter of the access is logged. -/
def State.judgeRows (s : State) (ltn : Nat) (h : HeldWrite) (rows : List Nat) : State :=
  let t := s.tileN ltn
  let off := rows.filter fun r => t.ts.rowFate r != .on
  let t' := (rows.filter fun r => t.ts.rowFate r == .on).foldl (fun (x : Tile) r => x.storePart h.postmark (h.part r).1 (h.part r).2) t
  let s := s.setTileN ltn t'
  let s := match leastOf off with
    | some r => s.faultTile ltn fDeadWrite (rowPart h.off h.data.length r).1
    | none => s
  let h := { h with rows := h.rows.filter (fun r => !rows.contains r), dropped := h.dropped ++ off }
  if h.rows.isEmpty then s.heldLetter ltn h
  else
    let t := s.tileN ltn
    s.setTileN ltn { t with ts := { t.ts with held := t.ts.held ++ [h] } }

/-- A write that arrives without a command of the tile, row by row: rows at banks in transition are held, the others judged (R213, R214); rows beyond the tile store are a dead letter, and so is the whole at a closed port (R10, R251). -/
def State.outsideWrite (s : State) (ltn a : Nat) (bs : List Byte) (source origin : Nat) (postmark : Option Nat) : State :=
  if s.fencedLtn ltn then s.fencedLetter true ltn (storeAddr source ltn a) bs.length
  else
    let n := bs.length
    let m := (s.tileN ltn).ts
    let rows := (wordsOf a n 64).filter fun r => m.rowFate r != .reserved
    let s := if rows.isEmpty then s
      else s.judgeRows ltn { off := a, data := bs, source := source, origin := origin, postmark := postmark, rows := rows } (rows.filter fun r => m.rowFate r != .held)
    match m.rowsWith .reserved a n with
    | [] => s
    | r :: rs => s.deadLetter 2 source true (storeAddr source ltn (rowPart a n r).1) origin (bytesIn a n (r :: rs))

/-- The part of a run of bytes that lies in granules of a list, granule by granule. -/
def inGranules (gs : List Nat) (off : Nat) (bs : List Byte) : List (Nat × List Byte) :=
  ((wordsOf off bs.length 65536).filter gs.contains).map fun g =>
    let lo := max off (65536 * g)
    (lo, (bs.drop (lo - off)).take (min (off + bs.length) (65536 * (g + 1)) - lo))

/-- A LOAD or a step boundary writes a program's part of a tile store: only granules of its program slot (R42, log 177), like every write from outside the tile's commands. -/
def State.loadWrite (s : State) (ltn : Nat) (gs : List Nat) (off : Nat) (bs : List Byte) : State :=
  (inGranules gs off bs).foldl (fun (s : State) e => s.outsideWrite ltn e.1 e.2 1 ltn none) s

/-- Whether an access from outside waits for a bank in transition (R213). -/
def State.storeWaits (s : State) (ltn a n : Nat) : Bool := !s.fencedLtn ltn && !((s.tileN ltn).ts.rowsWith .held a n).isEmpty

/-- What a read without a command of the tile, on the account of an instruction at fpc, leaves behind. It reads whole rows (R205): corrected words are counted; an uncorrectable word, a row of a bank that is not ON, a row beyond the tile store and a closed port are reported (R10, R209, R214, R251). -/
def State.storeTouchAt (s : State) (fpc ltn a n source origin : Nat) : State :=
  if s.fencedLtn ltn then s.fencedLetter false ltn (storeAddr source ltn a) n
  else
    let t := s.tileN ltn
    let cs := (t.ts.rowsWith .on a n).map fun r => t.ts.check (64 * r) 64
    let s := s.setTileN ltn (t.count 4 ((cs.map (·.1)).foldl (· + ·) 0))
    let s := match cs.findSome? (·.2) with
      | some o => s.faultTileAt fpc ltn fTsUncorr o
      | none => s
    let s := match t.ts.rowsWith .asleep a n with
      | [] => s
      | r :: rs =>
        (s.faultTileAt fpc ltn fEngine (rowPart a n r).1).deadLetter 4 source false (storeAddr source ltn (rowPart a n r).1) origin (bytesIn a n (r :: rs))
    match t.ts.rowsWith .reserved a n with
    | [] => s
    | r :: rs => s.deadLetter 2 source false (storeAddr source ltn (rowPart a n r).1) origin (bytesIn a n (r :: rs))

/-- A read from outside the tile. -/
def State.storeTouch (s : State) (ltn a n source origin : Nat) : State := s.storeTouchAt noPc ltn a n source origin

/-- What a read from outside delivers; the rows that it does not deliver are left open (log 156). -/
def State.storeBytes (s : State) (ltn a n : Nat) : List Byte :=
  let t := s.tileN ltn
  (wordsOf a n 64).flatMap fun r =>
    let p := rowPart a n r
    if !s.fencedLtn ltn && t.ts.rowFate r == .on && (t.ts.check (64 * r) 64).2.isNone then t.ts.read p.1 p.2
    else (List.range p.2).map fun i => Config.undelivered ltn (p.1 + i)

/-! ### The timetable in the tile stores (R48, R49) -/

/-- Record k of the timetable that section k runs, as it stands in the tile store of a tile at SS_OFFSET. -/
def State.recordOf (s : State) (sect ltn k : Nat) : List Byte :=
  match (s.sectN sect).timetable with
  | some t => s.storeBytes ltn (t.ssOffset + 16 * k) 16
  | none => []

/-- The send entries of a record, where the image places the tile's entries (R49, R50). -/
def State.sendsOf (s : State) (sect ltn : Nat) (r : List Byte) : List (List Byte) :=
  match (s.sectN sect).timetable with
  | some t => (List.range (recSendCount r)).map fun i => s.storeBytes ltn ((t.tile ltn).sendsOff + 32 * (recSendFirst r + i)) 32
  | none => []

/-- The read of a record and its send entries counts and faults as every read of the tile store does; the SYNC at the tile's pc makes it (R90, R95, R209). -/
def State.recordTouch (s : State) (sect ltn k : Nat) : State :=
  match (s.sectN sect).timetable with
  | some t =>
    let r := s.recordOf sect ltn k
    let pc := (s.tileN ltn).seq.pc.toNat
    let s := s.storeTouchAt pc ltn (t.ssOffset + 16 * k) 16 1 ltn
    if recSendCount r = 0 then s else s.storeTouchAt pc ltn ((t.tile ltn).sendsOff + 32 * recSendFirst r) (32 * recSendCount r) 1 ltn
  | none => s

/-! ### Scratchpad -/

/-- What a read of a scratchpad by no command of the tile leaves behind (R201, R251). -/
def State.padTouch (s : State) (ltn a n : Nat) : State :=
  if s.fencedLtn ltn then s.fencedLetter false ltn a n
  else
    let t := s.tileN ltn
    let c := t.sp.check a n
    let s := s.setTileN ltn (t.count 3 c.1)
    match c.2 with
    | some o => s.faultTile ltn fSpUncorr o
    | none => s

/-- What such a read delivers. -/
def State.padBytes (s : State) (ltn a n : Nat) : List Byte :=
  let t := s.tileN ltn
  if !s.fencedLtn ltn && (t.sp.check a n).2.isNone then t.sp.read a n else (List.range n).map fun i => Config.undelivered ltn (a + i)

/-- A write of a scratchpad by no command of the tile (R202, R203, R251). -/
def State.padWrite (s : State) (ltn a : Nat) (bs : List Byte) : State :=
  if s.fencedLtn ltn then s.fencedLetter true ltn a bs.length
  else
    let t := s.tileN ltn
    let c := t.sp.checkPartial a bs.length
    let t := t.count 3 c.1
    match c.2 with
    | some o => (s.setTileN ltn t).faultTile ltn fSpUncorr o
    | none => s.setTileN ltn { t with sp := t.sp.write a bs }

end Sys2Proof.Machine
end

