-- ==== Sys2Proof/Machine/Flags.lean ====
section
/-! DEFINITION. Flags.lean: the step state of tensor slots: STEP_AMAX, the health counters and the ACC_SAT flag (R116, R122, R149, R152, R156, R161). -/

namespace Sys2Proof.Machine

/-- A health counter stops at 2^48 - 1 (R161). -/
def satAdd48 (a b : Nat) : Nat := min (a + b) 0xFFFFFFFFFFFF

/-- The larger of two finite non-negative FP32 values (R123, R152). -/
def amaxOf (a b : Word) : Word := if a.toNat < b.toNat then b else a

/-- What stage 6 finds of one element (R122). -/
structure ElemClass where
  saturated : Bool
  flushed : Bool
  subnormal : Bool
  deriving DecidableEq, Repr

/-- Whether a code is a non-zero subnormal of its format. -/
def Fmt.isSubnormal (f : Fmt) (code : Nat) : Bool :=
  !f.isInt && (code / 2 ^ f.frac) % 2 ^ f.expBits == 0 && code % 2 ^ f.frac != 0

/-- Whether an exact value is finite and not zero. -/
def Ex.finNonzero (x : Ex) : Bool := x.isFin && !x.isZero

/-- Whether a code has magnitude 0. -/
def Fmt.isZeroCode (f : Fmt) (code : Nat) : Bool := if f.isInt then code == 0 else code % 2 ^ (f.width - 1) == 0

/-- Classifies the element that the exact product q rounded to (R122). -/
def classify (f : Fmt) (q : Ex) (r : Rounded) : ElemClass :=
  { saturated := r.clamped, flushed := q.finNonzero && f.isZeroCode r.bits, subnormal := f.isSubnormal r.bits }

/-- Folds one written element into the step state of its slot (R116 stages 5 and 6, R122, R156). -/
def StepAcc.element (a : StepAcc) (y : Word) (held : Bool) (c : ElemClass) : StepAcc :=
  { a with
    amax := if (f32 y).isFin then amaxOf a.amax (y &&& 0x7FFFFFFF) else a.amax
    quantised := satAdd48 a.quantised 1
    saturated := satAdd48 a.saturated (boolNat c.saturated)
    flushed := satAdd48 a.flushed (boolNat c.flushed)
    subnormal := satAdd48 a.subnormal (boolNat c.subnormal)
    zeroRange := satAdd48 a.zeroRange (boolNat held) }

/-- Combination of two copies of a slot's step state (R152, R161). -/
def StepAcc.combine (a b : StepAcc) : StepAcc :=
  { amax := amaxOf a.amax b.amax
    quantised := satAdd48 a.quantised b.quantised
    saturated := satAdd48 a.saturated b.saturated
    flushed := satAdd48 a.flushed b.flushed
    subnormal := satAdd48 a.subnormal b.subnormal
    zeroRange := satAdd48 a.zeroRange b.zeroRange
    accSat := a.accSat || b.accSat }

/-- Sets ACC_SAT of a slot in a tile's copy when the drained input carries it (R117, R122). -/
def Tile.flagAccSat (t : Tile) (slot : Nat) (sat : Bool) : Tile :=
  if sat then { t with acc := Sparse.modify {} t.acc slot (fun a => { a with accSat := true }) } else t

/-- Whether a counter of a slot has reached its end: CNT_SAT (R161). -/
def StepAcc.cntSat (a : StepAcc) : Bool :=
  [a.quantised, a.saturated, a.flushed, a.subnormal, a.zeroRange].any (fun n => n == 0xFFFFFFFFFFFF)

end Sys2Proof.Machine
end

