-- ==== Sys2Proof/Machine/Special.lean ====
section
/-! DEFINITION. Special.lean: the special functions of R177 and the activations of R118. RCP and RSQRT (R176) stand in Fp.lean. -/

namespace Sys2Proof.Machine

/-- X[j] = 2^(j/64), j = 0..63 (R177). -/
def tabX : List Word :=
  [0x3F800000, 0x3F8164D2, 0x3F82CD87, 0x3F843A29, 0x3F85AAC3, 0x3F871F62, 0x3F88980F, 0x3F8A14D5, 0x3F8B95C2, 0x3F8D1ADF, 0x3F8EA43A, 0x3F9031DC, 0x3F91C3D3, 0x3F935A2B, 0x3F94F4F0, 0x3F96942D] ++
  [0x3F9837F0, 0x3F99E046, 0x3F9B8D3A, 0x3F9D3EDA, 0x3F9EF532, 0x3FA0B051, 0x3FA27043, 0x3FA43516, 0x3FA5FED7, 0x3FA7CD94, 0x3FA9A15B, 0x3FAB7A3A, 0x3FAD583F, 0x3FAF3B79, 0x3FB123F6, 0x3FB311C4] ++
  [0x3FB504F3, 0x3FB6FD92, 0x3FB8FBAF, 0x3FBAFF5B, 0x3FBD08A4, 0x3FBF179A, 0x3FC12C4D, 0x3FC346CD, 0x3FC5672A, 0x3FC78D75, 0x3FC9B9BE, 0x3FCBEC15, 0x3FCE248C, 0x3FD06334, 0x3FD2A81E, 0x3FD4F35B] ++
  [0x3FD744FD, 0x3FD99D16, 0x3FDBFBB8, 0x3FDE60F5, 0x3FE0CCDF, 0x3FE33F89, 0x3FE5B907, 0x3FE8396A, 0x3FEAC0C7, 0x3FED4F30, 0x3FEFE4BA, 0x3FF28177, 0x3FF5257D, 0x3FF7D0DF, 0x3FFA83B3, 0x3FFD3E0C]

/-- Y[j] = log2(1 + j/64), j = 0..63 (R177). -/
def tabY : List Word :=
  [0x00000000, 0x3CB73CB4, 0x3D35D69C, 0x3D8759C5, 0x3DB31FB8, 0x3DDE4212, 0x3E0462C4, 0x3E19574F, 0x3E2E00D2, 0x3E42615F, 0x3E567AF1, 0x3E6A4F72, 0x3E7DE0B6, 0x3E88983F, 0x3E92203D, 0x3E9B8926] ++
  [0x3EA4D3C2, 0x3EAE00D2, 0x3EB7110E, 0x3EC0052B, 0x3EC8DDD4, 0x3ED19BB0, 0x3EDA3F60, 0x3EE2C97D, 0x3EEB3A9F, 0x3EF39355, 0x3EFBD42B, 0x3F01FED4, 0x3F060828, 0x3F0A0650, 0x3F0DF989, 0x3F11E20F] ++
  [0x3F15C01A, 0x3F1993E3, 0x3F1D5DA0, 0x3F211D84, 0x3F24D3C2, 0x3F28808C, 0x3F2C2411, 0x3F2FBE80, 0x3F335004, 0x3F36D8CB, 0x3F3A58FF, 0x3F3DD0C8, 0x3F41404F, 0x3F44A7BA, 0x3F480731, 0x3F4B5ED7] ++
  [0x3F4EAED0, 0x3F51F740, 0x3F553848, 0x3F587209, 0x3F5BA4A4, 0x3F5ED039, 0x3F61F4E5, 0x3F6512C7, 0x3F6829FB, 0x3F6B3A9F, 0x3F6E44CD, 0x3F7148A1, 0x3F744636, 0x3F773DA4, 0x3F7A2F04, 0x3F7D1A71]

/-- G[j] = erf((2j+1)/32), j = 1..63 (R177); entry 0 is not used. -/
def tabG : List Word :=
  [0x00000000, 0x3DD80409, 0x3E331506, 0x3E78C855, 0x3E9E4D54, 0x3EBF0ACA, 0x3EDE67F6, 0x3EFC37D5, 0x3F0C2AD3, 0x3F1952A6, 0x3F2589B9, 0x3F30CAAB, 0x3F3B1438, 0x3F4468E7, 0x3F4CCEA1, 0x3F544E43] ++
  [0x3F5AF318, 0x3F60CA59, 0x3F65E2A6, 0x3F6A4B88, 0x3F6E14FE, 0x3F714F11, 0x3F74097E, 0x3F765366, 0x3F783B18, 0x3F79CDE1, 0x3F7B17F4, 0x3F7C2456, 0x3F7CFCDD, 0x3F7DAA32, 0x3F7E33DE, 0x3F7EA05F] ++
  [0x3F7EF537, 0x3F7F370C, 0x3F7F69BA, 0x3F7F9070, 0x3F7FADC8, 0x3F7FC3D9, 0x3F7FD450, 0x3F7FE081, 0x3F7FE975, 0x3F7FEFFD, 0x3F7FF4B5, 0x3F7FF819, 0x3F7FFA82, 0x3F7FFC36, 0x3F7FFD68, 0x3F7FFE3D] ++
  [0x3F7FFED0, 0x3F7FFF34, 0x3F7FFF79, 0x3F7FFFA7, 0x3F7FFFC6, 0x3F7FFFDA, 0x3F7FFFE8, 0x3F7FFFF0, 0x3F7FFFF6, 0x3F7FFFFA, 0x3F7FFFFC, 0x3F7FFFFE, 0x3F7FFFFF, 0x3F7FFFFF, 0x3F7FFFFF, 0x3F800000]

/-- D[j] = (2/sqrt pi) exp(-((2j+1)/32)^2), j = 1..63 (R177); entry 0 is not used. -/
def tabD : List Word :=
  [0x00000000, 0x3F8F2B2E, 0x3F8CF2F5, 0x3F89AF18, 0x3F8572A8, 0x3F8055E8, 0x3F74EAD4, 0x3F67E20F, 0x3F59D57E, 0x3F4B0B28, 0x3F3BC8DC, 0x3F2C5223, 0x3F1CE661, 0x3F0DBF4C, 0x3EFE1F73, 0x3EE20584] ++
  [0x3EC7769B, 0x3EAEA7EA, 0x3E97BE62, 0x3E82CFAD, 0x3E5FC70E, 0x3E3DEAE4, 0x3E1FED36, 0x3E059FA9, 0x3DDD8E4C, 0x3DB63F32, 0x3D94BEDD, 0x3D70EA68, 0x3D4194C7, 0x3D1A561B, 0x3CF42E22, 0x3CBFA8C4] ++
  [0x3C9543AE, 0x3C66AF65, 0x3C30DF57, 0x3C068EB5, 0x3BCB237A, 0x3B9824CE, 0x3B622096, 0x3B26BC5E, 0x3AF3F919, 0x3AB11AFE, 0x3A7F20E7, 0x3A365507, 0x3A014AF8, 0x39B5F011, 0x397E06AB, 0x392FF56D] ++
  [0x38F1DE7A, 0x38A4F0BC, 0x385F355E, 0x3815DAE6, 0x37C7A666, 0x3783F5E9, 0x372D1570, 0x36E14167, 0x36916F95, 0x363A56E4, 0x35ECE39B, 0x35956771, 0x353AFD47, 0x34E8356B, 0x348F0F43, 0x342EE6B3]

/-- E_i = (ln 2)^i / i!, i = 1..3 (R177). -/
def conE : List Word := [0x3F317218, 0x3E75FDF0, 0x3D635847]

/-- L_i = (-1)^(i+1) / (i ln 2), i = 1..4 (R177). -/
def conL : List Word := [0x3FB8AA3B, 0xBF38AA3B, 0x3EF6384F, 0xBEB8AA3B]

/-- F_n = (2/sqrt pi) (-1)^n / (n! (2n+1)), n = 0..3 (R177). -/
def conF : List Word := [0x3F906EBB, 0xBEC093A3, 0x3DE71791, 0xBCDC1672]

/-- The entry j of a table. -/
def tabAt (t : List Word) (j : Nat) : Word := t.getD j 0

/-- The rational (-1)^neg x num / den rounded once to FP32 by RNE. -/
def ratF32 (neg : Bool) (num den : Nat) : Word := BitVec.ofNat 32 (roundRat .fp32 .ieee .rne neg num den 0).bits

/-- An integer rounded once to FP32 by RNE. -/
def intF32 (i : Int) : Word := toF32 (Ex.ofInt i)

/-- fma with an exact first operand, rounded once (R177). -/
def ffmaEx (a : Ex) (b c : Word) : Word := toF32 (Ex.add (Ex.mul a (f32 b)) (f32 c))

/-- A result with the sign of x. -/
def withSignOf (x y : Word) : Word := (y &&& 0x7FFFFFFF) ||| (x &&& 0x80000000)

/-- a < b on FP32 words, false when either is NaN. -/
def flt (a b : Word) : Bool := Ex.lt (f32 a) (f32 b)
/-- a <= b on FP32 words, false when either is NaN. -/
def fle (a b : Word) : Bool := flt a b || Ex.eqv (f32 a) (f32 b)

/-- exp2 of R177. -/
def exp2 (x : Word) : Word :=
  match f32 x with
  | .nan => f32Nan
  | .inf neg => if neg then 0 else 0x7F800000
  | .fin neg mm e =>
    if !Ex.lt (.fin neg mm e) (.fin false 128 0) then 0x7F800000
    else if !Ex.lt (.fin true 160 0) (.fin neg mm e) then 0
    else
      let v : Int := (if neg then -1 else 1) * (mm : Int)
      let k := e + 6
      let m : Int := v * (pow2 k : Int) / (pow2 (-k) : Int)
      let fr : Nat := (v * (pow2 k : Int) - m * (pow2 (-k) : Int)).toNat
      let f : Ex := .fin false fr (min k 0 - 6)
      let j := (m % 64).toNat
      let n : Int := (m - (j : Int)) / 64
      let q := ffmaEx f (tabAt conE 2) (tabAt conE 1)
      let q := ffmaEx f q (tabAt conE 0)
      let p := toF32 (Ex.mul f (f32 q))
      let r := ffma (tabAt tabX j) p (tabAt tabX j)
      toF32 (Ex.mul (f32 r) (.fin false 1 n))

/-- log2 of R177. -/
def flog2 (x : Word) : Word :=
  match f32 x with
  | .nan => f32Nan
  | .inf neg => if neg then f32Nan else 0x7F800000
  | .fin _ 0 _ => 0xFF800000
  | .fin neg mm e =>
    if neg then f32Nan
    else
      let b := Nat.log2 mm
      let m : Word := toF32 (.fin false mm (-(b : Int)))
      let j := (mm * 64) / 2 ^ b - 64
      let bj : Word := ratF32 false (64 + j) 64
      let ib : Word := ratF32 false 64 (64 + j)
      let g := fmul (fsub m bj) ib
      let q := ffma g (tabAt conL 3) (tabAt conL 2)
      let q := ffma g q (tabAt conL 1)
      let q := ffma g q (tabAt conL 0)
      let p := fmul g q
      let h := fadd (tabAt tabY j) p
      fadd (intF32 (e + b)) h

/-- tanh of R177. -/
def ftanh (x : Word) : Word :=
  if (f32 x).isNan then f32Nan
  else
    let a := x &&& 0x7FFFFFFF
    let y :=
      if fle 0x41200000 a then 0x3F800000
      else if flt a 0x3E800000 then
        let u := fmul a a
        let q := ffma u (ratF32 true 1382 155925) (ratF32 false 62 2835)
        let q := ffma u q (ratF32 true 17 315)
        let q := ffma u q (ratF32 false 2 15)
        let q := ffma u q (ratF32 true 1 3)
        ffma a (fmul q u) a
      else
        let e := exp2 (fmul a 0x4038AA3B)
        fmul (fsub e 0x3F800000) (frcp (fadd e 0x3F800000))
    withSignOf x y

/-- erf of R177. -/
def ferf (x : Word) : Word :=
  if (f32 x).isNan then f32Nan
  else
    let a := x &&& 0x7FFFFFFF
    let y :=
      if fle 0x40800000 a then 0x3F800000
      else if flt a 0x3D800000 then
        let u := fmul a a
        let q := ffma u (tabAt conF 3) (tabAt conF 2)
        let q := ffma u q (tabAt conF 1)
        let q := ffma u q (tabAt conF 0)
        fmul a q
      else
        let j := (Ex.mul (f32 a) (.fin false 16 0)).toInt.toNat
        let mn := 2 * j + 1
        let m : Word := ratF32 false mn 32
        let h := fsub a m
        let p1 : Word := ratF32 true mn 32
        -- P2 = (2 M^2 - 1) / 3 = (2 mn^2 - 1024) / 3072, P3 = (3 M - 2 M^3) / 6 = (3 x 1024 mn - 2 mn^3) / 196608
        let n2 : Int := 2 * ((mn * mn : Nat) : Int) - 1024
        let n3 : Int := 3072 * (mn : Int) - 2 * ((mn * mn * mn : Nat) : Int)
        let p2 : Word := if n2 = 0 then 0 else ratF32 (decide (n2 < 0)) n2.natAbs 3072
        let p3 : Word := if n3 = 0 then 0 else ratF32 (decide (n3 < 0)) n3.natAbs 196608
        let q := ffma h p3 p2
        let q := ffma h q p1
        let q := ffma h q 0x3F800000
        ffma (tabAt tabD j) (fmul q h) (tabAt tabG j)
    withSignOf x y

/-- sig of R118. -/
def actSig (x : Word) : Word := frcp (fadd 0x3F800000 (exp2 (fneg (fmul x 0x3FB8AA3B))))

/-- relu of R118. -/
def actRelu (x : Word) : Word := if flt 0 x then x else 0

/-- f(x) of the activation with code c (R118). -/
def actF (c : Nat) (x : Word) : Word :=
  match c with
  | 1 => actRelu x
  | 2 =>
    let u := fmul x x; let u := fmul u x; let u := fmul u 0x3D372713; let u := fadd u x
    let u := fmul u 0x3F4C422A; let t := ftanh u; let t := fadd 0x3F800000 t
    fmul (fmul x t) 0x3F000000
  | 3 =>
    let u := fmul x 0x3F3504F3; let t := ferf u; let t := fadd 0x3F800000 t
    fmul (fmul x t) 0x3F000000
  | 4 => fmul x (actSig x)
  | 5 => actSig x
  | 6 => ftanh x
  | 7 =>
    if flt 0x41A00000 x then x
    else
      let m := fmul x 0x3FB8AA3B; let e := exp2 m; let l := flog2 (fadd 0x3F800000 e)
      fmul l 0x3F317218
  | 8 => let r := actRelu x; fmul r r
  | _ => x

/-- f'(z) of the activation with code c (R118). -/
def actD (c : Nat) (z : Word) : Word :=
  match c with
  | 1 => if flt 0 z then 0x3F800000 else 0
  | 2 =>
    let w := fmul z z; let v := fmul w 0x3D372713; let v := fmul v z; let v := fadd v z
    let v := fmul v 0x3F4C422A; let t := ftanh v; let a := fadd 0x3F800000 t; let a := fmul a 0x3F000000
    let q := fmul t t; let q := fsub 0x3F800000 q; let c := fmul w 0x3D372713; let c := fmul c 0x40400000
    let c := fadd 0x3F800000 c; let c := fmul c 0x3F4C422A; let b := fmul z 0x3F000000; let b := fmul b q
    let b := fmul b c
    fadd a b
  | 3 =>
    let u := fmul z 0x3F3504F3; let t := ferf u; let a := fadd 0x3F800000 t; let a := fmul a 0x3F000000
    let h := fmul z z; let h := fmul h 0x3F000000; let h := fmul h 0x3FB8AA3B
    let p := exp2 (fneg h); let p := fmul p 0x3ECC422A; let p := fmul p z
    fadd a p
  | 4 =>
    let s := actSig z; let t := fsub 0x3F800000 s; let t := fmul z t; let t := fadd 0x3F800000 t
    fmul s t
  | 5 => let s := actSig z; let t := fsub 0x3F800000 s; fmul s t
  | 6 => let t := ftanh z; let q := fmul t t; fsub 0x3F800000 q
  | 7 => actSig z
  | 8 => let r := actRelu z; fmul r 0x40000000
  | _ => 0x3F800000

end Sys2Proof.Machine
end

