-- ==== Sys2Proof/Machine/Matrix.lean ====
section
/-! DEFINITION. Matrix.lean: the matrix engine and the drain on their tile: start checks and effects of MMA, the hand-off, DRAIN and DRAIN_SP (R99-R128). -/

namespace Sys2Proof.Machine

/-- Fields of an MMA descriptor (R104). -/
structure MmaDesc where
  aSrc : Nat
  bSrc : Nat
  preSrc : Nat
  kSteps : Nat
  kBase : Nat
  srStart : Nat
  outBase : Nat
  rowStep : Nat
  colStep : Nat
  fmtA : Nat
  fmtB : Nat
  fmtP : Nat
  preload : Nat
  readA : Bool
  readB : Bool
  isEnd : Bool
  srEn : Bool
  stream : Nat
  skip : Nat
  deriving DecidableEq, Repr

/-- Reads an MMA descriptor (R104). -/
def mmaDesc (d : List Byte) : MmaDesc :=
  let fmt := fieldAt d 76 2
  let mode := fieldAt d 78 2
  { aSrc := fieldAt d 40 4, bSrc := fieldAt d 44 4, preSrc := fieldAt d 48 4, kSteps := fieldAt d 52 4
    kBase := fieldAt d 56 4, srStart := fieldAt d 60 4, outBase := fieldAt d 64 4, rowStep := fieldAt d 68 4
    colStep := fieldAt d 72 4, fmtA := bitsOf fmt 3 0, fmtB := bitsOf fmt 7 4, fmtP := bitsOf fmt 11 8
    preload := bitsOf mode 1 0, readA := bitOf mode 2, readB := bitOf mode 3, isEnd := bitOf mode 4
    srEn := bitOf mode 5, stream := fieldAt d 80 2, skip := bitsOf (fieldAt d 88 8) 47 0 }

/-- HOLD of R104: enable, semaphore and threshold of the hand-off. -/
def mmaHoldEn (d : List Byte) : Bool := bitOf (fieldAt d 82 1) 7
def mmaHoldSem (d : List Byte) : Nat := bitsOf (fieldAt d 82 1) 3 0
def mmaHoldT (d : List Byte) : BitVec 16 := BitVec.ofNat 16 (fieldAt d 84 2)

/-- Whether a format code is of the integer class (R102). -/
def fmtInt (c : Nat) : Bool := c == 1 || c == 4 || c == 9

/-- Operand format codes of R103. -/
def fmtOperand (c : Nat) : Bool := decide (c ≤ 7)

/-- Preload formats of the class (R105). -/
def preloadFmtOk (isInt : Bool) (c : Nat) : Bool :=
  if isInt then c == 1 || c == 4 || c == 9 else c == 0 || c == 2 || c == 3 || c == 5 || c == 6 || c == 7 || c == 8

/-- ME_ENCODING of R128. -/
def mmaBadEncoding (d : List Byte) : Bool :=
  let m := mmaDesc d
  !cmdLong d || footprintReserved d 32 || bitsOf (fieldAt d 76 2) 15 12 != 0 || bitsOf (fieldAt d 78 2) 15 6 != 0
  || bitsOf (fieldAt d 82 1) 6 4 != 0 || fieldAt d 83 1 != 0 || fieldAt d 86 2 != 0 || bitsOf (fieldAt d 88 8) 63 48 != 0
  || fieldAt d 96 32 != 0 || !fmtOperand m.fmtA || !fmtOperand m.fmtB || decide (9 < m.fmtP)
  || fmtInt m.fmtA != fmtInt m.fmtB
  || ((m.preload == 1 || m.preload == 2) && !preloadFmtOk (fmtInt m.fmtA) m.fmtP)
  || (fpWr d).len != 0
  || m.aSrc % 64 != 0 || m.bSrc % 64 != 0 || m.preSrc % 64 != 0

/-- The ENGINE sub-codes of an MMA at its start (R128). With LONG = 0 the fields beyond byte 63 read as 0 in the other checks, so that such a command may set FMULTI; the spec does not say what they are taken for (log 205). -/
def mmaChecks (me : Matrix) (d : List Byte) : List Nat :=
  let m := mmaDesc d
  (if mmaBadEncoding d then [0x0001] else [])
  ++ (if m.kSteps = 0 ∨ (m.srEn ∧ m.kBase + m.kSteps > 2 ^ 21 - 1) then [0x0002] else [])
  ++ (if m.srEn ∧ m.outBase + 47 * m.rowStep + 47 * m.colStep ≥ 2 ^ 32 then [0x0003] else [])
  ++ (if m.preload = 3 ∧ (!me.accOpen ∨ me.accInt ≠ fmtInt m.fmtA) then [0x0004] else [])
  ++ (if m.preload = 3 ∧ me.accOpen ∧ me.accSkip ≠ m.skip then [0x0005] else [])
  ++ (if m.preload ≠ 3 ∧ me.accOpen then [0x0006] else [])

/-- A value converted exactly to ACC40; infinity and NaN give NaN in float mode (R105, R111). -/
def toAcc (isInt : Bool) (x : Ex) : Acc :=
  if isInt then (accClamp x.toInt).1 else if x.isFin then (accRound .rne x).1 else accNan

/-- Reads n blocks of 48 x 48 elements that follow one another (R99, R104). -/
def readBlocks (f : Footprint) (src : Nat) (fmt : Fmt) : Nat → Eng (List (Array Nat))
  | 0 => pure []
  | n + 1 => do
    let sz := fmt.bytes 2304
    let bs ← engRead [f] src sz
    let rest ← readBlocks f (src + sz) fmt n
    pure ((elems fmt bs 2304).toArray :: rest)

/-- The element that a side's block delivers at local step q to row or column i (R100); natural reads of A and transposed reads of B run along a row of the block. -/
def blockAt (blk : Array Nat) (rowFirst : Bool) (i q : Nat) : Nat :=
  if rowFirst then blk.getD (48 * i + q) 0 else blk.getD (48 * q + i) 0

/-- The adds of one cell from k-step p on, n of them (R108-R112). -/
def cellAdds (m : MmaDesc) (env : StepEnv) (fa fb : Fmt) (isInt : Bool) (as bs : Array (Array Nat)) (i j o : Nat) : Nat → Nat → Acc × Bool → Acc × Bool
  | 0, _, r => r
  | n + 1, p, r =>
    let a := fa.decode (blockAt (as.getD (p / 48) #[]) (!m.readA) i (p % 48))
    let b := fb.decode (blockAt (bs.getD (p / 48) #[]) m.readB j (p % 48))
    let k := m.kBase + p
    let x := if isInt then accAddInt r.1 a b
      else accAddProd (if m.srEn && decide (m.srStart ≤ k) then .sr (roundBits env.base env.epoch env.postmark m.stream (o * 2 ^ 21 + k)) else .rne) r.1 a b
    cellAdds m env fa fb isInt as bs i j o n (p + 1) (x.1, r.2 || x.2)

/-- Whether row i is skipped (R107). -/
def rowSkipped (skip i : Nat) : Bool := bitOf skip i

/-- Puts the blocks into the operand squares: the last even one into square q, the last odd one into q + 1 (R101). -/
def loadSquares (sq : Sparse Word) (q : Nat) : List (Array Nat) → Nat → Sparse Word
  | [], _ => sq
  | b :: bs, n => loadSquares (Sparse.putRun 0 sq (2304 * (q + n % 2)) (b.toList.map (BitVec.ofNat 32))) q bs (n + 1)

/-- MMA: its accesses are made in the order preload, blocks of A, blocks of B, which decides the fault where several would fault; the spec gives no order (log 203). Preload, products in ascending k, the accumulation left open (R104-R112); the hand-off of an END follows by itself. -/
def mmaRun (env : StepEnv) (d : List Byte) : Eng Unit := do
  let m := mmaDesc d
  match Fmt.ofCode m.fmtA, Fmt.ofCode m.fmtB with
  | some fa, some fb =>
    let isInt := fmtInt m.fmtA
    let fp := (Fmt.ofCode m.fmtP).getD .fp32
    let nb := (m.kSteps + 47) / 48
    let pre ← (if m.preload = 1 then engRead [fpRd2 d] m.preSrc (fp.bytes 48)
      else if m.preload = 2 then engRead [fpRd2 d] m.preSrc (fp.bytes 2304) else pure [])
    let pe := (elems fp pre (if m.preload = 1 then 48 else 2304)).toArray
    let as ← readBlocks (fpRd0 d) m.aSrc fa nb
    let bs ← readBlocks (fpRd1 d) m.bSrc fb nb
    let aa := as.toArray
    let ba := bs.toArray
    engModify fun t =>
      let old := t.me
      let cells := (List.range 2304).map fun c =>
        let i := c / 48
        let j := c % 48
        let prev := Sparse.get 0 old.acc c
        if rowSkipped m.skip i then (prev, false)
        else
          let p0 : Acc := match m.preload with
            | 0 => 0
            | 1 => toAcc isInt (fp.decode (pe.getD j 0))
            | 2 => toAcc isInt (fp.decode (pe.getD c 0))
            | _ => prev
          cellAdds m env fa fb isInt aa ba i j (m.outBase + i * m.rowStep + j * m.colStep) m.kSteps 0 (p0, false)
      { t with me := { old with
          squares := loadSquares (loadSquares old.squares 0 as 0) 2 bs 0
          acc := Sparse.putRun 0 old.acc 0 (cells.map (·.1))
          accOpen := true
          accInt := isInt
          accSat := (m.preload == 3 && old.accSat) || cells.any (·.2)
          accSkip := m.skip } }
  | _, _ => pure ()

/-- The hand-off: accumulators, mode, ACC_SAT and ROW_SKIP go to the drain buffer, the accumulation closes (R113). -/
def Matrix.handOff (m : Matrix) : Matrix :=
  { m with dbFull := true, db := m.acc, dbInt := m.accInt, dbSat := m.accSat, dbSkip := m.accSkip, accOpen := false, accSat := false }

/-- Clears the accumulators and the drain buffer at an entry of R73 (R106, R120). -/
def Matrix.enter (m : Matrix) : Matrix := { m with acc := [], accOpen := false, accInt := false, accSat := false, accSkip := 0, dbFull := false, db := [], dbInt := false, dbSat := false, dbSkip := 0, stats := [], statValid := false }

/-- Fields of a drain descriptor (R115). -/
structure DrainDesc where
  dst : Nat
  dstStride : Nat
  pre : Nat
  preStride : Nat
  vec : Nat
  vecStride : Nat
  stat : Nat
  src : Nat
  srcStride : Nat
  outBase : Nat
  rowStep : Nat
  colStep : Nat
  fmtO : Nat
  fmtPre : Nat
  fmtVec : Nat
  fmtSrc : Nat
  act : Nat
  scaleBase : Nat
  slot : Nat
  stream : Nat
  skip : Nat
  deriving DecidableEq, Repr

/-- Reads a drain descriptor (R115). -/
def drainDesc (d : List Byte) : DrainDesc :=
  let fmt := fieldAt d 80 2
  { dst := fieldAt d 32 4, dstStride := fieldAt d 36 4, pre := fieldAt d 40 4, preStride := fieldAt d 44 4
    vec := fieldAt d 48 4, vecStride := fieldAt d 52 4, stat := fieldAt d 56 4, src := fieldAt d 60 4
    srcStride := fieldAt d 64 4, outBase := fieldAt d 68 4, rowStep := fieldAt d 72 4, colStep := fieldAt d 76 4
    fmtO := bitsOf fmt 3 0, fmtPre := bitsOf fmt 7 4, fmtVec := bitsOf fmt 11 8, fmtSrc := bitsOf fmt 15 12
    act := fieldAt d 82 2, scaleBase := bitsOf (fieldAt d 84 2) 11 0, slot := bitsOf (fieldAt d 86 2) 9 0
    stream := fieldAt d 88 2, skip := bitsOf (fieldAt d 96 8) 47 0 }

/-- Bits of ACT (R115). -/
def DrainDesc.fn (x : DrainDesc) : Nat := bitsOf x.act 3 0
def DrainDesc.deriv (x : DrainDesc) : Bool := bitOf x.act 4
def DrainDesc.dqEn (x : DrainDesc) : Bool := bitOf x.act 5
def DrainDesc.perch (x : DrainDesc) : Bool := bitOf x.act 6
def DrainDesc.statEn (x : DrainDesc) : Bool := bitOf x.act 7
def DrainDesc.statCont (x : DrainDesc) : Bool := bitOf x.act 8
def DrainDesc.dotEn (x : DrainDesc) : Bool := bitOf x.act 9
def DrainDesc.srEn (x : DrainDesc) : Bool := bitOf x.act 10
def DrainDesc.unscaled (x : DrainDesc) : Bool := bitOf x.act 11

/-- Float formats of saved blocks (R115). -/
def savedFmtOk (c : Nat) : Bool := c == 0 || c == 2 || c == 3 || c == 5 || c == 6 || c == 7

/-- Whether the output is packed ACC40 (R117). -/
def DrainDesc.accOut (x : DrainDesc) : Bool := x.fmtO == 8 || x.fmtO == 9

/-- DR_ENCODING of R128; SR_EN is ignored for an ACC40 output (R117). -/
def drainBadEncoding (d : List Byte) (sp : Bool) : Bool :=
  let x := drainDesc d
  !cmdLong d || bitsOf x.act 15 12 != 0 || bitsOf (fieldAt d 84 2) 15 12 != 0 || bitsOf (fieldAt d 86 2) 15 10 != 0
  || fieldAt d 90 6 != 0 || bitsOf (fieldAt d 96 8) 63 48 != 0 || fieldAt d 104 24 != 0
  || decide (9 ≤ x.fn) || decide (9 < x.fmtO) || !savedFmtOk x.fmtPre || !savedFmtOk x.fmtVec
  || (if sp then x.fmtSrc != 8 && x.fmtSrc != 9 else x.fmtSrc != 0 || x.skip != 0)
  || (x.accOut && bitsOf x.act 9 0 != 0) || (x.accOut && x.unscaled)
  || x.dstStride % 8 != 0 || x.preStride % 8 != 0 || x.vecStride % 8 != 0 || x.srcStride % 8 != 0 || x.stat % 64 != 0
  || (x.srEn && !x.accOut && decide (x.outBase + 47 * x.rowStep + 47 * x.colStep ≥ 2 ^ 32))

/-- The ENGINE sub-codes of a DRAIN (sp false) or DRAIN_SP at its start (R128). An empty drain buffer has no mode; in the check of DR_MODE, which falls in the cycle of QUEUE_HAZARD, the model takes it for float (log 204). -/
def drainChecks (me : Matrix) (d : List Byte) (sp : Bool) : List Nat :=
  let x := drainDesc d
  let inInt := if sp then x.fmtSrc == 9 else me.dbInt
  (if drainBadEncoding d sp then [0x0101] else [])
  ++ (if x.statCont ∧ !me.statValid then [0x0103] else [])
  ++ (if x.dqEn ∧ x.perch ∧ x.scaleBase + 47 > 4095 then [0x0104] else [])
  ++ (if x.accOut ∧ (x.fmtO = 9) ≠ (inInt = true) then [0x0105] else [])

/-- Stage 1: the exact product of the ACC40 value and d, rounded once to FP32 (R116). -/
def dequant (isInt : Bool) (a : Acc) (dq : Word) : Word :=
  let v := if isInt then Ex.ofInt (signedOf 40 a.toNat) else Fmt.decode .accF a.toNat
  toF32 (Ex.mul v (f32 dq))

/-- Stage 2: activation or x times its derivative; NaN in gives the canonical NaN (R116, R118, R119). -/
def activate (x : DrainDesc) (v z : Word) : Word :=
  if (f32 v).isNan || (x.deriv && (f32 z).isNan) then f32Nan
  else if x.deriv then fmul v (actD x.fn z) else actF x.fn v

/-- Stage 3: one element folded into its row's statistics (R120). -/
def RowStat.fold (r : RowStat) (dotEn : Bool) (y : Word) (v : Ex) : RowStat :=
  { sum := accAddTerm r.sum (f32 y)
    sumsq := accAddTerm r.sumsq (Ex.mul (f32 y) (f32 y))
    dot := if dotEn then accAddTerm r.dot (Ex.mul (f32 y) v) else r.dot
    max := fmax r.max y }

/-- The 32-byte statistic record of a row (R120). -/
def RowStat.record (r : RowStat) : List Byte :=
  leBytes 5 r.sum.toNat ++ leBytes 5 r.sumsq.toNat ++ leBytes 5 r.dot.toNat ++ [0] ++ leBytes 4 r.max.toNat ++ fillBytes 12 0

/-- What the stages make of one row: codes, the row's statistics, the slot's step state, whether a NaN met a format without NaN. -/
structure DrainRow where
  codes : List Nat
  stat : RowStat
  acc : StepAcc
  nan : Bool
  deriving DecidableEq, Repr

/-- Stages 1 to 6 over the elements of a row from column j on (R116). -/
def drainElems (x : DrainDesc) (env : StepEnv) (isInt : Bool) (fo : Fmt) (scale : Sparse Word) (i : Nat) :
    Nat → List (Acc × Nat × Nat) → DrainRow → DrainRow
  | _, [], r => r
  | j, (a, z, v) :: es, r =>
    let fz := (Fmt.ofCode x.fmtPre).getD .fp32
    let fv := (Fmt.ofCode x.fmtVec).getD .fp32
    let dq : Word := if !x.dqEn then 0x3F800000 else Sparse.get 0 scale (if x.perch then x.scaleBase + j else x.scaleBase)
    let y := activate x (dequant isInt a dq) (toF32 (fz.decode z))
    let stat := if x.statEn then r.stat.fold x.dotEn y (fv.decode v) else r.stat
    let sl := env.slot x.slot
    let q := Ex.mul (f32 y) (f32 (if x.unscaled then 0x3F800000 else sl.1))
    let o := x.outBase + i * x.rowStep + j * x.colStep
    let mode := if x.srEn then RMode.sr (roundBits env.base env.epoch env.postmark x.stream (o * 2 ^ 21 + (2 ^ 21 - 1))) else .rne
    let rd := if (f32 y).isNan then Fmt.round fo .sat .rne .nan else Fmt.round fo .sat mode q
    drainElems x env isInt fo scale i (j + 1) es
      { codes := r.codes ++ [rd.bits], stat := stat, acc := r.acc.element y sl.2 (classify fo q rd), nan := r.nan || rd.nanUncoded }

/-- The offset of row i. The spec does not say what an offset beyond 2^32 is: the model wraps it modulo 2^32, so that a stride may act as negative (log 202). -/
def rowOff (base stride i : Nat) : Nat := (base + stride * i) % 2 ^ 32

/-- The rows of a drain, from row i on (R115-R124). Two points that the spec leaves open: a row reads all its inputs, then writes its output, then the next row begins, which shows where an output overlaps an input of its own command (log 154); and a row that the previous command with STAT_EN skipped continues under STAT_CONT from the statistics it had before that command (log 155). -/
def drainRows (x : DrainDesc) (env : StepEnv) (d : List Byte) (sp isInt : Bool) (skip : Nat) (fo : Fmt) : Nat → Nat → Bool → Eng Bool
  | 0, _, nan => pure nan
  | n + 1, i, nan => do
    if rowSkipped skip i then drainRows x env d sp isInt skip fo n (i + 1) nan
    else
      let accs ← (if sp then do
          let bs ← engRead [fpRd1 d] (rowOff x.src x.srcStride i) 240
          pure ((elems .accF bs 48).map (BitVec.ofNat 40))
        else do
          let t ← engTile
          pure ((List.range 48).map fun j => Sparse.get 0 t.me.db (48 * i + j)))
      if x.accOut then
        let codes := accs.map fun a => if !isInt && (Fmt.decode .accF a.toNat).isNan then accNan.toNat else a.toNat
        engWrite (fpWr d) (rowOff x.dst x.dstStride i) (packElems .accF 0 codes)
        drainRows x env d sp isInt skip fo n (i + 1) nan
      else
        let fz := (Fmt.ofCode x.fmtPre).getD .fp32
        let fv := (Fmt.ofCode x.fmtVec).getD .fp32
        let zs ← (if x.deriv then do
            let bs ← engRead [fpRd0 d] (rowOff x.pre x.preStride i) (fz.bytes 48)
            pure (elems fz bs 48) else pure (List.replicate 48 0))
        let vs ← (if x.statEn && x.dotEn then do
            let bs ← engRead [fpRd1 d] (rowOff x.vec x.vecStride i) (fv.bytes 48)
            pure (elems fv bs 48) else pure (List.replicate 48 0))
        let t ← engTile
        let st := if x.statCont then Sparse.get {} t.me.stats i else {}
        let r := drainElems x env isInt fo t.scale i 0 (accs.zip (zs.zip vs))
          { codes := [], stat := st, acc := Sparse.get {} t.acc x.slot, nan := false }
        engWrite (fpWr d) (rowOff x.dst x.dstStride i) (packElems fo 0 r.codes)
        engModify fun t => { t with
          acc := Sparse.set {} t.acc x.slot r.acc
          me := if x.statEn then { t.me with stats := Sparse.set {} t.me.stats i r.stat } else t.me }
        drainRows x env d sp isInt skip fo n (i + 1) (nan || r.nan)

/-- Writes the statistic records of the rows from i on (R120). -/
def drainRecords (x : DrainDesc) (d : List Byte) (skip : Nat) : Nat → Nat → Eng Unit
  | 0, _ => pure ()
  | n + 1, i => do
    if rowSkipped skip i then drainRecords x d skip n (i + 1)
    else
      let t ← engTile
      engWrite (fpWr d) (rowOff x.stat 32 i) (Sparse.get {} t.me.stats i).record
      drainRecords x d skip n (i + 1)

/-- DRAIN or DRAIN_SP (R115-R124); answers the ENGINE sub-code it raises at completion, 0 for none (R119). -/
def drainRun (env : StepEnv) (d : List Byte) (sp : Bool) : Eng Nat := do
  let x := drainDesc d
  let t ← engTile
  let isInt := if sp then x.fmtSrc == 9 else t.me.dbInt
  let skip := if sp then x.skip else t.me.dbSkip
  let nan ← drainRows x env d sp isInt skip ((Fmt.ofCode x.fmtO).getD .fp32) 48 0 false
  if x.statEn && !x.accOut then
    drainRecords x d skip 48 0
    engModify fun t => { t with me := { t.me with statValid := true } }
  engModify fun t => t.flagAccSat x.slot (!sp && t.me.dbSat)
  pure (if nan then 0x0102 else 0)

/-- A completed DRAIN empties the drain buffer (R113). -/
def Matrix.release (m : Matrix) : Matrix := { m with dbFull := false, db := [], dbInt := false, dbSat := false, dbSkip := 0 }

end Sys2Proof.Machine
end

