-- ==== Sys2Proof/Machine/SeqCommands.lean ====
section
/-! DEFINITION. SeqCommands.lean: the commands that are sequencer instructions: the instruction at the pc of a tile is fetched and, when it is the one commanded, executed (R69-R92, log 2). -/

namespace Sys2Proof.Machine

/-- The section of a tile. -/
def State.tileSect (s : State) (t : Ltn) : Option Nat := s.sectOf (clusterOf t.toNat)

/-- SS_RECORDS that the tile's SYNC is checked against (R92). -/
def State.tileRecords (s : State) (t : Ltn) : Nat :=
  match s.tileSect t with
  | some k => (s.sectN k).ssRecords
  | none => 0

/-- One step of the sequencer of tile t. -/
def State.seqStep (s : State) (t : Ltn) (want : SeqInsn → Bool) : State :=
  s.clocked t fun s => s.setTile t (seqTile want (s.tileRecords t) (s.tile t))

/-- ADD (R76). -/
def execAdd (t : Ltn) (gd ga gb : GReg) (s : State) : Host.Outcome State Fault Refusal :=
  .next (s.seqStep t (fun i => i == .alu .add gd ga gb))

/-- SUB (R76). -/
def execSub (t : Ltn) (gd ga gb : GReg) (s : State) : Host.Outcome State Fault Refusal :=
  .next (s.seqStep t (fun i => i == .alu .sub gd ga gb))

/-- AND (R76). -/
def execAndR (t : Ltn) (gd ga gb : GReg) (s : State) : Host.Outcome State Fault Refusal :=
  .next (s.seqStep t (fun i => i == .alu .and gd ga gb))

/-- OR (R76). -/
def execOrR (t : Ltn) (gd ga gb : GReg) (s : State) : Host.Outcome State Fault Refusal :=
  .next (s.seqStep t (fun i => i == .alu .or gd ga gb))

/-- XOR (R76). -/
def execXor (t : Ltn) (gd ga gb : GReg) (s : State) : Host.Outcome State Fault Refusal :=
  .next (s.seqStep t (fun i => i == .alu .xor gd ga gb))

/-- SLL (R76). -/
def execSll (t : Ltn) (gd ga gb : GReg) (s : State) : Host.Outcome State Fault Refusal :=
  .next (s.seqStep t (fun i => i == .alu .sll gd ga gb))

/-- SRL (R76). -/
def execSrl (t : Ltn) (gd ga gb : GReg) (s : State) : Host.Outcome State Fault Refusal :=
  .next (s.seqStep t (fun i => i == .alu .srl gd ga gb))

/-- SRA (R76). -/
def execSra (t : Ltn) (gd ga gb : GReg) (s : State) : Host.Outcome State Fault Refusal :=
  .next (s.seqStep t (fun i => i == .alu .sra gd ga gb))

/-- SLT (R76). -/
def execSlt (t : Ltn) (gd ga gb : GReg) (s : State) : Host.Outcome State Fault Refusal :=
  .next (s.seqStep t (fun i => i == .alu .slt gd ga gb))

/-- SLTU (R76). -/
def execSltu (t : Ltn) (gd ga gb : GReg) (s : State) : Host.Outcome State Fault Refusal :=
  .next (s.seqStep t (fun i => i == .alu .sltu gd ga gb))

/-- MUL (R76). -/
def execMul (t : Ltn) (gd ga gb : GReg) (s : State) : Host.Outcome State Fault Refusal :=
  .next (s.seqStep t (fun i => i == .alu .mul gd ga gb))

/-- MULHS (R76). -/
def execMulhs (t : Ltn) (gd ga gb : GReg) (s : State) : Host.Outcome State Fault Refusal :=
  .next (s.seqStep t (fun i => i == .alu .mulhs gd ga gb))

/-- MULHU (R76). -/
def execMulhu (t : Ltn) (gd ga gb : GReg) (s : State) : Host.Outcome State Fault Refusal :=
  .next (s.seqStep t (fun i => i == .alu .mulhu gd ga gb))

/-- MIN (R76). -/
def execMinR (t : Ltn) (gd ga gb : GReg) (s : State) : Host.Outcome State Fault Refusal :=
  .next (s.seqStep t (fun i => i == .alu .min gd ga gb))

/-- MAX (R76). -/
def execMaxR (t : Ltn) (gd ga gb : GReg) (s : State) : Host.Outcome State Fault Refusal :=
  .next (s.seqStep t (fun i => i == .alu .max gd ga gb))

/-- MINU (R76). -/
def execMinu (t : Ltn) (gd ga gb : GReg) (s : State) : Host.Outcome State Fault Refusal :=
  .next (s.seqStep t (fun i => i == .alu .minu gd ga gb))

/-- MAXU (R76). -/
def execMaxu (t : Ltn) (gd ga gb : GReg) (s : State) : Host.Outcome State Fault Refusal :=
  .next (s.seqStep t (fun i => i == .alu .maxu gd ga gb))

/-- ADDI (R76). -/
def execAddi (t : Ltn) (gd ga : GReg) (imm : BitVec 16) (s : State) : Host.Outcome State Fault Refusal :=
  .next (s.seqStep t (fun i => i == .imm .addi gd ga imm))

/-- ANDI (R76). -/
def execAndi (t : Ltn) (gd ga : GReg) (imm : BitVec 16) (s : State) : Host.Outcome State Fault Refusal :=
  .next (s.seqStep t (fun i => i == .imm .andi gd ga imm))

/-- ORI (R76). -/
def execOri (t : Ltn) (gd ga : GReg) (imm : BitVec 16) (s : State) : Host.Outcome State Fault Refusal :=
  .next (s.seqStep t (fun i => i == .imm .ori gd ga imm))

/-- XORI (R76). -/
def execXori (t : Ltn) (gd ga : GReg) (imm : BitVec 16) (s : State) : Host.Outcome State Fault Refusal :=
  .next (s.seqStep t (fun i => i == .imm .xori gd ga imm))

/-- SLTI (R76). -/
def execSlti (t : Ltn) (gd ga : GReg) (imm : BitVec 16) (s : State) : Host.Outcome State Fault Refusal :=
  .next (s.seqStep t (fun i => i == .imm .slti gd ga imm))

/-- SLTIU (R76). -/
def execSltiu (t : Ltn) (gd ga : GReg) (imm : BitVec 16) (s : State) : Host.Outcome State Fault Refusal :=
  .next (s.seqStep t (fun i => i == .imm .sltiu gd ga imm))

/-- SHI_SLL (R76). -/
def execShiSll (t : Ltn) (gd ga : GReg) (sh : BitVec 5) (s : State) : Host.Outcome State Fault Refusal :=
  .next (s.seqStep t (fun i => i == .shift .sll gd ga sh))

/-- SHI_SRL (R76). -/
def execShiSrl (t : Ltn) (gd ga : GReg) (sh : BitVec 5) (s : State) : Host.Outcome State Fault Refusal :=
  .next (s.seqStep t (fun i => i == .shift .srl gd ga sh))

/-- SHI_SRA (R76). -/
def execShiSra (t : Ltn) (gd ga : GReg) (sh : BitVec 5) (s : State) : Host.Outcome State Fault Refusal :=
  .next (s.seqStep t (fun i => i == .shift .sra gd ga sh))

/-- LW (R76-R82). -/
def execLw (t : Ltn) (gd ga : GReg) (imm : BitVec 16) (s : State) : Host.Outcome State Fault Refusal :=
  .next (s.seqStep t (fun i => i == .load .lw gd ga imm))

/-- LH (R76-R82). -/
def execLh (t : Ltn) (gd ga : GReg) (imm : BitVec 16) (s : State) : Host.Outcome State Fault Refusal :=
  .next (s.seqStep t (fun i => i == .load .lh gd ga imm))

/-- LHU (R76-R82). -/
def execLhu (t : Ltn) (gd ga : GReg) (imm : BitVec 16) (s : State) : Host.Outcome State Fault Refusal :=
  .next (s.seqStep t (fun i => i == .load .lhu gd ga imm))

/-- LB (R76-R82). -/
def execLb (t : Ltn) (gd ga : GReg) (imm : BitVec 16) (s : State) : Host.Outcome State Fault Refusal :=
  .next (s.seqStep t (fun i => i == .load .lb gd ga imm))

/-- LBU (R76-R82). -/
def execLbu (t : Ltn) (gd ga : GReg) (imm : BitVec 16) (s : State) : Host.Outcome State Fault Refusal :=
  .next (s.seqStep t (fun i => i == .load .lbu gd ga imm))

/-- SW (R76-R82). -/
def execSw (t : Ltn) (gs ga : GReg) (imm : BitVec 16) (s : State) : Host.Outcome State Fault Refusal :=
  .next (s.seqStep t (fun i => i == .store .sw gs ga imm))

/-- SH (R76-R82). -/
def execSh (t : Ltn) (gs ga : GReg) (imm : BitVec 16) (s : State) : Host.Outcome State Fault Refusal :=
  .next (s.seqStep t (fun i => i == .store .sh gs ga imm))

/-- SB (R76-R82). -/
def execSb (t : Ltn) (gs ga : GReg) (imm : BitVec 16) (s : State) : Host.Outcome State Fault Refusal :=
  .next (s.seqStep t (fun i => i == .store .sb gs ga imm))

/-- JALR (R76). -/
def execJalr (t : Ltn) (gd ga : GReg) (imm : BitVec 16) (s : State) : Host.Outcome State Fault Refusal :=
  .next (s.seqStep t (fun i => i == .jalr gd ga imm))

/-- BEQ (R76). -/
def execBeq (t : Ltn) (ga gb : GReg) (off : BitVec 16) (s : State) : Host.Outcome State Fault Refusal :=
  .next (s.seqStep t (fun i => i == .br .beq ga gb off))

/-- BNE (R76). -/
def execBne (t : Ltn) (ga gb : GReg) (off : BitVec 16) (s : State) : Host.Outcome State Fault Refusal :=
  .next (s.seqStep t (fun i => i == .br .bne ga gb off))

/-- BLT (R76). -/
def execBlt (t : Ltn) (ga gb : GReg) (off : BitVec 16) (s : State) : Host.Outcome State Fault Refusal :=
  .next (s.seqStep t (fun i => i == .br .blt ga gb off))

/-- BGE (R76). -/
def execBge (t : Ltn) (ga gb : GReg) (off : BitVec 16) (s : State) : Host.Outcome State Fault Refusal :=
  .next (s.seqStep t (fun i => i == .br .bge ga gb off))

/-- BLTU (R76). -/
def execBltu (t : Ltn) (ga gb : GReg) (off : BitVec 16) (s : State) : Host.Outcome State Fault Refusal :=
  .next (s.seqStep t (fun i => i == .br .bltu ga gb off))

/-- BGEU (R76). -/
def execBgeu (t : Ltn) (ga gb : GReg) (off : BitVec 16) (s : State) : Host.Outcome State Fault Refusal :=
  .next (s.seqStep t (fun i => i == .br .bgeu ga gb off))

/-- LUI (R76). -/
def execLui (t : Ltn) (gd : GReg) (imm : BitVec 21) (s : State) : Host.Outcome State Fault Refusal :=
  .next (s.seqStep t (fun i => i == .lui gd imm))

/-- JAL (R76). -/
def execJal (t : Ltn) (gd : GReg) (imm : BitVec 21) (s : State) : Host.Outcome State Fault Refusal :=
  .next (s.seqStep t (fun i => i == .jal gd imm))

/-- CMD (R76, R85). -/
def execCmd (t : Ltn) (q : BitVec 4) (ga gb : GReg) (tag : BitVec 12) (s : State) : Host.Outcome State Fault Refusal :=
  .next (s.seqStep t (fun i => i == .cmd q ga gb tag))

/-- WAITS (R76, R88). -/
def execWaits (t : Ltn) (q : BitVec 4) (ga : GReg) (s : State) : Host.Outcome State Fault Refusal :=
  .next (s.seqStep t (fun i => i == .waits q ga))

/-- QWAIT (R76). -/
def execQwait (t : Ltn) (q : BitVec 4) (s : State) : Host.Outcome State Fault Refusal :=
  .next (s.seqStep t (fun i => i == .qwait q))

/-- SYNC with a record index (R90, R92). -/
def execSync (t : Ltn) (ga : GReg) (s : State) : Host.Outcome State Fault Refusal :=
  .next (s.seqStep t (fun i => i == .sync ga && (s.tile t).seq.reg ga != 0xFFFFFFFF))

/-- Closing SYNC (R91, R92). -/
def execClosingSync (t : Ltn) (ga : GReg) (s : State) : Host.Outcome State Fault Refusal :=
  .next (s.seqStep t (fun i => i == .sync ga && (s.tile t).seq.reg ga == 0xFFFFFFFF))

/-- TRAP (R76). -/
def execTrap (t : Ltn) (code : BitVec 21) (s : State) : Host.Outcome State Fault Refusal :=
  .next (s.seqStep t (fun i => i == .trap code))

end Sys2Proof.Machine
end

