-- ==== Sys2Proof/Machine/Vector.lean ====
section
/-! DEFINITION. Vector.lean: the vector engine and the sampler on their tile: VPROG, SCAND, SMERGE and SPICK (R167-R192). -/

namespace Sys2Proof.Machine

/-- A stream descriptor (R169). -/
structure VStream where
  off : Nat
  fmtCode : Nat
  en : Bool
  write : Bool
  deriving DecidableEq, Repr

/-- Stream k of a VPROG descriptor (R168, R169). -/
def vStream (d : List Byte) (k : Nat) : VStream :=
  let b := fieldAt d (60 + 8 * k) 1
  { off := fieldAt d (56 + 8 * k) 4, fmtCode := bitsOf b 4 0, en := bitOf b 5, write := bitOf b 6 }

/-- The format of a stream: R102 codes 0x0-0x7, 0x10 for INT32. -/
def streamFmt (c : Nat) : Option Fmt := if c ≤ 7 then Fmt.ofCode c else if c = 0x10 then some .int32 else none

/-- Reserved bits of stream k. -/
def vStreamReserved (d : List Byte) (k : Nat) : Bool := bitOf (fieldAt d (60 + 8 * k) 1) 7 || fieldAt d (61 + 8 * k) 3 != 0

/-- Fields of a VPROG descriptor (R168). -/
def vProg (d : List Byte) : Nat := fieldAt d 32 4
def vNops (d : List Byte) : Nat := bitsOf (fieldAt d 36 1) 6 0
def vRstream (d : List Byte) : Nat := fieldAt d 38 2
def vN (d : List Byte) : Nat := fieldAt d 40 4
def vSrstream (d : List Byte) : Nat := fieldAt d 44 2
def vObase (d : List Byte) : Nat := bitsOf (fieldAt d 48 8) 50 0
def vUstep (d : List Byte) : Word := BitVec.ofNat 32 (fieldAt d 88 4)
def vRed (d : List Byte) : Nat := fieldAt d 92 4
def vConst (d : List Byte) (k : Nat) : Word := BitVec.ofNat 32 (fieldAt d (96 + 4 * k) 4)

/-- A micro-op word's fields (R171). -/
structure MicroOp where
  op : Nat
  vd : Nat
  va : Nat
  vb : Nat
  vc : Nat
  deriving DecidableEq, Repr

/-- Reads a micro-op word (R171). -/
def microOp (w : Nat) : MicroOp :=
  { op := bitsOf w 31 24, vd := bitsOf w 23 18, va := bitsOf w 17 12, vb := bitsOf w 11 6, vc := bitsOf w 5 0 }

/-- The fields that an op uses: vd, va, vb, vc; none for an undefined op (R171). -/
def microUses (op : Nat) : Option (Bool × Bool × Bool × Bool) :=
  if op = 0x00 then some (false, false, false, false)
  else if op = 0x05 then some (true, false, false, false)
  else if op = 0x01 ∨ op = 0x02 ∨ op = 0x03 ∨ op = 0x04 ∨ op = 0x16 ∨ op = 0x17 ∨ (0x20 ≤ op ∧ op ≤ 0x25) ∨ op = 0x38 ∨ op = 0x39
      ∨ (0x48 ≤ op ∧ op ≤ 0x4A) then some (true, true, false, false)
  else if op = 0x10 ∨ op = 0x11 ∨ op = 0x12 ∨ op = 0x14 ∨ op = 0x15 ∨ op = 0x18 ∨ op = 0x19 ∨ (0x28 ≤ op ∧ op ≤ 0x2A)
      ∨ (0x30 ≤ op ∧ op ≤ 0x37) ∨ op = 0x40 then some (true, true, true, false)
  else if op = 0x13 ∨ op = 0x1A ∨ op = 0x2B ∨ op = 0x42 then some (true, true, true, true)
  else if op = 0x41 then some (true, false, true, false)
  else none

/-- Whether a purpose may be named by RBITS and RUNIF (R171). -/
def userPurpose (p : Nat) : Bool := p == 2 || p == 4 || p == 5

/-- Whether a micro-op is a reduction (R175). -/
def isReduction (op : Nat) : Bool := op == 0x48 || op == 0x49 || op == 0x4A

/-- VE_MICROOP of one micro-op (R191). -/
def microBad (d : List Byte) (m : MicroOp) : Bool :=
  match microUses m.op with
  | none => true
  | some (ud, ua, ub, uc) =>
    (!ud && m.vd != 0) || (!ua && m.va != 0) || (!ub && m.vb != 0) || (!uc && m.vc != 0)
    || (m.op == 0x01 && (decide (3 < m.va) || !(vStream d m.va).en || (vStream d m.va).write))
    || ((m.op == 0x02 || m.op == 0x03) && (decide (3 < m.vd) || !(vStream d m.vd).en || !(vStream d m.vd).write))
    || (m.op == 0x04 && decide (7 < m.va))
    || (m.op == 0x40 && (decide (5 < m.va) || !userPurpose m.vb))
    || (m.op == 0x41 && !userPurpose m.vb)
    || (m.op == 0x42 && (decide (7 < m.vb) || decide (7 < m.vc) || decide (65536 < (vConst d m.vb).toNat)))
    || (isReduction m.op && decide (7 < m.vd))

/-- Random bits that a micro-op takes per element, 0 for none (R181). -/
def microBits (m : MicroOp) : Nat := if m.op = 0x40 then 2 ^ m.va else if m.op = 0x41 then 32 else if m.op = 0x42 then 16 else 0

/-- The cases of VE_ENCODING that a micro-op brings about (R173, R181). -/
def microBadEncoding (d : List Byte) (m : MicroOp) : Bool :=
  (m.op == 0x03 && ((decide (m.vd ≤ 3) && ((streamFmt (vStream d m.vd).fmtCode).getD .fp32).isInt) || decide (2 ^ 32 < vObase d + vN d)))
  || (decide (0 < microBits m) && decide (microBits m ≤ 32) && decide (2 ^ 48 ≤ (vObase d + vN d - 1) / (128 / microBits m)))

/-- Bytes of a stream. -/
def vStreamLen (d : List Byte) (k : Nat) : Nat := ((streamFmt (vStream d k).fmtCode).getD .fp32).bytes (vN d)

/-- An overlap of a read and a write stream that R169 forbids. -/
def vStreamClash (d : List Byte) : Bool :=
  (List.range 4).any fun i => (List.range 4).any fun j =>
    let a := vStream d i
    let b := vStream d j
    a.en && b.en && !a.write && b.write && overlaps a.off (vStreamLen d i) b.off (vStreamLen d j)
      && !(a.off == b.off && a.fmtCode == b.fmtCode)

/-- One slot named by two different reduction ops (R175). -/
def redClash (ms : List MicroOp) : Bool :=
  ms.any fun a => ms.any fun b => isReduction a.op && isReduction b.op && a.vd == b.vd && a.op != b.op

/-- The micro-op list of a VPROG as its tile's scratchpad holds it. -/
def vList (sp : Scratchpad) (d : List Byte) : List MicroOp :=
  (elems .int32 (sp.read (vProg d) (4 * vNops d)) (vNops d)).map microOp

/-- Whether the footprints of a descriptor cover a range of the scratchpad row by row (R86). -/
def rdCovers (d : List Byte) (a n : Nat) : Bool :=
  (engReach none (fun o k => [fpRd0 d, fpRd1 d].any fun f => f.covers false o k) false a n).2.isNone

/-- Whether the micro-op list lies within the read footprints (R168). -/
def vListCovered (d : List Byte) : Bool := rdCovers d (vProg d) (4 * vNops d)

/-- The range of the scratchpad that a VPROG reads at its start: its micro-op list, where it lies in the read footprints (R168, R191). -/
def vStartRead (d : List Byte) : Nat × Nat :=
  if decide (1 ≤ vNops d) && decide (vNops d ≤ 64) && vListCovered d then (vProg d, 4 * vNops d) else (0, 0)

/-- The ENGINE sub-codes of a VPROG at its start; the list counts as empty where it could not be read (R191, R201). R168, R169 and R175 make PROG, the streams' OFFSET and RED multiples of 64 and R191 names no code for another value; the model reports VE_ENCODING (log 21). -/
def vprogChecks (sp : Scratchpad) (d : List Byte) : List Nat :=
  let nopsOk := decide (1 ≤ vNops d) && decide (vNops d ≤ 64)
  let ms := if nopsOk && vListCovered d && (sp.check (vProg d) (4 * vNops d)).2.isNone then vList sp d else []
  let bad := !cmdLong d || bitOf (fieldAt d 36 1) 7 || fieldAt d 37 1 != 0 || fieldAt d 46 2 != 0 || bitsOf (fieldAt d 48 8) 63 51 != 0
    || !nopsOk || vN d == 0 || decide (16777216 < vN d) || vProg d % 64 != 0
    || (List.range 4).any (fun k => vStreamReserved d k || (streamFmt (vStream d k).fmtCode).isNone || (vStream d k).off % 64 != 0)
    || vStreamClash d || ms.any (microBadEncoding d) || redClash ms || (ms.any (fun m => isReduction m.op) && vRed d % 64 != 0)
  (if bad then [0x0201] else []) ++ (if ms.any (microBad d) then [0x0202] else [])

/-- The lanes of a register file: 64 registers of 64 words. -/
abbrev VRegs := Array (Array Word)

/-- All registers 0 (R170). -/
def VRegs.zero : VRegs := Array.replicate 64 (Array.replicate 64 0)

/-- Lane p of register r. -/
def VRegs.lane (v : VRegs) (r p : Nat) : Word := (v.getD r #[]).getD p 0

/-- An INT32 of -7..7, -127..127 or any, as ST writes it (R173). -/
def storeInt (f : Fmt) (v : Word) : Nat :=
  match f with
  | .int4 => (clampBits 4 (-7) 7 (signedOf 32 v.toNat)).bits
  | .int8 => (clampBits 8 (-127) 127 (signedOf 32 v.toNat)).bits
  | _ => v.toNat

/-- The code that ST (sr none) or STSR writes, and whether a NaN met a format without NaN (R173). -/
def storeCode (f : Fmt) (sr : Option Nat) (v : Word) : Nat × Bool :=
  if f.isInt then (storeInt f v, false)
  else if f = .fp32 ∧ sr = none then (if (f32 v).isNan then f32Nan.toNat else v.toNat, false)
  else
    let r := Fmt.round f .sat (match sr with | some k => .sr k | none => .rne) (f32 v)
    (r.bits, r.nanUncoded)

/-- The value that LD delivers for an element code: an integer has its two's-complement value (R131, R171); R133's reading of the most negative code is that of operands and preloads. -/
def loadCode (f : Fmt) (c : Nat) : Word :=
  if f = .int32 then BitVec.ofNat 32 c
  else if f.isInt then BitVec.ofInt 32 (signedOf f.width c)
  else toF32 (f.decode c)

/-- Random bits of an element for VPROG (R180, R181). -/
def vRandom (env : StepEnv) (d : List Byte) (purpose b e : Nat) : Nat :=
  ucgBits (ucgSeed env.base env.epoch purpose) (vRstream d) (if purpose = 4 ∨ purpose = 5 then vUstep d else env.postmark) purpose b e

/-- A Bool as an INT32. -/
def boolWord (b : Bool) : Word := if b then 1 else 0

/-- FCVTI: FP32 to INT32 by RNE, clamped; NaN gives 0 (R171). -/
def fcvti (a : Word) : Word := BitVec.ofNat 32 (Fmt.round .int32 .sat .rne (f32 a)).bits

/-- The value of a lane after an arithmetic micro-op (R171, R172, R176, R177); o is the logical index of the position. -/
def microLane (env : StepEnv) (d : List Byte) (m : MicroOp) (o : Nat) (a b c : Word) : Word :=
  match m.op with
  | 0x04 => vConst d m.va
  | 0x05 => BitVec.ofNat 32 o
  | 0x10 => fadd a b
  | 0x11 => fsub a b
  | 0x12 => fmul a b
  | 0x13 => ffma a b c
  | 0x14 => fmin a b
  | 0x15 => fmax a b
  | 0x16 => fabs a
  | 0x17 => fneg a
  | 0x18 => bfRound (Ex.add (f32 a) (f32 b))
  | 0x19 => bfRound (Ex.mul (f32 a) (f32 b))
  | 0x1A => bfRound (Ex.add (Ex.mul (f32 a) (f32 b)) (f32 c))
  | 0x20 => exp2 a
  | 0x21 => flog2 a
  | 0x22 => frcp a
  | 0x23 => frsqrt a
  | 0x24 => ftanh a
  | 0x25 => ferf a
  | 0x28 => boolWord (flt a b)
  | 0x29 => boolWord (fle a b)
  | 0x2A => boolWord (Ex.eqv (f32 a) (f32 b))
  | 0x2B => if c ≠ 0 then a else b
  | 0x30 => a + b
  | 0x31 => a - b
  | 0x32 => a * b
  | 0x33 => a &&& b
  | 0x34 => a ||| b
  | 0x35 => a ^^^ b
  | 0x36 => a <<< (b.toNat % 32)
  | 0x37 => a >>> (b.toNat % 32)
  | 0x38 => intF32 (signedOf 32 a.toNat)
  | 0x39 => fcvti a
  | 0x40 => BitVec.ofNat 32 (vRandom env d m.vb (2 ^ m.va) o)
  | 0x41 => ratF32 false (vRandom env d m.vb 32 o / 256) (2 ^ 24)
  | 0x42 => if (vConst d m.vb).toNat ≤ vRandom env d 2 16 o then fmul a (vConst d m.vc) else 0
  | _ => 0

/-- One level of the lane tree of R175. -/
def laneLevel (f : Word → Word → Word) : List Word → List Word
  | a :: b :: xs => f a b :: laneLevel f xs
  | xs => xs

/-- The lane tree over 64 positions: six levels of neighbours (R175). -/
def laneTree (f : Word → Word → Word) (xs : List Word) : Word :=
  ((laneLevel f (laneLevel f (laneLevel f (laneLevel f (laneLevel f (laneLevel f xs))))))).headD 0

/-- Operation and identity of a reduction (R175). -/
def redOp (op : Nat) : (Word → Word → Word) × Word :=
  if op = 0x48 then (fadd, 0x80000000) else if op = 0x49 then (fmax, 0xFF800000) else (fmin, 0x7F800000)

/-- A store a pass has made: stream and codes. -/
abbrev VStore := Nat × List Nat

/-- State of a VPROG between micro-ops: registers, reduction slots, stores of the pass, NaN met a format without NaN. -/
structure VState where
  regs : VRegs
  slots : Sparse (Option Word) := []
  stores : List VStore := []
  nan : Bool := false

/-- One micro-op of a pass over positions lo .. lo + cnt - 1 (R170-R175). -/
def microStep (env : StepEnv) (d : List Byte) (loads : List (List Word)) (lo cnt : Nat) (m : MicroOp) (v : VState) : VState :=
  if m.op = 0x00 then v
  else if m.op = 0x01 then
    { v with regs := v.regs.setIfInBounds m.vd ((loads.getD m.va [] ++ List.replicate (64 - cnt) 0).toArray) }
  else if m.op = 0x02 ∨ m.op = 0x03 then
    let f := (streamFmt (vStream d m.vd).fmtCode).getD .fp32
    let cs := (List.range cnt).map fun p =>
      let sr := if m.op = 0x03 then some (roundBits env.base env.epoch env.postmark (vSrstream d) ((vObase d + lo + p) * 2 ^ 21 + (2 ^ 21 - 2))) else none
      storeCode f sr (v.regs.lane m.va p)
    { v with stores := v.stores ++ [(m.vd, cs.map (·.1))], nan := v.nan || cs.any (·.2) }
  else if isReduction m.op then
    let (f, ident) := redOp m.op
    let blk := laneTree f (((List.range cnt).map (fun p => v.regs.lane m.va p)) ++ List.replicate (64 - cnt) ident)
    let s := match Sparse.get none v.slots m.vd with
      | some x => f x blk
      | none => blk
    { v with slots := Sparse.set none v.slots m.vd (some s) }
  else
    { v with regs := v.regs.setIfInBounds m.vd (((List.range 64).map fun p =>
        microLane env d m (vObase d + lo + p) (v.regs.lane m.va p) (v.regs.lane m.vb p) (v.regs.lane m.vc p)).toArray) }

/-- The micro-ops of a pass in list order. -/
def microSteps (env : StepEnv) (d : List Byte) (loads : List (List Word)) (lo cnt : Nat) : List MicroOp → VState → VState
  | [], v => v
  | m :: ms, v => microSteps env d loads lo cnt ms (microStep env d loads lo cnt m v)

/-- What stream k delivers for the pass, read before any store of the pass (R170). -/
def passLoad (d : List Byte) (ms : List MicroOp) (lo cnt k : Nat) : Eng (List Word) :=
  if ms.any (fun m => m.op == 0x01 && m.va == k) then do
    let f := (streamFmt (vStream d k).fmtCode).getD .fp32
    let bs ← engRead [fpRd0 d, fpRd1 d] ((vStream d k).off + lo * f.width / 8) (f.bytes cnt)
    pure ((elems f bs cnt).map (loadCode f))
  else pure []

/-- Performs the stores of a pass in list order; an odd number of 4-bit elements ends in half a byte, which is merged (R202). -/
def passStores (d : List Byte) (lo : Nat) : List VStore → Eng Unit
  | [] => pure ()
  | (k, cs) :: rest => do
    let f := (streamFmt (vStream d k).fmtCode).getD .fp32
    let a := (vStream d k).off + lo * f.width / 8
    let n := f.bytes cs.length
    let t ← engTile
    engWrite (fpWr d) a (packElems f (t.sp.byte (a + n - 1)) cs) (f.width == 4 && cs.length % 2 == 1)
    passStores d lo rest

/-- Passes in ascending order (R170). -/
def vPasses (env : StepEnv) (d : List Byte) (ms : List MicroOp) : Nat → Nat → VState → Eng VState
  | 0, _, v => pure v
  | n + 1, c, v => do
    let lo := 64 * c
    let cnt := min 64 (vN d - lo)
    let l0 ← passLoad d ms lo cnt 0
    let l1 ← passLoad d ms lo cnt 1
    let l2 ← passLoad d ms lo cnt 2
    let l3 ← passLoad d ms lo cnt 3
    let v := microSteps env d [l0, l1, l2, l3] lo cnt ms { v with stores := [] }
    passStores d lo v.stores
    vPasses env d ms n (c + 1) v

/-- VPROG (R168-R175); answers the ENGINE sub-code it raises at completion, 0 for none. -/
def vprogRun (env : StepEnv) (d : List Byte) : Eng Nat := do
  let bs ← engRead [fpRd0 d, fpRd1 d] (vProg d) (4 * vNops d)
  let ms := (elems .int32 bs (vNops d)).map microOp
  let v ← vPasses env d ms ((vN d + 63) / 64) 0 { regs := VRegs.zero }
  if ms.any (fun m => isReduction m.op) then
    engWrite (fpWr d) (vRed d) ((List.range 8).flatMap fun q => leBytes 4 ((Sparse.get none v.slots q).getD 0).toNat)
  pure (if v.nan then 0x0203 else 0)

/-! ### Sampler (R184-R189) -/

/-- A candidate: z and position (R184). -/
abbrev Cand := Word × Nat

/-- The padding entry (R184). -/
def candPad : Cand := (0xFF800000, 0xFFFFFFFF)

/-- Whether a candidate stands before another: z descending, then position ascending; padding last (R184). The order of a NaN z, which SCAND never writes, is open: here it compares with nothing and stays where it is inserted (log 199). -/
def candBefore (a b : Cand) : Bool :=
  if a = candPad then false else if b = candPad then true
  else flt b.1 a.1 || (Ex.eqv (f32 a.1) (f32 b.1) && decide (a.2 < b.2))

/-- Inserts a candidate into a list in order. -/
def candInsert (c : Cand) : List Cand → List Cand
  | [] => [c]
  | x :: xs => if candBefore c x then c :: x :: xs else x :: candInsert c xs

/-- The first k of a list of candidates in the order of R184, padded to k. -/
def candTop (k : Nat) (cs : List Cand) : List Cand :=
  let l := cs.foldl (fun acc c => (candInsert c acc).take k) []
  l ++ List.replicate (k - l.length) candPad

/-- The bytes of a candidate list (R184). -/
def candBytes (cs : List Cand) : List Byte := cs.flatMap fun c => leBytes 4 c.1.toNat ++ leBytes 4 c.2

/-- A candidate list from its bytes. -/
def candRead : Nat → List Byte → List Cand
  | 0, _ => []
  | n + 1, bs => (BitVec.ofNat 32 (leNat (bs.take 4)), leNat ((bs.drop 4).take 4)) :: candRead n (bs.drop 8)

/-- The largest finite FP32 and its negative (R185). -/
def fltMax : Word := 0x7F7FFFFF
def fltMin : Word := 0xFF7FFFFF

/-- z of a score (R185). -/
def scoreZ (invT s : Word) : Word :=
  let z := fmul s invT
  if (f32 z).isNan then fltMin else if flt fltMax z then fltMax else if flt z fltMin then fltMin else z

/-- Whether an FP32 word is finite and positive. -/
def finPos (w : Word) : Bool := (f32 w).isFin && flt 0 w

/-- Checks of SCAND at its start (R185, R191). Bits [7:4] of the FMT byte are neither defined nor reserved by name; where they are not 0 the model reports VE_ENCODING (log 198). -/
def scandChecks (d : List Byte) : List Nat :=
  let count := fieldAt d 36 4
  let base := fieldAt d 40 4
  let k := fieldAt d 48 2
  let fmt := bitsOf (fieldAt d 50 1) 3 0
  (if cmdLong d || fieldAt d 51 1 != 0 || fieldAt d 56 8 != 0 || bitsOf (fieldAt d 50 1) 7 4 != 0 then [0x0201] else [])
  ++ (if count = 0 ∨ 2 ^ 20 < count ∨ 2 ^ 20 < base + count ∨ k = 0 ∨ 1024 < k ∨ !finPos (BitVec.ofNat 32 (fieldAt d 44 4)) ∨ (fmt ≠ 5 ∧ fmt ≠ 7)
      then [0x0204] else [])

/-- SCAND (R185). -/
def scandRun (d : List Byte) : Eng Unit := do
  let count := fieldAt d 36 4
  let base := fieldAt d 40 4
  let k := fieldAt d 48 2
  let f : Fmt := if bitsOf (fieldAt d 50 1) 3 0 = 5 then .bf16 else .fp32
  let bs ← engRead [fpRd0 d, fpRd1 d] (fieldAt d 32 4) (f.bytes count)
  let invT : Word := BitVec.ofNat 32 (fieldAt d 44 4)
  let cs := (elems f bs count).zipIdx.map fun e => (scoreZ invT (toF32 (f.decode e.1)), base + e.2)
  engWrite (fpWr d) (fieldAt d 52 4) (candBytes (candTop k cs))

/-- Checks of SMERGE at its start (R186, R191). -/
def smergeChecks (d : List Byte) : List Nat :=
  let k := fieldAt d 44 2
  let o := fieldAt d 40 4
  (if cmdLong d || fieldAt d 46 18 != 0 then [0x0201] else [])
  ++ (if k = 0 ∨ 1024 < k ∨ overlaps o (8 * k) (fieldAt d 32 4) (8 * k) ∨ overlaps o (8 * k) (fieldAt d 36 4) (8 * k) then [0x0204] else [])

/-- SMERGE (R186). -/
def smergeRun (d : List Byte) : Eng Unit := do
  let k := fieldAt d 44 2
  let l ← engRead [fpRd0 d, fpRd1 d] (fieldAt d 32 4) (8 * k)
  let r ← engRead [fpRd0 d, fpRd1 d] (fieldAt d 36 4) (8 * k)
  engWrite (fpWr d) (fieldAt d 40 4) (candBytes (candTop k (candRead k l ++ candRead k r)))

/-- The real entries of a candidate list (R184). -/
def candReal (cs : List Cand) : List Cand := cs.filter (fun c => !(c == candPad))

/-- The range of the scratchpad that a SPICK reads at its start: its LIST, where it lies in the read footprints (R188, R191). -/
def spickStartRead (d : List Byte) : Nat × Nat :=
  let k := fieldAt d 36 2
  if decide (1 ≤ k) && decide (k ≤ 1024) && rdCovers d (fieldAt d 32 4) (8 * k) then (fieldAt d 32 4, 8 * k) else (0, 0)

/-- Checks of SPICK at its start; a LIST that could not be read is not judged (R188, R191, R201). R188 makes RESULT a multiple of 16 and R191 names no code for another value; the model reports VE_ENCODING (log 21). -/
def spickChecks (sp : Scratchpad) (d : List Byte) : List Nat :=
  let k := fieldAt d 36 2
  let p : Word := BitVec.ofNat 32 (fieldAt d 40 4)
  let kOk := decide (1 ≤ k) && decide (k ≤ 1024)
  let covered := rdCovers d (fieldAt d 32 4) (8 * k) && (sp.check (fieldAt d 32 4) (8 * k)).2.isNone
  (if cmdLong d || fieldAt d 56 8 != 0 || bitsOf (fieldAt d 48 8) 63 50 != 0 || fieldAt d 44 4 % 16 != 0 then [0x0201] else [])
  ++ (if !kOk ∨ !(finPos p && fle p 0x3F800000) ∨ (kOk ∧ covered ∧ (candReal (candRead k (sp.read (fieldAt d 32 4) (8 * k)))).isEmpty)
      then [0x0204] else [])

/-- The running sums c_r of SPICK (R188). -/
def spickSums (m : Word) : List Cand → Option Word → List Word
  | [], _ => []
  | c :: cs, prev =>
    let e := exp2 (fmul (fsub c.1 m) 0x3FB8AA3B)
    let s := match prev with
      | none => e
      | some p => fadd p e
    s :: spickSums m cs (some s)

/-- SPICK's choice: s, n, V and U for the real entries of a list and a 32-bit draw (R188). Where the sums are NaN no c_r reaches thr and the rule gives n no value: here it is V (log 200). -/
def spickChoose (topP : Word) (u : Nat) (cs : List Cand) : Nat × Nat × Word :=
  let sums := spickSums ((cs.headD candPad).1) cs none
  let thr := fmul topP (sums.getLastD 0)
  let n := 1 + (sums.findIdx? (fun c => fle thr c)).getD (cs.length - 1)
  let U := fmul (ratF32 false (u / 256) (2 ^ 24)) (sums.getD (n - 1) 0)
  let s := ((sums.take n).findIdx? (fun c => flt U c)).getD (n - 1)
  (s, n, U)

/-- SPICK (R188, R189). -/
def spickRun (env : StepEnv) (d : List Byte) : Eng Unit := do
  let k := fieldAt d 36 2
  let bs ← engRead [fpRd0 d, fpRd1 d] (fieldAt d 32 4) (8 * k)
  let cs := candReal (candRead k bs)
  let u := ucgBits (ucgSeed env.base env.epoch 3) (fieldAt d 38 2) env.postmark 3 32 (bitsOf (fieldAt d 48 8) 49 0)
  let (s, n, U) := spickChoose (BitVec.ofNat 32 (fieldAt d 40 4)) u cs
  let c := cs.getD s candPad
  engWrite (fpWr d) (fieldAt d 44 4) (leBytes 4 c.2 ++ leBytes 4 c.1.toNat ++ leBytes 2 n ++ leBytes 2 cs.length ++ leBytes 4 U.toNat)

end Sys2Proof.Machine
end

