-- ==== Sys2Proof/Machine/QueueCommands.lean ====
section
/-! DEFINITION. QueueCommands.lean: the commands of the tile queues: start checks, the engines' effects, hand-off, completion, bank transitions and scrubbing (R84-R89, R99-R129, R167-R192, R204, R211-R222, R289-R291). -/

namespace Sys2Proof.Machine

/-- Base seed of a section in effect (R183). -/
def State.baseSeed (s : State) (k : Nat) : Dword :=
  BitVec.ofNat 64 (s.reg (oSect k + sSeedLo) + 2 ^ 32 * s.reg (oSect k + sSeedHi))

/-- What the step in progress supplies to the engines of a section (R116, R156, R180). -/
def State.stepEnv (s : State) (k : Nat) : StepEnv :=
  let x := s.sectN k
  let (e, p) := match x.run with
    | some r => (r.epoch, stPostmark r.desc)
    | none => (0, 0)
  { base := s.baseSeed k, epoch := BitVec.ofNat 32 e, postmark := BitVec.ofNat 32 p
    scales := x.slots.map fun i => (i.1, (i.2.scale, i.2.held)) }

/-- The section number of a tile, 0 where its cluster belongs to none. -/
def State.sectNo (s : State) (t : Ltn) : Nat := (s.tileSect t).getD 0

/-- The postmark of the step in progress of a tile's section, 0 without one. -/
def State.stepPostmark (s : State) (t : Ltn) : Nat :=
  match (s.sectN (s.sectNo t)).run with
  | some r => stPostmark r.desc
  | none => 0

/-! ### Start (R87, R89, R114, R128, R214, R290) -/

/-- The commands of other queues issued before a command, as (queue, entry). -/
def Tile.earlier (t : Tile) (q order : Nat) : List (Nat × QEntry) :=
  (t.queueList.zipIdx.filter (fun e => e.2 != q)).flatMap fun e =>
    (e.1.filter (fun x => decide (x.order < order))).map fun x => (e.2, x)

/-- Whether a command conflicts with an earlier one (R89). -/
def conflicts (q : Nat) (d : List Byte) (q' : Nat) (d' : List Byte) : Bool :=
  (fpWr d' :: readFps q' d').any (fun f => (fpWr d).meets f) || (readFps q d).any (fun f => f.meets (fpWr d'))

/-- The queue of the earliest issued command that a command conflicts with (R89, R94). -/
def Tile.hazard (t : Tile) (q : Nat) (e : QEntry) : Option Nat :=
  let cs := (t.earlier q e.order).filter (fun x => conflicts q e.desc x.1 x.2.desc)
  match cs with
  | [] => none
  | c :: rest => some (rest.foldl (fun m x => if x.2.order < m.2.order then x else m) c).1

/-- The programs' extents that TS_OWNED looks at: the timetable and the carry region of the program in execution (R215). -/
def Section.extents (x : Section) (ltn : Nat) : List (Nat × Nat) :=
  match x.program with
  | some p => ((p.tile ltn).ttOff, (p.tile ltn).ttLen) :: p.timetables.map fun t => (t.carryBase, t.carrySize * t.maxSeg)
  | none => []

/-- The ENGINE sub-codes of the engine's own start checks. -/
def Tile.engineChecks (t : Tile) (x : Section) (ltn q : Nat) (d : List Byte) : List Nat :=
  match q with
  | 0 => mmaChecks t.me d
  | 1 => drainChecks t.me d (cmdOp d == 2)
  | 2 =>
    match cmdOp d with
    | 1 => vprogChecks t.sp d
    | 2 => scandChecks d
    | 3 => smergeChecks d
    | _ => spickChecks t.sp d
  | 4 => if dhOk d then [] else [0x0301]
  | 5 => if duOk d then [] else [0x0401]
  | 6 => (if dlOk d then [] else [0x0301])
    ++ (if tpwrOwned t.ts (if x.progValid then some x.prog else none) (x.extents ltn) d then [0x0303] else [])
  | _ => moChecks d

/-- Which memory judgement a started DMA command fails: a fault (an ENGINE fault with its sub-code), the dead letter (reason, write, address, length) and the STALE_VERSION event (group, postmark). -/
structure Judgement where
  fault : Nat × Nat
  letter : Option (Nat × Bool × Nat × Nat)
  stale : Option (Nat × Nat)
  deriving DecidableEq, Repr

/-- TS_ASLEEP (R220). -/
def subAsleep : Nat := 0x0302

/-- Version ranges first, bank states after them; a command that meets sleeping banks on both sides logs one dead letter, that of its read (R214, R290, R291, log 157). -/
def Tile.judge (t : Tile) (d : List Byte) : List Judgement :=
  let rd := match tsReadFp d with
    | none => []
    | some f => match staleRange t.ranges f.off f.len with
      | some r => [{ fault := (fEngine, 0x0402), letter := none, stale := some (r.group, r.before) }]
      | none => match t.ts.asleep f.off f.len with
        | some b => [{ fault := (fEngine, subAsleep), letter := some (4, false, b.1, b.2), stale := none }]
        | none => []
  let wr := match tsWriteFp d with
    | none => []
    | some f => match lockedRange t.ranges f.off f.len with
      | some _ => [{ fault := (fEngine, 0x0404), letter := some (0x0A, true, f.off, f.len), stale := none }]
      | none => match t.ts.asleep f.off f.len with
        | some b => [{ fault := (fDeadWrite, b.1), letter := if rd.any (fun j => j.fault = (fEngine, subAsleep)) then none else some (4, true, b.1, b.2), stale := none }]
        | none => []
  rd ++ wr

/-- FADDR of TS_ASLEEP alone is the lowest sleeping offset (R214); beside other failed ENGINE checks it counts by its sub-code (R95, log 26). -/
def asleepPlace (d : List Byte) (t : Tile) (fs : List (Nat × Nat)) : List (Nat × Nat) :=
  if (fs.filter fun f => f.1 == fEngine) = [(fEngine, subAsleep)] then
    fs.map fun f => if f = (fEngine, subAsleep) then
      (fEngine, match (tsReadFp d).bind fun g => t.ts.asleep g.off g.len with
        | some b => b.1
        | none => subAsleep) else f
  else fs

/-- The range of the scratchpad that the start checks of a command read. -/
def startRead (q : Nat) (d : List Byte) : Nat × Nat :=
  if q = 2 ∧ cmdOp d = 1 then vStartRead d else if q = 2 ∧ cmdOp d = 4 then spickStartRead d else (0, 0)

/-- Whether a command's opening write must wait: a started read of the range is not complete, or a version copy has not read it (R291, R298). -/
def Tile.openWaits (t : Tile) (x : Section) (q : Nat) (d : List Byte) : Bool :=
  match tsWriteFp d with
  | none => false
  | some f =>
    (opensRanges t.ranges f.off f.len).any fun r =>
      (t.queueList.zipIdx.any fun e => e.2 != q && e.1.any fun c => c.status != .queued &&
        (match tsReadFp c.desc with
         | some g => r.meets g.off g.len
         | none => false))
      || (match x.copy with
          | some c => c.postmark == r.stamp
          | none => false)

/-- The dead letters and events that go with failed judgements. -/
def State.judged (s : State) (k ltn : Nat) : List Judgement → State
  | [] => s
  | j :: js =>
    let s := match j.stale with
      | some v => s.event 0x0401 k (items [v.1, v.2])
      | none => s
    let s := match j.letter with
      | some l => s.deadLetter l.1 1 l.2.1 l.2.2.1 ltn l.2.2.2
      | none => s
    State.judged s k ltn js

/-- HBM_PARTITION of a D-H command whose remote range lies in HBM (R219, R302). -/
def State.dhRefused (s : State) (q : Nat) (d : List Byte) : Bool :=
  q == 4 && !dhHost d && decide (hbmBase ≤ dhAddr d) && decide (dhAddr d + dhLen d ≤ hbmBase + hbmSize) && !s.allPart 2 (dhAddr d) (dhLen d)

/-- Replaces the front command of a queue. -/
def Tile.setFront (t : Tile) (q : Nat) (e : QEntry) : Tile := t.setQueue q (e :: (t.queue q).tail)

/-- COMMAND_START on a tile with the front command e of queue q: all its start checks fall in one cycle (R95). A word that they read and correct counts here where the command is stopped; one that runs reads it again and counts it then (R201, log 201). -/
def State.startEntry (s : State) (t : Ltn) (q : Nat) (e : QEntry) : State :=
  let k := s.sectNo t
  let x := s.sectN k
  let tile := s.tile t
  let d := e.desc
  let hz := match tile.hazard q e with
    | some n => [(fHazard, n)]
    | none => []
  let empty := if q = 1 ∧ cmdOp d = 1 ∧ !tile.me.dbFull then [(fHazard, 0)] else []
  let subs := tile.engineChecks x t.toNat q d
  let dma := (q == 4 || q == 5 || q == 6) && !(q == 6 && cmdOp d == 5)
  let part := s.dhRefused q d
  let js := if dma then tile.judge d else []
  let rd := tile.sp.check (startRead q d).1 (startRead q d).2
  let bad := match rd.2 with
    | some o => [(fSpUncorr, o)]
    | none => []
  let faults := asleepPlace d tile (bad ++ hz ++ empty ++ subs.map (fun c => (fEngine, c)) ++ (if part then [(fEngine, 0x0403)] else []) ++ js.map (·.fault))
  match faults with
  | f :: fs =>
    let s := if hz.isEmpty then s.judged k t.toNat js else s
    let s := if part && hz.isEmpty then s.deadLetter 9 1 (cmdOp d == 2) (dhAddr d) t.toNat (dhLen d) else s
    s.setTile t ((tile.count 3 rd.1).raise e.cmdPc e.tag (f :: fs))
  | [] =>
    if dma && tile.openWaits x q d then s
    else
      let tile := tile.setFront q { e with status := .started }
      s.setTile t (if q = 6 ∧ cmdOp d = 5 then { tile with ts := tpwrStart tile.ts d } else tile)

/-- COMMAND_START: the front command of a queue starts once its semaphore is satisfied (R87, R88). -/
def execCommandStart (t : Ltn) (q : BitVec 3) (s : State) : Host.Outcome State Fault Refusal :=
  let tile := s.tile t
  .next (s.clocked t fun s => match tile.queue q.toNat with
    | [] => s
    | e :: _ =>
      if tile.fault.isSome || e.status != .queued
        || (cmdWaitEn e.desc && !semSatisfies (tile.seq.sem (cmdWaitSem e.desc)) (BitVec.ofNat 16 e.thr)) then s
      else s.startEntry t q.toNat e)

/-! ### Completion (R87, R90) -/

/-- Adds 1 to a semaphore. -/
def Seq.signal (q : Seq) (i : Nat) : Seq := { q with sems := q.sems.setIfInBounds i (q.sem i + 1) }

/-- A SYNC in its step 1 whose queues have drained arrives at the barrier (R90). -/
def Tile.arrive (t : Tile) : Tile :=
  match t.seq.status with
  | .syncing k => if t.idle then { t with seq := { t.seq with status := .arrived k } } else t
  | _ => t

/-- Takes the front command of a queue away and signals its semaphore. -/
def Tile.finish (t : Tile) (q : Nat) (d : List Byte) : Tile :=
  let t := t.setQueue q (t.queue q).tail
  (if cmdSigEn d then { t with seq := t.seq.signal (cmdSigSem d) } else t).arrive

/-- COMMAND_COMPLETE on a tile with the front command e of queue q: it completes, then raises what it raises at completion (R84, R113, R119, R173). -/
def Tile.completeEntry (t : Tile) (q : Nat) (e : QEntry) : Tile :=
  let t := if q = 1 ∧ cmdOp e.desc = 1 then { t with me := t.me.release } else t
  let t := t.finish q e.desc
  if e.endFault = 0 then t else t.raise e.cmdPc e.tag [(fEngine, e.endFault)]

/-- Whether the effect of the front command has been performed in full: an END MMA completes with its hand-off, a TPWR when every bank has reached its target (R113, R212). -/
def Tile.entryDone (t : Tile) (q : Nat) (e : QEntry) : Bool :=
  e.status == .executed && !(q == 0 && (mmaDesc e.desc).isEnd) && !(q == 6 && cmdOp e.desc == 5 && !tpwrDone t.ts e.desc)

/-- COMMAND_COMPLETE: the front command of a queue completes (R87). -/
def execCommandComplete (t : Ltn) (q : BitVec 3) (s : State) : Host.Outcome State Fault Refusal :=
  let tile := s.tile t
  .next (s.clocked t fun s => match tile.queue q.toNat with
    | [] => s
    | e :: _ => if tile.fault.isNone && tile.entryDone q.toNat e then s.setTile t (tile.completeEntry q.toNat e) else s)

/-! ### Engine effects -/

/-- The front command of a queue with operation op that runs, or that a fault stops. -/
def Tile.inExecution (t : Tile) (q op : Nat) : Option QEntry :=
  match t.queue q with
  | [] => none
  | e :: _ => if cmdOp e.desc = op ∧ (e.status = .stopping ∨ (e.status = .started ∧ t.fault = none)) then some e else none

/-- An engine's work for a command on its tile: answer, tile after it and bytes sent away. What it does beyond the accesses it may still make stays undone where a fault stops it (R96). -/
def Tile.work {α : Type} (t : Tile) (q : Nat) (e : QEntry) (f : Eng α) : Except (Nat × Nat) α × EngState :=
  f.run { tile := t, grant := if e.status = .stopping then some (Config.accessesLeft q e.order) else none }

/-- A tile without the front command of a queue: it has stopped (R96). -/
def Tile.dropFront (t : Tile) (q : Nat) : Tile := t.setQueue q (t.queue q).tail

/-- The command at the front of a queue after its work: executed with what it raises at completion, or gone, where a fault of its own accesses has stopped it (R86) or it was stopping (R96). -/
def Tile.worked (t : Tile) (q : Nat) (e : QEntry) : Except (Nat × Nat) Nat → Tile
  | .ok n => if e.status = .stopping then t.dropFront q else t.setFront q { e with status := .executed, endFault := n }
  | .error c => if e.status = .stopping then t.dropFront q else (t.dropFront q).raise e.cmdPc e.tag [c]

/-- Runs an engine on a tile for the front command of queue q with operation op. -/
def Tile.runEngine (t : Tile) (q op : Nat) (f : List Byte → Eng Nat) : Tile :=
  match t.inExecution q op with
  | none => t
  | some e =>
    let r := t.work q e (f e.desc)
    r.2.tile.worked q e r.1

/-- Runs an engine of tile t. -/
def State.engine (s : State) (t : Ltn) (q op : Nat) (f : StepEnv → List Byte → Eng Nat) : State :=
  s.clocked t fun s => s.setTile t ((s.tile t).runEngine q op (f (s.stepEnv (s.sectNo t))))

/-- An engine effect that raises nothing at completion. -/
def quiet (x : Eng Unit) : Eng Nat := do
  x
  pure 0

/-- MMA (R104-R112). -/
def execMma (t : Ltn) (s : State) : Host.Outcome State Fault Refusal := .next (s.engine t 0 1 fun e d => quiet (mmaRun e d))

/-- The hand-off on a tile (R113, R114). -/
def Tile.handOff (t : Tile) : Tile :=
  match t.queue 0 with
  | [] => t
  | e :: _ =>
    if t.fault.isSome || e.status != .executed || !(mmaDesc e.desc).isEnd
      || (mmaHoldEn e.desc && !semSatisfies (t.seq.sem (mmaHoldSem e.desc)) (mmaHoldT e.desc)) then t
    else if t.me.dbFull then t.raise e.cmdPc e.tag [(fHazard, 1)]
    else Tile.finish { t with me := t.me.handOff } 0 e.desc

/-- HAND_OFF: the accumulators go to the drain buffer and the END MMA completes (R113). -/
def execHandOff (t : Ltn) (s : State) : Host.Outcome State Fault Refusal := .next (s.clocked t fun s => s.setTile t (s.tile t).handOff)

/-- DRAIN (R115-R124). -/
def execDrain (t : Ltn) (s : State) : Host.Outcome State Fault Refusal := .next (s.engine t 1 1 fun e d => drainRun e d false)

/-- DRAIN_SP (R115-R124). -/
def execDrainSp (t : Ltn) (s : State) : Host.Outcome State Fault Refusal := .next (s.engine t 1 2 fun e d => drainRun e d true)

/-- VPROG (R168-R178). -/
def execVprog (t : Ltn) (s : State) : Host.Outcome State Fault Refusal := .next (s.engine t 2 1 fun e d => vprogRun e d)

/-- SCAND (R185). -/
def execScand (t : Ltn) (s : State) : Host.Outcome State Fault Refusal := .next (s.engine t 2 2 fun _ d => quiet (scandRun d))

/-- SMERGE (R186). -/
def execSmerge (t : Ltn) (s : State) : Host.Outcome State Fault Refusal := .next (s.engine t 2 3 fun _ d => quiet (smergeRun d))

/-- SPICK (R188, R189). -/
def execSpick (t : Ltn) (s : State) : Host.Outcome State Fault Refusal := .next (s.engine t 2 4 fun e d => quiet (spickRun e d))

/-- FILL (R204). -/
def execFill (t : Ltn) (s : State) : Host.Outcome State Fault Refusal := .next (s.engine t 7 1 fun _ d => quiet (fillRun d))

/-- COPY (R204). -/
def execCopy (t : Ltn) (s : State) : Host.Outcome State Fault Refusal := .next (s.engine t 7 2 fun _ d => quiet (copyRun d))

/-- TS_READ (R217, R218). -/
def execTsRead (t : Ltn) (s : State) : Host.Outcome State Fault Refusal := .next (s.engine t 6 1 fun _ d => quiet (tsReadRun d))

/-- TS_WRITE (R217, R218, R290). -/
def execTsWrite (t : Ltn) (s : State) : Host.Outcome State Fault Refusal :=
  .next (s.engine t 6 2 fun _ d => quiet (tsWriteRun (s.stepPostmark t) d))

/-- TFILL (R217, R218, R290). -/
def execTfill (t : Ltn) (s : State) : Host.Outcome State Fault Refusal :=
  .next (s.engine t 6 3 fun _ d => quiet (tfillRun (s.stepPostmark t) d))

/-- TCOPY (R207, R217, R290). -/
def execTcopy (t : Ltn) (s : State) : Host.Outcome State Fault Refusal :=
  .next (s.engine t 6 4 fun _ d => quiet (tcopyRun (s.stepPostmark t) d))

/-- TPWR (R212): the banks' transitions are BANK_TRANSITION's; one whose bank is in the target state takes no time. -/
def execTpwr (t : Ltn) (s : State) : Host.Outcome State Fault Refusal := .next (s.engine t 6 5 fun _ _ => pure 0)

/-! ### D-H and D-U (R219, R289) -/

/-- A D-H transfer on its tile: HREAD writes bs locally; HWRITE sends away what it reads, the rows before one that cannot be read too (R96, R219). -/
def dhLocalRun (postmark : Nat) (d bs : List Byte) : Eng Nat := do
  if cmdOp d = 1 then
    if (fpWr d).ts then engTsWrite postmark (dhLocal d) bs else engWrite (fpWr d) (dhLocal d) bs
  else
    let r ← if (fpRd0 d).ts then engTsTry (dhLocal d) (dhLen d) else engTry [fpRd0 d] (dhLocal d) (dhLen d)
    modify fun s => { s with out := r.1 }
    engStop r.2
  pure 0

/-- HREAD with the bytes that the remote range holds. -/
def State.hreadWith (s : State) (t : Ltn) (e : QEntry) (bs : List Byte) : State :=
  let r := (s.tile t).work 4 e (dhLocalRun (s.stepPostmark t) e.desc (padTo (dhLen e.desc) bs))
  s.setTile t (r.2.tile.worked 4 e r.1)

/-- HREAD (R219): from host memory the data operand is what the read returns; from HBM an uncorrectable unit delivers nothing, the command is over and the section faults (R96, R441). -/
def execHread (t : Ltn) (data : List Byte) (s : State) : Host.Outcome State Fault Refusal :=
  .next (s.clocked t fun s => match (s.tile t).inExecution 4 1 with
    | none => s
    | some e =>
      if dhHost e.desc then s.hreadWith t e data
      else match s.hbmBadUnit (dhAddr e.desc) (dhLen e.desc) with
        | some u => ((s.setTile t ((s.tile t).dropFront 4)).hbmUncorr (s.sectNo t) u).faultSect (s.sectNo t) 0x0A07
        | none => s.hreadWith t e (s.hbm.readBytes (dhAddr e.desc) (dhLen e.desc)))

/-- HWRITE (R219): a posted write to host memory, or a write of HBM. -/
def execHwrite (t : Ltn) (s : State) : Host.Outcome State Fault Refusal :=
  .next (s.clocked t fun s => match (s.tile t).inExecution 4 2 with
    | none => s
    | some e =>
      let r := (s.tile t).work 4 e (dhLocalRun 0 e.desc [])
      let s := s.setTile t (r.2.tile.worked 4 e r.1)
      if r.2.out = [] then s
      else if dhHost e.desc then s.hostWrite (dhAddr e.desc) r.2.out else s.hbmWrite (dhAddr e.desc) r.2.out)

/-- Group and slice of a target word (R271). -/
def tgGroup (w : Nat) : Nat := bitsOf w 11 2
def tgSlice (w : Nat) : Nat := bitsOf w 29 12

/-- The slices of a group that the image drains before slice n (R266). -/
def ProgImage.drainsBefore (p : ProgImage) (g n : Nat) : List Nat :=
  match p.drains.find? fun e => e.1 == g && e.2.contains n with
  | some e => e.2.takeWhile (· != n)
  | none => []

/-- The slices of a group that its update die has accepted in the step (R272). -/
def Section.accepted (x : Section) (g : Nat) : List Nat :=
  match Sparse.get none x.groups g with
  | some v => v.slices
  | none => []

/-- Whether a slice may enter plane U: its group's input buffer at the update die holds less than one slice and returns credits only as slices are consumed, and the slices of a group leave in the image's drain order (R266, R267, R272, log 164). -/
def State.sliceReady (s : State) (m : SliceMsg) : Bool :=
  let g := tgGroup m.target
  let x := s.sectN m.sect
  let before := match x.program with
    | some p => p.drainsBefore g (tgSlice m.target)
    | none => []
  s.slices.toList.all (fun q => q.all fun o => o.sect != m.sect || tgGroup o.target != g) && before.all (x.accepted g).contains

/-- Puts a slice on plane U toward its update die (R229, R271). -/
def State.pushSlice (s : State) (m : SliceMsg) : State :=
  let d := m.target % 4
  { s with slices := s.slices.setIfInBounds d (s.slices.toList.getD d [] ++ [m]) }

/-- The slice that a USEND sends. -/
def usendSlice (sect ltn : Nat) (d data : List Byte) : SliceMsg := { sect := sect, target := duTarget d, data := data, origin := ltn }

/-- USEND: the slice goes to plane U once it has been read whole and the group's input buffer takes it (R272, R289). -/
def execUsend (t : Ltn) (s : State) : Host.Outcome State Fault Refusal :=
  .next (s.clocked t fun s => match (s.tile t).inExecution 5 1 with
    | none => s
    | some e =>
      if !s.sliceReady (usendSlice (s.sectNo t) t.toNat e.desc []) then s
      else
        let r := (s.tile t).work 5 e (do
          let bs ← engRead [fpRd0 e.desc] (duSrc e.desc) (duLen e.desc)
          modify fun s => { s with out := bs }
          pure 0)
        let s := s.setTile t (r.2.tile.worked 5 e r.1)
        if r.2.out = [] then s else s.pushSlice (usendSlice (s.sectNo t) t.toNat e.desc r.2.out))

/-- UCOUNT: the value waits in the step state for the next boundary (R289). -/
def execUcount (t : Ltn) (s : State) : Host.Outcome State Fault Refusal :=
  .next (s.engine t 5 2 fun _ d => do
    engModify fun x => { x with ucounts := x.ucounts ++ [(duGroup d, duCounter d, duValue d)] }
    pure 0)

/-! ### Banks and scrubbing (R212-R214, R221) -/

/-- The rows of the held writes that meet a bank leave the hold, in order of arrival, and are judged by the bank's state; a write whose last row has been judged is gone (R213, R214). -/
def State.unhold (s : State) (t : Ltn) (b : Nat) : State :=
  let held := (s.tile t).ts.held
  let s := s.setTile t { s.tile t with ts := { (s.tile t).ts with held := [] } }
  held.foldl (fun s h => s.judgeRows t.toNat h (h.rows.filter fun r => tsBankOf (64 * r) == b)) s

/-- BANK_TRANSITION: a bank of a started TPWR turns once no counted access is in flight, then the accesses held at its port are performed or dropped; where a fault has stopped the TPWR they are judged by the state the bank has (R96, R213, R214). -/
def execBankTransition (t : Ltn) (bank : BitVec 4) (s : State) : Host.Outcome State Fault Refusal :=
  let tile := s.tile t
  let b := tile.ts.bank bank.toNat
  .next (match b.target with
    | none => s.unhold t bank.toNat
    | some x =>
      if b.inWrites ≠ 0 ∨ b.inReads ≠ 0 then s
      else (s.setTile t { tile with ts := bankTurn tile.ts bank.toNat x }).unhold t bank.toNat)

/-- The words of a row that an error makes correctable, and the first it does not (R201, R209). -/
def scrubCheck (tile : Tile) (ts : Bool) (o : Nat) : Nat × Option Nat :=
  if ts then tile.ts.check o 64 else tile.sp.check o 64

/-- Writes a corrected row back. -/
def scrubFix (tile : Tile) (ts : Bool) (o : Nat) : Tile :=
  if ts then { tile with ts := tile.ts.write o (tile.ts.read o 64) } else { tile with sp := tile.sp.settle (wordsOf o 64 16) }

/-- SCRUB: the scrubber of a bank reads its next row (R221). -/
def execScrub (t : Ltn) (ts : Bool) (bank : BitVec 4) (s : State) : Host.Outcome State Fault Refusal :=
  let tile := s.tile t
  let i := bank.toNat + (if ts then 16 else 0)
  let row := tile.scrub.toList.getD i 0
  let rows := if ts then 24576 else 1024
  let o := bank.toNat * (rows * 64) + 64 * row
  .next (s.clocked t fun s =>
    if !bitOf (s.reg oScrubCfg) 16 || (ts && (tile.ts.bank bank.toNat).st != .on) then s
    else
      let tile := { tile with scrub := tile.scrub.setIfInBounds i ((row + 1) % rows) }
      if !ts && !tile.sp.rowValid o then s.setTile t tile
      else match scrubCheck tile ts o with
        | (_, some w) => (s.setTile t (tile.count 5 1)).event 0x0301 (s.sectNo t) (items [t.toNat, boolNat ts, w])
        | (0, none) => s.setTile t tile
        | (n + 1, none) => s.setTile t ((scrubFix tile ts o).count (if ts then 4 else 3) (n + 1)))

end Sys2Proof.Machine
end

