-- ==== Sys2Proof/Machine/Slots.lean ====
section
/-! DEFINITION. Slots.lean: tensor slots of a section: combination of the step state, scale rule, scale update, probe fill, step report (R149-R166). -/

namespace Sys2Proof.Machine

/-- Slot i of a section. -/
def Section.slot (x : Section) (i : Nat) : Slot := Sparse.get {} x.slots i

/-- Replaces slot i. -/
def Section.setSlot (x : Section) (i : Nat) (v : Slot) : Section := { x with slots := Sparse.set {} x.slots i v }

/-- SECT_SLOT_CFG of a slot in effect (R165). -/
def State.slotCfg (s : State) (k i : Nat) : Nat := (s.regs.get (regKey (oSect k + sSlotCfg) i)).toNat

/-- SECT_SLOT_FIXED of a slot in effect. -/
def State.slotFixed (s : State) (k i : Nat) : Word := s.regs.get (regKey (oSect k + sSlotFixed) i)

/-- Fields of a slot configuration (R165). -/
def cfgMode (c : Nat) : Nat := bitsOf c 1 0
def cfgFmt (c : Nat) : Nat := bitsOf c 5 2
def cfgW (c : Nat) : Nat := bitsOf c 11 6
def cfgMargin (c : Nat) : Nat := bitsOf c 13 12
def cfgReport (c : Nat) : Bool := bitOf c 14

/-- Whether a slot configuration is legal (R165). -/
def cfgOk (c : Nat) : Bool := cfgMode c != 3 && decide (cfgFmt c ≤ 7) && decide (1 ≤ cfgW c) && decide (cfgW c ≤ 32)

/-- Whether a fixed scale is finite and positive (R165). -/
def fixedOk (w : Word) : Bool := decide (0 < w.toNat) && decide (w.toNat < 0x7F800000)

/-- The largest finite value of a format as mantissa and exponent (R155). -/
def fmtMax (c : Nat) : Nat × Int :=
  match Fmt.ofCode c with
  | some f => (match f.decode f.maxCode with
    | .fin _ m e => (m, e)
    | _ => (1, 0))
  | none => (1, 0)

/-- Mantissa and exponent of a finite FP32 value. -/
def finParts (w : Word) : Nat × Int :=
  match f32 w with
  | .fin _ m e => (m, e)
  | _ => (0, 0)

/-- wm: the largest of the newest min(HIST_COUNT, W) entries, +0 without any (R155). -/
def Slot.windowMax (v : Slot) (cfg : Nat) : Word :=
  ((v.hist.drop (v.hist.length - min v.count (cfgW cfg)))).foldl amaxOf 0

/-- The scale rule (R155). -/
def Slot.scaleRule (v : Slot) (cfg : Nat) : Slot :=
  let wm := v.windowMax cfg
  if wm = 0 then { v with held := true, clamped := false }
  else
    let (fm, fe) := fmtMax (cfgFmt cfg)
    let (m, e) := finParts wm
    let d : Int := fe - e - (cfgMargin cfg : Int)
    let r := roundRat .fp32 .sat .rne false fm m d
    let above := decide (16777215 * pow2 104 * m * pow2 (-d) < fm * pow2 d)
    let low := decide (r.bits < 0x00800000)
    { v with held := false, clamped := above || low, scale := if low then 0x00800000 else BitVec.ofNat 32 r.bits }

/-- A new HIST entry (R153). HIST stands oldest first, so the valid entries are the last HIST_COUNT of the 32, and an entry that is not valid leaves at the front (R461, log 206). -/
def Slot.append (v : Slot) (a : Word) : Slot := { v with hist := v.hist.tail ++ [a], count := min 32 (v.count + 1) }

/-- What a seal that makes a configuration effective does to SCALE (R150): OFF gives 1.0, FIXED the fixed value, a change to DELAYED the scale rule. -/
def Slot.configure (v : Slot) (old new : Nat) (fixed : Word) : Slot :=
  match cfgMode new with
  | 0 => if cfgMode old = 0 then v else { v with scale := 0x3F800000 }
  | 2 => { v with scale := fixed }
  | _ =>
    if cfgMode old = 1 then v
    else if v.count = 0 then { v with scale := 0x3F800000, held := false, clamped := false }
    else v.scaleRule new

/-- The state that LOAD and section reset give a slot (R151). HIST_COUNT 0 leaves no entry valid; whether the 32 entries are erased too the spec does not say: the model sets them to 0 (log 207). -/
def Slot.fresh (cfg : Nat) (fixed : Word) : Slot := { scale := if cfgMode cfg = 2 then fixed else 0x3F800000 }

/-! ### Step state -/

/-- Combines slot states over a list of copies (R152). -/
def combineAll (cs : List (Sparse StepAcc)) : Sparse StepAcc :=
  (cs.flatten).foldl (fun m e => Sparse.modify {} m e.1 (fun a => a.combine e.2)) []

/-- The step state of a section's tiles, combined (R152). -/
def State.stepState (s : State) (k : Nat) : Sparse StepAcc := combineAll ((s.ltns k).map fun n => (s.tileN n).acc)

/-- Whether the values that a boundary or fill uses are those that came down the span's tree, or in replay the captured ones; in replay the root of a span has its own (R152, R383, R457). -/
def State.rootValues (s : State) (k : Nat) : Bool :=
  s.joined k || (decide (1 < spanChips (s.sectN k).spanTable) && decide (spanParent (s.sectN k).spanTable < 32))

/-- The combined step state that a boundary or fill uses: in a span the root's values (R152, R383). -/
def State.stepStateAll (s : State) (k : Nat) : Sparse StepAcc :=
  if s.rootValues k then (s.sectN k).span.rootState.foldl (fun m e => Sparse.set {} m e.1 e.2) [] else s.stepState k

/-- Clears the tiles' step state; UCOUNT values stay for the boundary. -/
def State.clearAcc (s : State) (k : Nat) : State :=
  s.mapTiles k fun _ t => if t.acc = [] then t else { t with acc := [] }

/-- Slots that hold state or were reached: every slot that differs from the reset state, ascending. -/
def slotKeys (x : Section) (st : Sparse StepAcc) : List Nat :=
  (List.range 1024).filter fun i => (x.slots.any (fun e => e.1 == i)) || (st.any (fun e => e.1 == i))

/-- Item 2 of R153: STEP_AMAX enters the history of every slot with MODE ≠ 0 that received elements. -/
def State.appendHist (s : State) (k : Nat) (st : Sparse StepAcc) : State :=
  let x := s.sectN k
  s.setSectN k ((List.range 1024).foldl (fun x i =>
    let a := Sparse.get {} st i
    if cfgMode (s.slotCfg k i) ≠ 0 ∧ 0 < a.quantised then x.setSlot i ((x.slot i).append a.amax) else x) x)

/-- Item 4 of R153: the scales of DELAYED slots with history. -/
def State.rescale (s : State) (k : Nat) : State :=
  let x := s.sectN k
  s.setSectN k ((List.range 1024).foldl (fun x i =>
    let c := s.slotCfg k i
    if cfgMode c = 1 ∧ 0 < (x.slot i).count then x.setSlot i ((x.slot i).scaleRule c) else x) x)

/-- Slots declared by the program in execution. -/
def Section.declaredSlots (x : Section) : List Nat :=
  match x.program with
  | some p => p.slots.map (·.slot)
  | none => []

/-- Whether a STEP or HEAD runs the probe variant (R157). -/
def State.needsProbe (s : State) (k : Nat) (p : ProgImage) : Bool :=
  p.slots.any fun d => cfgMode (s.slotCfg k d.slot) == 1 && ((s.sectN k).slot d.slot).count == 0

/-- The fill of a probe pre-pass (R158); named when the descriptor named the probe variant. -/
def State.probeFill (s : State) (k : Nat) (named : Bool) : State :=
  let st := s.stepStateAll k
  let x := s.sectN k
  let x := x.declaredSlots.foldl (fun x i =>
    let c := s.slotCfg k i
    let a := Sparse.get {} st i
    if cfgMode c = 1 ∧ (named ∨ (x.slot i).count = 0) ∧ 0 < a.quantised then
      x.setSlot i { ({ x.slot i with hist := List.replicate 32 a.amax, count := 32 }.scaleRule c) with filled := true }
    else x) x
  ((s.setSectN k x).clearAcc k).count (oSect k + sProbes) 0 1

/-! ### Step report (R163, R164) -/

/-- What a slot record needs from before the scale update: the combined step state and SCALE_USED. -/
structure Latched where
  slot : Nat
  acc : StepAcc
  used : Word
  deriving DecidableEq, Repr

/-- A slot record (R164). WINDOW_MAX is the window maximum of the slot's history in any MODE (log 161, DESIGN CHOICE). -/
def slotRecord (cfg : Nat) (v : Slot) (l : Latched) : List Byte :=
  leBytes 2 l.slot ++ leBytes 1 (cfgMode cfg + 4 * cfgFmt cfg + 64 * cfgMargin cfg)
  ++ leBytes 1 (boolNat l.acc.accSat + 2 * boolNat v.held + 4 * boolNat v.clamped + 8 * boolNat v.filled
      + 16 * boolNat (l.acc.quantised == 0) + 32 * boolNat l.acc.cntSat)
  ++ leBytes 4 l.acc.amax.toNat ++ leBytes 4 l.used.toNat ++ leBytes 4 v.scale.toNat
  ++ leBytes 6 l.acc.quantised ++ leBytes 6 l.acc.saturated ++ leBytes 6 l.acc.flushed ++ leBytes 6 l.acc.subnormal
  ++ leBytes 6 l.acc.zeroRange ++ leBytes 2 v.count ++ leBytes 4 (v.windowMax cfg).toNat ++ leBytes 1 (cfgW cfg) ++ fillBytes 11 0

/-- The step report (R163): the run, latched slot values, whether the boundary's seal was refused. Where that seal changes REPORT, the value after it decides whether a slot has a record (log 208). -/
def State.stepReport (s : State) (k : Nat) (r : StepRun) (ls : List Latched) (anySat sealRefused : Bool) : List Byte :=
  let x := s.sectN k
  let recs := ls.filter fun l => cfgReport (s.slotCfg k l.slot)
  let held := x.slots.any fun e => e.2.held
  leBytes 4 (stPostmark r.desc) ++ leBytes 2 r.tt ++ leBytes 2 k ++ leBytes 4 recs.length
  ++ leBytes 4 (boolNat r.probe + 2 * boolNat sealRefused + 4 * boolNat anySat + 8 * boolNat held)
  ++ leBytes 4 r.stepSs ++ leBytes 4 r.overruns ++ leBytes 4 r.late ++ fillBytes 36 0
  ++ (recs.map fun l => slotRecord (s.slotCfg k l.slot) (x.slot l.slot) l).flatten

/-! ### Slot records of context images and digests (R461, R453) -/

/-- A SLOTS record (R461). -/
def State.slotImage (s : State) (k i : Nat) : List Byte :=
  let v := (s.sectN k).slot i
  let kc := regKey (oSect k + sSlotCfg) i
  let kf := regKey (oSect k + sSlotFixed) i
  let pend := fun key => match Sparse.get none s.regs.staged key with
    | some w => some w
    | none => match Sparse.get none s.regs.next key with
      | some w => some w
      | none => Sparse.get none s.regs.captured key
  let sc := pend kc
  let sf := pend kf
  leBytes 2 (s.slotCfg k i) ++ leBytes 1 (v.count + 64 * boolNat v.held + 128 * boolNat v.clamped)
  ++ leBytes 1 (2 * boolNat sc.isSome + 4 * boolNat sf.isSome)
  ++ leBytes 4 v.scale.toNat ++ leBytes 4 (s.slotFixed k i).toNat ++ leBytes 4 0
  ++ (v.hist.map fun h => leBytes 4 h.toNat).flatten ++ fillBytes 30 0
  ++ leBytes 2 (sc.getD 0).toNat ++ leBytes 4 (sf.getD 0).toNat ++ fillBytes 12 0

/-- The first byte of a SLOTS record that refuses its restore, none where it may be restored (R461). -/
def slotImageBad (b : List Byte) : Option Nat :=
  let c := fieldAt b 0 2
  let st := fieldAt b 174 2
  let f := fieldAt b 3 1
  if !cfgOk c then some 0
  else if bitOf c 15 then some 1
  else if bitsOf f 7 3 != 0 then some 3
  else if bitOf f 1 && !cfgOk st then some 174
  else if bitOf st 15 then some 175
  else (((b.drop 180).take 12).findIdx? (· != 0)).map (180 + ·)

/-- The step state of a SLOTS record (R461). -/
def stepOfImage (b : List Byte) : StepAcc :=
  { amax := BitVec.ofNat 32 (fieldAt b 12 4), quantised := fieldAt b 144 6, saturated := fieldAt b 150 6, flushed := fieldAt b 156 6
    subnormal := fieldAt b 162 6, zeroRange := fieldAt b 168 6, accSat := bitOf (fieldAt b 3 1) 0 }

/-- The slot state of a SLOTS record. -/
def slotOfImage (b : List Byte) : Slot :=
  let f := fieldAt b 2 1
  { scale := BitVec.ofNat 32 (fieldAt b 4 4), hist := (List.range 32).map fun i => BitVec.ofNat 32 (fieldAt b (16 + 4 * i) 4)
    count := bitsOf f 5 0, held := bitOf f 6, clamped := bitOf f 7 }

end Sys2Proof.Machine
end

