-- ==== Sys2Proof/Machine/Groups.lean ====
section
/-! DEFINITION. Groups.lean: parameter-group descriptors, their limits, the layout of a group's HBM areas, masks and slice maps (R261-R263, R268-R272, R281, R290, R307, R492). -/

namespace Sys2Proof.Machine

/-! ### Descriptor fields (R268) -/

def gNum (d : List Byte) : Nat := bitsOf (fieldAt d 0 2) 9 0
def gOwner (d : List Byte) : Bool := bitOf (fieldAt d 2 1) 0
def gDie (d : List Byte) : Nat := bitsOf (fieldAt d 2 1) 2 1
def gRowWords (d : List Byte) : Bool := bitOf (fieldAt d 2 1) 3
def gLazy (d : List Byte) : Bool := bitOf (fieldAt d 2 1) 4
def gRule (d : List Byte) : Nat := bitsOf (fieldAt d 3 1) 2 0
def gAllowed (d : List Byte) : Nat := bitsOf (fieldAt d 4 1) 4 0
def gBsCode (d : List Byte) : Nat := bitsOf (fieldAt d 5 1) 5 0
def gWfmt (d : List Byte) : Nat := bitsOf (fieldAt d 6 1) 3 0
def gLrOff (d : List Byte) : Nat := fieldAt d 7 1
def gRows (d : List Byte) : Nat := fieldAt d 8 4
def gCols (d : List Byte) : Nat := fieldAt d 12 4
def gWslot (d : List Byte) : Nat := fieldAt d 16 2
def gSlotA (d : List Byte) : Nat := fieldAt d 18 2
def gSlotB (d : List Byte) : Nat := fieldAt d 20 2
def gMask (d : List Byte) : Nat := bitsOf (fieldAt d 22 1) 5 0
def gMaskEn (d : List Byte) : Bool := bitOf (fieldAt d 22 1) 7
def gVersion (d : List Byte) : Nat := fieldAt d 24 4
def gMaster (d : List Byte) : Nat := fieldAt d 32 8
def gState (d : List Byte) : Nat := fieldAt d 40 8
def gRowWord (d : List Byte) : Nat := fieldAt d 48 8
def gSliceMap (d : List Byte) : Nat := fieldAt d 56 8
def gHp (d : List Byte) (i : Nat) : Nat := fieldAt d (64 + 4 * i) 4
def gKron (d : List Byte) : Nat := fieldAt d 96 4

/-- v / k rounded up. -/
def ceilDiv (v k : Nat) : Nat := (v + (k - 1)) / k

/-- Slices per row of slices, and slices of a group (R270). -/
def gSliceCols (d : List Byte) : Nat := ceilDiv (gCols d) 48
def gSlices (d : List Byte) : Nat := ceilDiv (gRows d) 48 * gSliceCols d

/-- UPD_GRP_CTL as the descriptor gives it (R268, R307). -/
def gCtl (d : List Byte) : Nat := bitsOf (fieldAt d 3 1) 4 0 + 32 * gBsCode d

/-- Fields of UPD_GRP_CTL (R307). -/
def ctlRule (c : Nat) : Nat := bitsOf c 2 0
def ctlNesterov (c : Nat) : Bool := bitOf c 3
def ctlFault (c : Nat) : Bool := bitOf c 4
def ctlBs (c : Nat) : Nat := bitsOf c 10 5
def ctlForce (c : Nat) : Bool := bitOf c 11

/-- Fields of UPD_GRP_KRON (R307). -/
def krStatT (c : Nat) : Nat := bitsOf c 7 0
def krRootT (c : Nat) : Nat := bitsOf c 23 8
def krRootIt (c : Nat) : Nat := bitsOf c 29 24
def krDelay (c : Nat) : Nat := bitsOf c 31 30

/-! ### Layout (R281, R492) -/

/-- Rows (or columns) of block i of a matrix side, rounded up to a multiple of 48 (R281). -/
def blockSide (n bs i : Nat) : Nat := roundUp (min bs (n - i * bs)) 48

/-- Blocks along a side. -/
def blockCount (n bs : Nat) : Nat := if bs = 0 then 0 else ceilDiv n bs

/-- The blocks of a group for a block size, as (a, b), ascending (R492). -/
def kronBlocks (d : List Byte) (bs : Nat) : List (Nat × Nat) :=
  (List.range (blockCount (gRows d) bs)).flatMap fun a => (List.range (blockCount (gCols d) bs)).map fun b => (a, b)

/-- Bytes of the factors of one block: L and Lr of the rows' order, R and Rr of the columns'. -/
def blockBytes (d : List Byte) (bs : Nat) (ab : Nat × Nat) : Nat :=
  8 * (blockSide (gRows d) bs ab.1) ^ 2 + 8 * (blockSide (gCols d) bs ab.2) ^ 2

/-- Length of the FACTORS region for a BS_CODE (R492). -/
def factorsLen (d : List Byte) (code : Nat) : Nat := ((kronBlocks d (48 * code)).map (blockBytes d (48 * code))).foldl (· + ·) 0

/-- Lengths of the STATE regions M, V, ROWS_STAT, COLS_STAT, SCALAR, FACTORS; 0 for an absent one (R492). -/
def regionLens (d : List Byte) : List Nat :=
  let a := gAllowed d
  let n := 4 * gRows d * gCols d
  let stats := bitOf a 2 || bitOf a 3
  [if bitsOf a 3 0 ≠ 0 then n else 0, if bitOf a 1 then n else 0, if stats then 8 * gRows d else 0,
   if stats then 8 * gCols d else 0, if stats then 64 else 0, if bitOf a 3 then factorsLen d (gBsCode d) else 0]

/-- Offset in STATE of region i: each present region begins at a multiple of 64 (R492). -/
def regionOff (d : List Byte) (i : Nat) : Nat := ((regionLens d).take i).foldl (fun o n => o + roundUp n 64) 0

/-- Length of the STATE area (R492). -/
def stateLen (d : List Byte) : Nat := regionOff d 6

/-- HBM addresses of the state of a group: m and v of element e, r and ra of row i, c and ca of column j, rs. -/
def aMaster (d : List Byte) (e : Nat) : Nat := gMaster d + 4 * e
def aM (d : List Byte) (e : Nat) : Nat := gState d + 4 * e
def aV (d : List Byte) (e : Nat) : Nat := gState d + regionOff d 1 + 4 * e
def aR (d : List Byte) (i : Nat) : Nat := gState d + regionOff d 2 + 4 * i
def aRa (d : List Byte) (i : Nat) : Nat := aR d (gRows d + i)
def aC (d : List Byte) (j : Nat) : Nat := gState d + regionOff d 3 + 4 * j
def aCa (d : List Byte) (j : Nat) : Nat := aC d (gCols d + j)
def aRs (d : List Byte) : Nat := gState d + regionOff d 4
def aRowWord (d : List Byte) (i : Nat) : Nat := gRowWord d + 4 * i
def aSlice (d : List Byte) (n : Nat) : Nat := gSliceMap d + 16 * n

/-- HBM address of the factors of a block for a block size: L, R, Lr, Rr one after the other. -/
def aBlock (d : List Byte) (bs : Nat) (ab : Nat × Nat) : Nat :=
  gState d + regionOff d 5 + (((kronBlocks d bs).takeWhile (· != ab)).map (blockBytes d bs)).foldl (· + ·) 0

/-! ### Limits (R269, R278, R307) -/

/-- Value of an FP32 word is finite. -/
def wFin (w : Nat) : Bool := (f32 (BitVec.ofNat 32 w)).isFin

/-- Value at least 0. -/
def wNonneg (w : Nat) : Bool := wFin w && fle 0 (BitVec.ofNat 32 w)

/-- Value above 0. -/
def wPos (w : Nat) : Bool := wFin w && flt 0 (BitVec.ofNat 32 w)

/-- The limit of UPD_GRP_HP[i]; kron tells whether the limits tied to KRON apply. -/
def hpOk (i w : Nat) (kron : Bool) : Bool :=
  match i with
  | 0 => wNonneg w && flt (BitVec.ofNat 32 w) 0x3F800000
  | 1 => wNonneg w && flt (BitVec.ofNat 32 w) 0x3F800000
  | 2 => wNonneg w
  | 3 => wNonneg w
  | 4 => wFin w && (!kron || wPos w)
  | 5 => wFin w && (!kron || wPos w)
  | _ => w == 0

/-- The limits of UPD_GRP_KRON. -/
def kronOk (c : Nat) : Bool :=
  decide (1 ≤ krStatT c) && decide (1 ≤ krRootT c) && krRootT c % krStatT c == 0 && decide (1 ≤ krRootIt c) && decide (1 ≤ krDelay c)

/-- Whether the reserved bits and ranges of a group descriptor hold (R268, R269). -/
def groupFieldsOk (d : List Byte) : Bool :=
  let slotOk := fun v => decide (v < 1024) || v == 0xFFFF
  bitsOf (fieldAt d 0 2) 15 10 == 0 && bitsOf (fieldAt d 2 1) 7 5 == 0 && bitsOf (fieldAt d 3 1) 7 5 == 0 && decide (gRule d ≤ 4)
  && bitsOf (fieldAt d 4 1) 7 5 == 0 && bitsOf (fieldAt d 5 1) 7 6 == 0 && bitsOf (fieldAt d 6 1) 7 4 == 0
  && [2, 3, 5, 6, 7].contains (gWfmt d) && gLrOff d % 4 == 0 && decide (gLrOff d ≤ 60)
  && decide (1 ≤ gRows d) && decide (gRows d ≤ 2 ^ 24) && decide (1 ≤ gCols d) && decide (gCols d ≤ 2 ^ 24)
  && slotOk (gWslot d) && slotOk (gSlotA d) && slotOk (gSlotB d) && !bitOf (fieldAt d 22 1) 6 && fieldAt d 23 1 == 0
  && decide (gVersion d < 2 ^ 31) && fieldAt d 28 4 == 0 && fieldAt d 100 28 == 0
  && (bitOf (gAllowed d) 3 || gBsCode d == 0)
  && (if gOwner d then gMaster d == 0 && gState d == 0 && gSliceMap d == 0 else true)
  && (gRowWord d == 0 || (!gOwner d && gRowWords d))
  && ((gWfmt d == 2 || gWfmt d == 3) || gWslot d == 0xFFFF)

/-- Whether the areas of an UPDATE_DIE group lie in the UPDATE partition of its die (R269, R492). -/
def State.groupAreasOk (s : State) (d : List Byte) : Bool :=
  let ok := fun a n => n == 0 || (s.inPart 0 a n && (a - hbmBase) / 0x2000000000 == gDie d)
  gOwner d || (ok (gMaster d) (4 * gRows d * gCols d) && gState d % 64 == 0 && ok (gState d) (stateLen d)
    && (!gRowWords d || ok (gRowWord d) (4 * gRows d)) && ok (gSliceMap d) (16 * gSlices d))

/-- Whether a group descriptor keeps R269; fixedSlot tells whether the image declares a slot in FIXED mode, masks whether it declares mask tables. -/
def State.groupOk (s : State) (fixedSlot : Nat → Bool) (masks : Bool) (d : List Byte) : Bool :=
  let a := gAllowed d
  let r := gRule d
  let kron := bitOf a 3
  groupFieldsOk d
  && (if r = 4 then gOwner d else !gOwner d)
  && bitOf a r && !(bitOf a 4 && bitsOf a 3 0 != 0)
  && (!kron || (decide (3 ≤ gBsCode d) && decide (gBsCode d ≤ 42)))
  && !(kron && gLazy d)
  && (!(gWfmt d == 2 || gWfmt d == 3) || (decide (gWslot d < 1024) && fixedSlot (gWslot d)))
  && decide (gSlices d ≤ 2 ^ 18)
  && decide (gLrOff d + 4 ≤ 64) && (!masks || decide (8 ≤ gLrOff d))
  && s.groupAreasOk d
  && (List.range 8).all (fun i => hpOk i (gHp d i) kron) && kronOk (gKron d)
  && (!(r == 2 || r == 3) || wPos (gHp d 2))

/-! ### Groups in State -/

/-- Whether section k is an evaluation section, and its source (R65). -/
def State.evalOn (s : State) (k : Nat) : Bool := bitOf (s.reg (oSect k + sEval)) 4
def State.evalSource (s : State) (k : Nat) : Nat := bitsOf (s.reg (oSect k + sEval)) 3 0

/-- Group g of a section. -/
def Section.group (x : Section) (g : Nat) : Option Group := Sparse.get none x.groups g

/-- Replaces group g. -/
def Section.setGroup (x : Section) (g : Nat) (v : Group) : Section := { x with groups := Sparse.set none x.groups g (some v) }

/-- The selector value of group g of section k (R307). -/
def grpSel (k g : Nat) : Nat := k + 16 * g

/-- Register words of a group in effect: control, Kronecker word, hyperparameter i. -/
def State.grpCtl (s : State) (k g : Nat) : Nat := (s.regs.get (regKey oGrpCtl (grpSel k g))).toNat
def State.grpKron (s : State) (k g : Nat) : Nat := (s.regs.get (regKey oGrpKron (grpSel k g))).toNat
def State.grpHp (s : State) (k g i : Nat) : Word := s.regs.get (regKey (oGrpHp i) (grpSel k g))

/-- Replaces group g of section k. -/
def State.setGroup (s : State) (k g : Nat) (v : Group) : State := s.setSectN k ((s.sectN k).setGroup g v)

/-- Whether a KRON group's factors serve: they are valid and FORCE_FACTORED does not make them not valid (R286). -/
def factorsServe (ctl : Nat) (v : Group) : Bool := v.valid && !ctlForce ctl

/-- Sets a group with FALLBACK as its rule and factors give it: the group updates by FACTORED (R286, R307). -/
def State.putGroup (s : State) (k g : Nat) (v : Group) : State :=
  let ctl := s.grpCtl k g
  s.setGroup k g { v with fallback := ctlRule ctl == 3 && !factorsServe ctl v }

/-- The program of a slot takes over the groups that it declares and another program of the section, or none, holds: a group's state belongs to the section and its number (R268, R307, log 169). -/
def Section.adopt (x : Section) (slot : Nat) (ds : List (List Byte)) : Section :=
  ds.foldl (fun x d => match x.group (gNum d) with
    | some v => x.setGroup (gNum d) { v with prog := slot, desc := d }
    | none => x.setGroup (gNum d) { prog := slot, desc := d }) x

/-- Whether update engine, rule sequencer and root unit reach a range of HBM: it lies in the UPDATE partition (R302). -/
def State.updReach (s : State) (a n : Nat) : Bool := s.inPart 0 a n

/-- The bytes that such a read delivers; a read outside UPDATE is dropped and what it leaves is open (log 168). -/
def State.updBytes (s : State) (a n : Nat) : List Byte :=
  if s.updReach a n then s.hbm.readBytes a n else (List.range n).map fun i => Config.hbmDropped (a + i)

/-- An FP32 word that an update die reads from HBM. -/
def State.hw (s : State) (a : Nat) : Word := BitVec.ofNat 32 (if s.updReach a 4 then s.hbm.readLe a 4 else fieldAt (s.updBytes a 4) 0 4)

/-- Runs of FP32 words in HBM as an update die reads and writes them; a write outside UPDATE is dropped (R302). -/
def State.hws (s : State) (a n : Nat) : List Word :=
  if s.updReach a (4 * n) then (List.range n).map fun i => BitVec.ofNat 32 (s.hbm.readLe (a + 4 * i) 4) else (List.range n).map fun i => s.hw (a + 4 * i)
def State.setHws (s : State) (a : Nat) (ws : List Word) : State :=
  if s.updReach a (4 * ws.length) then { s with hbm := Sparse.putRun Memory.empty s.hbm a (ws.flatMap fun w => leBytes 4 w.toNat) } else s

/-- A range of HBM that an update die accesses: address, length, whether it writes there. -/
abbrev HbmArea := Nat × Nat × Bool

/-- The lowest unit that HBM cannot correct among what an update die reads of some ranges (R441). -/
def State.updBad (s : State) (areas : List HbmArea) : Option Nat :=
  areas.findSome? fun a => if a.2.2 || !s.updReach a.1 a.2.1 then none else s.hbmBadUnit a.1 a.2.1

/-- Accesses of update die d for section k: one dead letter for each that lies outside UPDATE (R302); data that HBM cannot correct are reported and put the section in FAULTED (R441), else the work is done. -/
def State.updWork (s : State) (k die : Nat) (areas : List HbmArea) (f : State → State) : State :=
  let out := areas.filter fun a => a.2.1 != 0 && !s.updReach a.1 a.2.1
  let s := out.foldl (fun (s : State) a => s.deadLetter 9 2 a.2.2 a.1 die a.2.1) s
  match s.updBad areas with
  | some u => (s.hbmUncorr k u).faultSect k 0x0A07
  | none => f s

/-- Writes zeros over a range of HBM. -/
def State.hbmZero (s : State) (a n : Nat) : State := { s with hbm := Sparse.clearRange s.hbm a (a + n) }

/-- State components that a rule keeps, as region numbers (R277-R282). -/
def ruleRegions (r : Nat) : List Nat :=
  match r with
  | 0 => [0]
  | 1 => [0, 1]
  | 2 => [0, 2, 3, 4]
  | 3 => [0, 2, 3, 4, 5]
  | _ => []

/-- A rule in effect of a group (R279): components that the previous rule did not keep read as +0, FSTEPS starts at 0, factors are not valid; a change of BS_CODE makes the factors not valid (R307). -/
def State.ruleChange (s : State) (k g old new : Nat) : State :=
  match (s.sectN k).group g with
  | none => s
  | some v =>
    let fresh := (ruleRegions (ctlRule new)).filter fun r => !(ruleRegions (ctlRule old)).contains r
    let zero := fun (s : State) r => s.hbmZero (gState v.desc + regionOff v.desc r) ((regionLens v.desc).getD r 0)
    if ctlRule old ≠ ctlRule new ∧ fresh ≠ [] then (fresh.foldl zero s).putGroup k g { v with fsteps := 0, valid := false, roots := [] }
    else if ctlBs old ≠ ctlBs new then s.putGroup k g { v with valid := false, roots := [] }
    else s.putGroup k g v

/-! ### Masks (R261-R263) -/

/-- The address of a copy of mask table t of a program; false is COPY0. -/
def ProgImage.maskCopy (p : ProgImage) (t : Nat) (copy : Bool) : Option Nat :=
  (p.masks.find? (fun m => m.1 == t)).map fun m => if copy then m.2.2 else m.2.1

/-- Bytes of a mask copy with n units. -/
def maskLen (units : Nat) : Nat := 64 + ceilDiv units 512 * 64

/-- Whether a mask copy is legal for a group with so many rows (R261, R263). -/
def State.maskOk (s : State) (a rows : Nat) : Bool :=
  let h := s.updBytes a 64
  let gran := fieldAt h 4 1
  let units := if gran = 0 then rows else ceilDiv rows 48
  let bits := s.updBytes (a + 64) (maskLen units - 64)
  decide (gran ≤ 1) && allZero (h.drop 5) && fieldAt h 0 4 == units
  && (List.range (ceilDiv units 512 * 512)).all (fun u => decide (u < units) || !bitOf (fieldAt bits (u / 8) 1) (u % 8))

/-- What the check of R263 reads of a mask copy: its header, then the units that the header gives. -/
def State.maskArea (s : State) (a : Nat) : HbmArea := (a, maskLen (fieldAt (s.updBytes a 4) 0 4), false)

/-- Whether a mask copy masks row i, as an update die reads it. -/
def State.maskedRow (s : State) (a i : Nat) : Bool :=
  let u := if fieldAt (s.updBytes (a + 4) 1) 0 1 = 0 then i else i / 48
  bitOf (fieldAt (s.updBytes (a + 64 + u / 8) 1) 0 1) (u % 8)

/-- The copy of its mask table that serves a group in a step, none where it has no mask. -/
def groupMask (p : ProgImage) (d : List Byte) (maskSel : Nat) : Option Nat :=
  if gMaskEn d then p.maskCopy (gMask d) (bitOf maskSel (gMask d)) else none

end Sys2Proof.Machine
end

