-- ==== Sys2Proof/Machine/Seals.lean ====
section
/-! DEFINITION. Seals.lean: seals and staged configuration: capture at the seal point, the check of a set as a whole, application and refusal, the device seal with its operating points, slot maps and section maps (R36, R40, R52-R56, R303, R333, R424-R427, R443, R444, R458, R469-R471). -/

namespace Sys2Proof.Machine

/-! ### Capture -/

/-- The seal point of a seal requested after the application of the seal before it has begun: a new seal (R470). -/
def RegFile.captureNext (f : RegFile) (sc : Scope) : RegFile :=
  let mine := f.staged.filter fun e => inScope sc e.1
  { f with
    staged := f.staged.filter fun e => !inScope sc e.1
    next := mine.foldl (fun m e => Sparse.set none m e.1 e.2) f.next }

/-- The new seal's values become those of the pending seal. -/
def RegFile.promote (f : RegFile) (sc : Scope) : RegFile :=
  { f with
    captured := (f.next.filter fun e => inScope sc e.1).foldl (fun m e => Sparse.set none m e.1 e.2) f.captured
    next := f.next.filter fun e => !inScope sc e.1 }

/-- The captured values of a scope, in ascending BAR0 offset and selector value (R471). -/
def RegFile.set (f : RegFile) (sc : Scope) : List (Nat × Word) :=
  f.captured.filterMap fun e => match e.2 with
    | some v => if inScope sc e.1 then some (e.1, v) else none
    | none => none

/-- The value of a key that would result from applying a scope's captured values (R56). -/
def RegFile.would (f : RegFile) (sc : Scope) (k : Nat) : Nat :=
  match (if inScope sc k then Sparse.get none f.captured k else none) with
  | some v => v.toNat
  | none => (f.get k).toNat

/-! ### Section maps (R36) -/

/-- Row and global column of a cluster. -/
def clusterPlace (c : Nat) : Nat × Nat := (c % 32 / 4, c / 32 * 4 + c % 4)

/-- The cluster at a row and global column. -/
def clusterAt (row col : Nat) : Nat := col / 4 * 32 + row * 4 + col % 4

/-- The neighbour of an office through port 1 N, 2 S, 3 E, 4 W. -/
def neighbour (c port : Nat) : Option Nat :=
  let p := clusterPlace c
  match port with
  | 1 => if p.1 = 0 then none else some (clusterAt (p.1 - 1) p.2)
  | 2 => if p.1 = 7 then none else some (clusterAt (p.1 + 1) p.2)
  | 3 => if p.2 = 7 then none else some (clusterAt p.1 (p.2 + 1))
  | _ => if p.2 = 0 then none else some (clusterAt p.1 (p.2 - 1))

/-- The layers of plane C's barrier tree beyond the clusters in got, whose last layer is given: each holds the clusters of the section one hop farther from the root (R229); fuel bounds the depth. -/
def treeLayers (cs : List Nat) : Nat → List Nat → List Nat → List (List Nat)
  | 0, _, _ => []
  | n + 1, got, last =>
    match cs.filter fun c => !got.contains c && [1, 2, 3, 4].any fun p => (neighbour c p).any (last.contains ·) with
    | [] => []
    | l => l :: treeLayers cs n (got ++ l) l

/-- The barrier tree of a section's clusters, ascending: the root is the lowest number, West before East (R33, R229). -/
def barrierLayers (cs : List Nat) : List (List Nat) :=
  match cs with
  | [] => []
  | c :: _ => [c] :: treeLayers cs cs.length [c] [c]

/-- The parent of a cluster in the tree: a neighbour one hop nearer to the root, ties broken in the order N, W, S, E (R229); none at the root. -/
def barrierParent (cs : List Nat) (c : Nat) : Option Nat :=
  let ls := barrierLayers cs
  match ls.findIdx? (·.contains c) with
  | some (n + 1) => ([1, 4, 2, 3].filterMap (neighbour c)).find? ((ls.getD n []).contains ·)
  | _ => none

/-- The depth D of the tree (R229). -/
def barrierDepth (cs : List Nat) : Nat := (barrierLayers cs).length - 1

/-- The barrier time of a section in ns (R230). -/
def barrierNs (cs : List Nat) : Nat := 180 + 13 * (barrierDepth cs - 14)

/-- Whether clusters form a connected set: the tree from the first of them reaches all. -/
def connected (cs : List Nat) : Bool := cs.all ((barrierLayers cs).flatten.contains ·)

/-- Where a flit of plane H or U is bound (R229): a tile, the PCIe controller, or an update die (0 NW, 1 SW, 2 NE, 3 SE) with the HBM behind it. -/
inductive PlaneTarget where
  | tile (ltn : Nat)
  | pcie
  | die (d : Nat)
  deriving DecidableEq, Repr

/-- The office at which a flit from a cluster leaves plane H or U (R229). -/
def planeExit (src : Nat) : PlaneTarget → Nat
  | .tile l => clusterOf l
  | .pcie => clusterAt 0 0
  | .die d =>
    let col := (clusterPlace src).2
    clusterAt (if d % 2 = 0 then 0 else 7) (if col / 4 = d / 2 then col else if d < 2 then 3 else 4)

/-- The steps from one coordinate to another, the start left out. -/
def stepsTo (a b : Nat) : List Nat := if a ≤ b then (List.range (b - a)).map (a + 1 + ·) else (List.range (a - b)).map (a - 1 - ·)

/-- The offices that a flit of plane H or U crosses: along its row to the target column, then along that column (R229). -/
def planePath (src : Nat) (dest : PlaneTarget) : List Nat :=
  let p := clusterPlace src
  let q := clusterPlace (planeExit src dest)
  src :: (stepsTo p.2 q.2).map (clusterAt p.1 ·) ++ (stepsTo p.1 q.1).map (clusterAt · q.2)

/-- Clusters of a mask, ascending. -/
def maskClusters (m : Nat) : List Nat := (List.range 64).filter (bitOf m)

/-- The section mask of section k that would result from a device seal. -/
def State.wouldMask (s : State) (k : Nat) : Nat :=
  s.regs.would .device (regKey (oSect k + sMapLo) 0) + 2 ^ 32 * s.regs.would .device (regKey (oSect k + sMapHi) 0)

/-- The check of a section map (R36, R444). -/
def State.mapOk (s : State) (k : Nat) : Bool :=
  let m := s.wouldMask k
  let old := s.sectMask k
  let x := s.sectN k
  (List.range 16).all (fun j => j == k || (s.wouldMask j &&& m) == 0)
  && connected (maskClusters m)
  && (m == old || x.phase == .off || x.phase == .idle)
  && (maskClusters m).all (fun c => bitOf old c || !s.repair.degraded.contains c)

/-! ### The per-device record's trims (R403, R426) -/

/-- The bytes of an item of a record body by type: 1 REPAIR_MAP, 2 TRIMS, 3 PUF_HELPER, 4 ID_CERT. -/
def recordItem (body : List Byte) (type : Nat) : List Byte :=
  match (List.range (fieldAt body 6 2)).find? (fun i => fieldAt body (192 + 16 * i) 2 == type) with
  | some i => (body.drop (fieldAt body (192 + 16 * i + 4) 4)).take (fieldAt body (192 + 16 * i + 8) 4)
  | none => []

/-- The VCORE range in mV of an operating point (R426). -/
def opRange (op : Nat) : Nat × Nat :=
  match op with
  | 0 => (720, 800)
  | 1 => (650, 730)
  | 2 => (600, 680)
  | _ => (550, 610)

/-- The voltage of an operating point of a half (R426). -/
def State.opVoltage (s : State) (east : Bool) (op : Nat) : Nat :=
  let r := opRange op
  max r.1 (min r.2 (Config.trimVoltage (recordItem s.boot.record 2) east op))

/-- Rail r. -/
def Phys.rail (p : Phys) (r : Nat) : Rail := p.rails.toList.getD r {}

/-- The value commanded of a VCORE rail at a moment, at the ramp rate, which is in mV per 100 REFCLK cycles (R427, R484, log 220). -/
def Rail.momentary (x : Rail) (now : Nat) : Nat :=
  let d := (now + 2 ^ 64 - x.since) % 2 ^ 64 * x.rate / 100
  if x.origin ≤ x.commanded then min x.commanded (x.origin + d) else max x.commanded (x.origin - d)

/-- Commands a VCORE voltage: VoutTransRate for 10 mV/us, then Voltage (R427-R429); the ramp begins at the value commanded at that moment. -/
def Phys.command (p : Phys) (now r mv : Nat) : Phys :=
  { p with rails := p.rails.setIfInBounds r { p.rail r with commanded := mv, rate := 10, origin := (p.rail r).momentary now, since := now } }

/-- The ramp of a VCORE rail has ended: its reading lies within the window of its target. -/
def Phys.reached (p : Phys) (r : Nat) : Phys := { p with rails := p.rails.setIfInBounds r { p.rail r with origin := (p.rail r).commanded } }

/-- Operating point in effect of a half. -/
def Phys.op (p : Phys) (east : Bool) : Nat := if east then p.opE else p.opW

/-- OP_W or OP_E of a PWR_OP word. -/
def opField (w : Nat) (east : Bool) : Nat := if east then bitsOf w 3 2 else bitsOf w 1 0

/-! ### Checks of one captured key (R56) -/

/-- The checks of a section's own fields. -/
def State.sectKeyOk (s : State) (k key : Nat) : Bool :=
  let x := s.sectN k
  let o := key / 65536 - oSect k
  let v := s.regs.would (.sect k) key
  if o = sWdog then v % 65536 != 0
  else if o = sReplay then !bitOf v 0 || bitOf (s.reg (oSect k + sReplay)) 0 || (x.phase == .idle && !s.repair.capActive)
  else if o = sSlotCfg then cfgOk v
  else if o = sSlotFixed then fixedOk (BitVec.ofNat 32 v)
  else true

/-- The check of a staged field of a parameter group (R278, R307, R492). -/
def State.groupKeyOk (s : State) (k key : Nat) : Bool :=
  let sel := key % 65536
  match (s.sectN k).group (sel / 16) with
  | none => false
  | some g =>
    let d := g.desc
    let w := fun off => s.regs.would (.sect k) (regKey off sel)
    let rule := ctlRule (w oGrpCtl)
    let off := key / 65536
    let v := w off
    let epsOk := !(rule == 2 || rule == 3) || wPos (w (oGrpHp 2))
    if off = oGrpCtl then
      (if gRule d = 4 then rule == 4 else decide (rule ≤ 3) && bitOf (gAllowed d) rule)
      && (rule != 3 || (decide (3 ≤ ctlBs v) && decide (ctlBs v ≤ 42)))
      && decide (factorsLen d (ctlBs v) ≤ factorsLen d (gBsCode d)) && epsOk
    else if off = oGrpKron then kronOk v
    else hpOk ((off - oGrpHp 0) / 4) v (bitOf (gAllowed d) 3) && (off != oGrpHp 2 || epsOk)

/-- Whether an ingest ring holds an announced descriptor that its head has not passed (R303, R333). -/
def State.ingestBusy (s : State) : Bool := (List.range 32).any fun n => (s.ring (16 + n)).head != (s.ring (16 + n)).tail

/-- Channel counts of an UPD_HBM_PART word. -/
def partCounts (w : Nat) : List Nat := [bitsOf w 6 0, bitsOf w 13 7, bitsOf w 20 14, bitsOf w 27 21]

/-- The partitions of update die d that a device seal would leave. -/
def State.wouldParts (s : State) (d : Nat) : List Nat := partCounts (s.regs.would .device (regKey (oHbmPart d) 0))

/-- The check of the partitions (R303). -/
def State.partsOk (s : State) (d : Nat) : Bool :=
  (s.wouldParts d).foldl (· + ·) 0 == 64
  && decide (((List.range 4).map fun e => (s.wouldParts e).getD 1 0).foldl (· + ·) 0 ≤ 32)
  && (List.range 16).all (fun k => (s.sectN k).phase != .running && (s.sectN k).phase != .switching && (s.sectN k).phase != .held)
  && !s.ingestBusy

/-- Whether the queue that a device seal would give section k lies in the INGEST partition of one update die (R333). -/
def State.queueIn (s : State) (k : Nat) : Bool :=
  let size := s.regs.would .device (regKey (oQSize k) 0)
  let base := 65536 * bitsOf (s.regs.would .device (regKey (oQBase k) 0)) 23 0
  let n := bitsOf size 22 0 * (64 * bitsOf size 31 23)
  bitsOf size 22 0 == 0 || (decide (0 < n) && inPartition s.wouldParts 1 base n)

/-- The check of INGEST_Q_BASE and INGEST_Q_SIZE (R333). -/
def State.queueOk (s : State) (k key : Nat) : Bool :=
  let same := s.regs.would .device key == (s.regs.get key).toNat
  let x := s.sectN k
  let size := s.regs.would .device (regKey (oQSize k) 0)
  (same || ((x.phase == .off || x.phase == .idle) && !s.ingestBusy)) && s.queueIn k
  && (key / 65536 != oQSize k || bitsOf size 22 0 == 0 || (decide (4 ≤ bitsOf size 31 23) && decide (bitsOf size 31 23 ≤ 385)))

/-- The slots of a cluster's logical tiles 0-31 under a word per register. -/
def slotsOf (w : Nat → Nat) : List Nat := (List.range 32).map fun t => bitsOf (w (t / 4) / 256 ^ (t % 4)) 5 0

/-- Whether a physical tile is fenced. -/
def Repair.isFenced (r : Repair) (cluster slot : Nat) : Bool := r.fenced.contains (slot + 64 * cluster)

/-- The slot map of a cluster in effect, and the one that a device seal would leave. -/
def State.slotMap (s : State) (c : Nat) : List Nat := slotsOf fun i => (s.regs.get (regKey (oSmap i) c)).toNat
def State.wouldMap (s : State) (c : Nat) : List Nat := slotsOf fun i => s.regs.would .device (regKey (oSmap i) c)

/-- The words 0-7 of a cluster's slot map that fail as a device seal would leave it (R443): a tile of the word names a slot beyond 32, one that is fenced or one that another tile names too, or the word changes while the section may not. -/
def State.smapBad (s : State) (c : Nat) : List Nat :=
  let m := s.wouldMap c
  let old := s.slotMap c
  let rests := match s.sectOf c with
    | some k => (s.sectN k).phase == .off || (s.sectN k).phase == .idle || (s.sectN k).phase == .faulted
    | none => true
  let bad := fun t : Nat =>
    let p := m.getD t 0
    decide (32 < p) || s.repair.isFenced c p || decide (1 < m.count p) || (p != old.getD t 0 && !rests)
  (List.range 8).filter fun i => (List.range 4).any fun j => bad (4 * i + j)

/-- The check of word i of a cluster's slot map. A word that is not captured and fails leaves the map wrong as a whole (R56): it counts against every captured word (log 211). -/
def State.smapOk (s : State) (i c : Nat) : Bool :=
  let bad := s.smapBad c
  !bad.contains i && bad.all fun j => (Sparse.get none s.regs.captured (regKey (oSmap j) c)).isSome

/-- The check of SECT_EVAL[k]: EN = 1 needs another section as SOURCE, one without EN. Where the SECT_EVAL that fails is not captured, the captured one that makes it fail is the field in fault (log 211). -/
def State.evalFieldOk (s : State) (k : Nat) : Bool :=
  let eval := fun j => s.regs.would .device (regKey (oSect j + sEval) 0)
  let v := eval k
  !bitOf v 4 || (bitsOf v 3 0 != k && !bitOf (eval (bitsOf v 3 0)) 4
    && (List.range 16).all fun j => j == k || !bitOf (eval j) 4 || bitsOf (eval j) 3 0 != k
      || (Sparse.get none s.regs.captured (regKey (oSect j + sEval) 0)).isSome)

/-- Islands whose loop is not ready for a switch to LOOP, or all where BOSC is not ready: the islands that a CLK_SRC value would switch to a source that is not ready (R424). -/
def State.clkBad (s : State) (loop : Bool) : List Nat :=
  (List.range 101).filter fun i =>
    let l := s.phys.loops.toList.getD i {}
    if loop then l.source == .bosc && !l.ready else l.source == .loop && !s.phys.boscReady

/-- The checks of one device key other than the read back of a raised voltage. -/
def State.deviceKeyOk (s : State) (key : Nat) : Bool :=
  let off := key / 65536
  let v := s.regs.would .device key
  if oSect 0 ≤ off ∧ off < oSect 16 then
    (if (off - oSect 0) % 0x100 = sEval then s.evalFieldOk ((off - oSect 0) / 0x100)
    else s.mapOk ((off - oSect 0) / 0x100))
  else if off = oClkSrc then (s.clkBad (bitOf v 0)).isEmpty
  else if oQBase 0 ≤ off ∧ off < oQBase 16 then s.queueOk ((off - oQBase 0) / 16) key
  else if oHbmPart 0 ≤ off ∧ off ≤ oHbmPart 3 then s.partsOk ((off - oHbmPart 0) / 4)
  else if off = oHbmCfg then bitsOf v 1 0 != 3
  else if oSmap 0 ≤ off ∧ off ≤ oSmap 7 then s.smapOk ((off - oSmap 0) / 4) (key % 65536)
  else true

/-- The check of one key of a scope. -/
def State.keyOk (s : State) (sc : Scope) (key : Nat) : Bool :=
  match sc with
  | .sect k => if oGrpCtl ≤ key / 65536 then s.groupKeyOk k key else s.sectKeyOk k key
  | _ => s.deviceKeyOk key

/-- Queues that a change of partitions leaves outside them, as keys (R333). -/
def State.orphanQueues (s : State) : List Nat :=
  if (s.regs.set .device).any (fun e => decide (oHbmPart 0 ≤ e.1 / 65536) && decide (e.1 / 65536 ≤ oHbmPart 3)) then
    ((List.range 16).filter fun k => !s.queueIn k).map fun k => regKey (oQBase k) 0
  else []

/-- The first field of a captured set that fails, by BAR0 offset (R471). -/
def State.failing (s : State) (sc : Scope) : Option Nat :=
  let bad := ((s.regs.set sc).map (·.1)).filter fun key => !s.keyOk sc key
  let bad := if sc = .device then bad ++ s.orphanQueues else bad
  match bad with
  | [] => none
  | b :: bs => some ((bs.foldl min b) / 65536)

/-! ### Records, refusal -/

/-- Section byte of a scope. -/
def scopeSect (sc : Scope) : Nat :=
  match sc with
  | .sect k => k
  | _ => noSect

/-- The SEAL record of the postbook (R453 type 4). -/
def State.sealRecord (s : State) (sc : Scope) (refused : Bool) (fields : List (Nat × Word)) : State :=
  let entry := fun (e : Nat × Word) =>
    let sel := match regSpec (e.1 / 65536) with
      | some r => if r.sel = .none then 0 else e.1 % 65536
      | none => 0
    leBytes 4 (e.1 / 65536) ++ leBytes 4 sel ++ leBytes 4 e.2.toNat ++ leBytes 4 0
  let bs := (fields.map entry).flatten
  s.postbook 4 (scopeSect sc) 0 false
    (padTo 64 (leBytes 1 (if sc = .device then 1 else 0) ++ leBytes 1 (boolNat refused) ++ leBytes 2 0 ++ leBytes 4 fields.length)
      ++ padTo (roundUp bs.length 64) bs)

/-- Offset of the SEAL register of a scope. -/
def sealReg (sc : Scope) : Nat :=
  match sc with
  | .sect k => oSect k + sSeal
  | _ => oGlbSeal

/-- A refused seal (R56, R471): captured values become staged again unless a newer value is staged; REFUSED is set and SEAL_REFUSED posted. -/
def State.refuseSeal (s : State) (sc : Scope) (off : Nat) : State :=
  let fields := s.regs.set sc
  let back := fields.filter fun e => (Sparse.get none s.regs.staged e.1).isNone && (Sparse.get none s.regs.next e.1).isNone
  let f := { s.regs with
    staged := back.foldl (fun m e => Sparse.set none m e.1 (some e.2)) s.regs.staged
    captured := s.regs.captured.filter fun e => !inScope sc e.1 }
  let s := { s with regs := f }
  let s := s.setReg (sealReg sc) (s.reg (sealReg sc) ||| 4)
  (s.event 0x0102 (scopeSect sc) (items [off])).sealRecord sc true fields

/-! ### Application -/

/-- Makes the captured values of a scope effective. -/
def RegFile.applySet (f : RegFile) (sc : Scope) : RegFile :=
  let fields := f.set sc
  let f := { f with captured := f.captured.filter fun e => !inScope sc e.1 }
  fields.foldl (fun f e => f.put e.1 e.2) f

/-- What a section seal does beyond its registers: scales of slots whose MODE or fixed value changes (R150), state of a group whose rule or block size changes (R279, R307). -/
def State.sectHooks (old new : State) (k : Nat) (fields : List (Nat × Word)) : State :=
  fields.foldl (fun s e =>
    let off := e.1 / 65536
    let sel := e.1 % 65536
    if off = oSect k + sSlotCfg ∨ off = oSect k + sSlotFixed then
      let x := s.sectN k
      s.setSectN k (x.setSlot sel ((x.slot sel).configure (old.slotCfg k sel) (s.slotCfg k sel) (s.slotFixed k sel)))
    else if off = oGrpCtl then s.ruleChange k (sel / 16) (old.grpCtl k (sel / 16)) (s.grpCtl k (sel / 16))
    else s) new

/-- Applies the captured set of section k (R53); requested tells whether a seal request joined. The answer tells whether the seal was refused. -/
def State.applySect (s : State) (k : Nat) (requested : Bool) : State × Bool :=
  let sc := Scope.sect k
  let fields := s.regs.set sc
  let s := s.setSectN k { s.sectN k with sealPend := false }
  match s.failing sc with
  | some off => (s.refuseSeal sc off, true)
  | none =>
    let t := s.sectHooks { s with regs := s.regs.applySet sc } k fields
    (if requested || !fields.isEmpty then t.sealRecord sc false fields else t, false)

/-- The seal requested after the application of the one before it had begun is now the pending one (R470). -/
def State.nextSeal (s : State) (k : Nat) : State :=
  if (s.sectN k).sealNext then
    ({ s with regs := s.regs.promote (.sect k) } : State).setSectN k { s.sectN k with sealPend := true, sealNext := false }
  else s

/-- Applies a pending section seal, if any; a seal requested meanwhile then stands pending. -/
def State.applyPending (s : State) (k : Nat) : State := (if (s.sectN k).sealPend then (s.applySect k true).1 else s).nextSeal k

/-- In a section that is IDLE, FAULTED or OFF no barrier is pending: every requested seal is applied at once (R53). -/
def State.settleSeal (s : State) (k : Nat) : State :=
  match (s.sectN k).phase with
  | .idle => (s.applyPending k).applyPending k
  | .faulted => (s.applyPending k).applyPending k
  | .off => (s.applyPending k).applyPending k
  | _ => s

/-- Whether every tile of a section has arrived at its barrier (R31). -/
def State.allArrived (s : State) (k : Nat) : Bool :=
  (s.ltns k).all fun n => match (s.tileN n).seq.status with
    | .arrived _ => true
    | _ => false

/-- Whether the application of the seal that is pending has begun (R470): the boundary's seal point has passed, or a requested seal's last tile has arrived. -/
def State.sealBegun (s : State) (k : Nat) : Bool :=
  let x := s.sectN k
  let busy := x.phase == .running || x.phase == .switching || x.phase == .held
  s.atSealPoint k || (x.sealPend && busy && (x.atSwitch || s.allArrived k))

/-- A section seal request (R52, R53, R470): applied at once where no barrier is pending; a request after the application of the pending seal has begun is a new seal. -/
def State.requestSect (s : State) (k : Nat) : State :=
  let s := s.sealPoint k
  if s.sealBegun k then ({ s with regs := s.regs.captureNext (.sect k) } : State).setSectN k { s.sectN k with sealNext := true }
  else (({ s with regs := s.regs.capture (.sect k) } : State).setSectN k { s.sectN k with sealPend := true }).settleSeal k

/-- Whether SECT_SEAL.PEND reads 1: a seal point has passed whose set is not applied (R53, R54). -/
def State.sealPending (s : State) (k : Nat) : Bool := (s.sectN k).sealPend || (s.sectN k).sealNext || s.atSealPoint k

/-- Seals left pending where a section has faulted: R53 has them applied at once. The model applies them with the host's next access, before which nothing can tell. -/
def State.settleFaulted (s : State) : State :=
  (List.range 16).foldl (fun (s : State) k => if (s.sectN k).phase = .faulted then s.settleSeal k else s) s

/-! ### What a device seal does -/

/-- Discards the resident programs of a section (R444). -/
def State.discardPrograms (s : State) (k : Nat) : State :=
  let x := s.sectN k
  let s := s.mapTiles k fun _ t =>
    { t with
      ranges := []
      ts := { t.ts with granules := t.ts.granules.filterMap fun g => if g.2.wcode then some (g.1, { g.2 with owner := none }) else none } }
  let s := s.setSectN k { s.sectN k with programs := [], progValid := false, groups := [], saved := [], discarded := true }
  s.event 0x0A05 k (items [k, x.programs.length])

/-- A cluster's slot map has changed (R443): each logical tile stands for the physical tile that its slot holds. -/
def State.remap (old new : State) (c : Nat) : State :=
  let phys := fun (slot : Nat) => match ((old.slotMap c).zipIdx).find? (fun e => e.1 == slot) with
    | some e => old.tileN (32 * c + e.2)
    | none => Sparse.get {} old.spares (slot + 64 * c)
  let m := new.slotMap c
  let s := (List.range 32).foldl (fun s i => s.setTileN (32 * c + i) (phys (m.getD i 0))) new
  let spares := (List.range 33).foldl (fun sp slot => Sparse.set {} sp (slot + 64 * c) (if m.contains slot then {} else phys slot)) s.spares
  { s with spares := spares }

/-- A section's mask has changed (R40). -/
def State.remapSect (s : State) (k : Nat) : State :=
  let x := s.sectN k
  if s.sectMask k = 0 then s.setSectN k { x with phase := .off }
  else if x.phase = .off then s.setSectN k { x with phase := .idle } else s

/-- An operating point changes (R427): the division is switched, a lower point's voltage commanded after it; OP_CHANGED, and the postbook's record. -/
def State.changeOp (s : State) (east : Bool) (new : Nat) : State :=
  let old := s.phys.op east
  if old = new then s
  else
    let p := if east then { s.phys with opE := new } else { s.phys with opW := new }
    let p := if old < new then p.command s.tstamp (boolNat east) (s.opVoltage east new) else p
    let s := { s with phys := p }
    (s.event 0x0905 noSect (items [boolNat east, old, new])).postbook 5 noSect 0 false
      (padTo 64 (leBytes 1 (boolNat east) ++ leBytes 1 old ++ leBytes 1 new))

/-- What a device seal does beyond its registers. -/
def State.deviceHooks (old new : State) (fields : List (Nat × Word)) : State :=
  let changed := fields.filter fun e => old.regs.get e.1 != e.2
  let has := fun off => changed.any fun e => e.1 / 65536 == off
  let s := if fields.any (fun e => e.1 / 65536 == oClkSrc) then
      { new with phys := { new.phys with loops := new.phys.loops.map fun l => { l with source := if bitOf (new.reg oClkSrc) 0 then .loop else .bosc } } }
    else new
  let s := (List.range 16).foldl (fun s k =>
    let s := if has (oSect k + sMapLo) || has (oSect k + sMapHi) then s.remapSect k else s
    if has (oQBase k) || has (oQSize k) then s.setSectN k { s.sectN k with head := 0, staged := [], parcels := [] } else s) s
  let cs := (List.range 64).filter fun c => changed.any fun e => decide (oSmap 0 ≤ e.1 / 65536) && decide (e.1 / 65536 ≤ oSmap 7) && e.1 % 65536 == c
  let ks := (List.range 16).filter fun k => cs.any fun c => old.sectOf c == some k
  let s := cs.foldl (fun s c => old.remap s c) s
  let s := ks.foldl (fun s k => s.discardPrograms k) s
  let s := if fields.any (fun e => e.1 / 65536 == oPwrOp) then
      (s.changeOp false (opField (s.reg oPwrOp) false)).changeOp true (opField (s.reg oPwrOp) true)
    else s
  s

/-- The end of a device seal: the held releases proceed (R55); a seal requested meanwhile stays pending and holds the sections at a later release. -/
def State.endDeviceSeal (s : State) : State :=
  let s : State := { s with sects := s.sects.map fun (x : Section) => if x.phase = .held then { x with phase := x.before, freed := true } else x }
  if s.glbNext then { s with glbPend := true, glbNext := false, glbBegun := false, regs := s.regs.promote .device }
  else { s with glbPend := false, glbBegun := false }

/-- Halves that the captured set raises to a higher frequency (R427). -/
def State.raises (s : State) : List Bool :=
  [false, true].filter fun east => decide (opField (s.regs.would .device (regKey oPwrOp 0)) east < s.phys.op east)

/-- Forgets the reads back of a device seal; undone tells to command the voltages of the points in effect again (R427). -/
def State.dropRaises (s : State) (undo : Bool) : State :=
  let mine := s.phys.avs.filter fun w => w.purpose == 2 || w.purpose == 3
  let p := { s.phys with avs := s.phys.avs.filter fun w => !(w.purpose == 2 || w.purpose == 3) }
  { s with phys := if undo then mine.foldl (fun p w => p.command s.tstamp w.rail (s.opVoltage (w.rail == 1) (s.phys.op (w.rail == 1)))) p else p }

/-- CLK_SRC refused: SW_REFUSED is set and CLK_SWITCH_REFUSED posted for each island that cannot switch (R424). -/
def State.clkRefused (s : State) : State :=
  if (s.regs.set .device).any (fun e => e.1 / 65536 == oClkSrc) then
    let loop := bitOf (s.regs.would .device (regKey oClkSrc 0)) 0
    match s.clkBad loop with
    | [] => s
    | is =>
      let s := s.setReg oClkStatus (s.reg oClkStatus ||| 0x10)
      is.foldl (fun s i => s.event 0x0903 noSect (items [i, boolNat loop])) s
  else s

/-- Refuses the pending device seal. -/
def State.refuseDevice (s : State) (off : Nat) : State := ((s.clkRefused.refuseSeal .device off).dropRaises true).endDeviceSeal

/-- Commands the voltages of the halves that the set raises (R427). -/
def State.commandRaises (s : State) : State :=
  s.raises.foldl (fun s east =>
    let mv := s.opVoltage east (opField (s.regs.would .device (regKey oPwrOp 0)) east)
    let p := s.phys.command s.tstamp (boolNat east) mv
    { s with phys := { p with avs := p.avs ++ [{ rail := boolNat east, target := mv, purpose := 2 }] } }) s

/-- Whether every section is HELD, IDLE, FAULTED or OFF (R55). -/
def State.allStopped (s : State) : Bool := s.sects.toList.all fun x => x.phase != .running && x.phase != .switching

/-- Checks and applies the pending device seal once every section is HELD, IDLE, FAULTED or OFF (R55, R56, R427, R471). -/
def State.applyDevice (s : State) : State :=
  if !s.glbPend || !s.allStopped then s
  else
    let s := { s with glbBegun := true }
    let fail := s.failing .device
    let early := match fail with
      | some off => decide (off < oPwrOp)
      | none => false
    let waits := s.phys.avs.filter fun w => w.purpose == 2 || w.purpose == 3
    if early then s.refuseDevice (fail.getD 0)
    else if !s.raises.isEmpty && waits.isEmpty then s.commandRaises
    else if waits.any (fun w => w.purpose == 2) then s
    else match fail with
      | some off => s.refuseDevice off
      | none =>
        let fields := s.regs.set .device
        let t := s.deviceHooks ({ s with regs := s.regs.applySet .device }.sealRecord .device false fields) fields
        (t.dropRaises false).endDeviceSeal

/-- A device seal request (R55, R470): application of the pending seal has begun once every section is HELD, IDLE, FAULTED or OFF. -/
def State.requestDevice (s : State) : State :=
  if s.glbPend && (s.glbBegun || s.allStopped) then { s with regs := s.regs.captureNext .device, glbNext := true }
  else { s with regs := s.regs.capture .device, glbPend := true }

end Sys2Proof.Machine
end

