-- ==== Sys2Proof/Machine/Exchange.lean ====
section
/-! DEFINITION. Exchange.lean: plane X at message level (log 11): routes, circulars, reduction nodes, link frames and their windows, capture entries; D-X injection, node results and receipt (R223-R252, R364-R366, R378-R380, R454, R456). -/

namespace Sys2Proof.Machine

/-! ### Messages and offices -/

/-- A message on plane X: section, route index, node named (0xFFFF none), destination LTN or circular, whether it is a partial bound for a node, DST, its data by offset within the message (R231), and the source code of FADDR (R94). -/
structure Mess where
  sect : Nat
  route : Nat
  node : Nat
  dest : Nat
  circ : Bool
  isPartial : Bool
  dst : Nat
  parts : List (Nat × List Byte)
  source : Nat
  deriving DecidableEq, Repr

/-- Bytes of a message (LENGTH of R50). -/
def Mess.length (m : Mess) : Nat := partsLen m.parts

/-- The link behind LINK_A (0) or LINK_B (1) of an edge office (R233, R19). -/
def officeLink (c b : Nat) : Option Nat :=
  let p := clusterPlace c
  if p.2 = 0 then some (2 * p.1 + b) else if p.2 = 7 then some (16 + 2 * p.1 + b) else none

/-- The edge cluster at which a link terminates (R19). -/
def linkCluster (l : Nat) : Nat := if l < 16 then clusterAt (l / 2) 0 else clusterAt ((l - 16) / 2) 7

/-- The program in execution of a section with the tables that its offices hold (R43, R233). -/
def State.image (s : State) (k : Nat) : ProgImage :=
  let o := (s.sectN k).offices
  { ((s.sectN k).program).getD {} with routes := o.routes, circulars := o.circulars, nodes := o.nodes }

/-- A message that an office turns into a dead letter (R235, R242, R251). -/
def State.officeDead (s : State) (reason office : Nat) (m : Mess) : State :=
  (s.deadLetter reason 5 true m.dst office m.length).netCount office 3 1

/-- ROUTE_FAULT (R235). -/
def State.routeFault (s : State) (office : Nat) (m : Mess) : State :=
  ((s.officeDead 6 office m).event 0x0202 m.sect (items [office, m.route])).faultSect m.sect 0x0202

/-- A message on its way to a tile; one that reaches a closed port is discarded (R251). -/
def State.eject (s : State) (office ltn : Nat) (m : Mess) : State :=
  if s.fencedLtn ltn then s.officeDead 8 office m
  else { s with msgs := s.msgs ++ [{ sect := m.sect, ltn := ltn, dst := m.dst, parts := m.parts, source := m.source }] }

/-- What the SEC-DED codes of flits find: words corrected, and whether one is uncorrectable (R200, R252). -/
def flitCheck (flips : Sparse Nat) : Nat × Bool :=
  let rs := flips.map fun e => secdedRead e.2
  ((rs.filter fun r => match r with
    | .corrected _ => true
    | _ => false).length, rs.any fun r => r == .uncorrectable)

/-! ### Links, outbound (R364, R365, R454, R457) -/

/-- Adds flits and digests to what a link has carried in the phase (R454). -/
def addLinkUse (us : List (Nat × Nat × Nat × Nat × Nat)) (l inF outF inD outD : Nat) : List (Nat × Nat × Nat × Nat × Nat) :=
  match us with
  | [] => [(l, inF, outF, inD % 2 ^ 256, outD % 2 ^ 256)]
  | u :: rest =>
    if u.1 = l then (l, u.2.1 + inF, u.2.2.1 + outF, (u.2.2.2.1 + inD) % 2 ^ 256, (u.2.2.2.2 + outD) % 2 ^ 256) :: rest
    else if l < u.1 then (l, inF, outF, inD % 2 ^ 256, outD % 2 ^ 256) :: u :: rest
    else u :: addLinkUse rest l inF outF inD outD

/-- Fields of a frame header (R365). -/
def fhLvc (h : Nat) : Nat := bitsOf h 2 0
def fhKind (h : Nat) : Nat := bitsOf h 4 3
def fhNf (h : Nat) : Nat := bitsOf h 6 5 + 1
def fhLast (h : Nat) : Bool := bitOf h 7
def fhCirc (h : Nat) : Bool := bitOf h 8
def fhRoute (h : Nat) : Nat := bitsOf h 22 9
def fhDest (h : Nat) : Nat := bitsOf h 34 23
def fhDst (h : Nat) : Nat := bitsOf h 48 35
def fhOffset (h : Nat) : Nat := bitsOf h 62 49

/-- The sum of the digests of a frame's flits (R454). -/
def frameDigest (f : Frame) : Nat :=
  let h := f.header
  ((List.range (fhNf h)).map fun n =>
    leNat (shake256 ([5] ++ leBytes 2 (fhRoute h) ++ leBytes 2 (fhDest h + 0x8000 * boolNat (fhCirc h)) ++ leBytes 2 (fhDst h)
      ++ leBytes 1 (fhKind h) ++ leBytes 2 (fhOffset h + n) ++ (f.data.drop (64 * n)).take 64))).foldl (· + ·) 0

/-- The frames of the data at one offset of a message, four flits each; ends tells that the message ends with them. KIND is PARTIAL for a partial bound for a node, whose frames name neither DEST nor DST (R365, log 162). -/
def partFrames (lvc : Nat) (m : Mess) (off : Nat) (data : List Byte) (ends : Bool) : List Frame :=
  let flits := data.length / 64
  let n := ceilDiv flits 4
  (List.range n).map fun i =>
    let nf := min 4 (flits - 4 * i)
    { header := lvc + 8 * boolNat m.isPartial + 32 * (nf - 1) + 128 * boolNat (ends && i + 1 == n) + 256 * boolNat m.circ
        + 2 ^ 9 * (if m.circ then 0 else m.route) + 2 ^ 23 * (if m.isPartial then 0 else m.dest)
        + 2 ^ 35 * (if m.isPartial then 0 else m.dst / 64) + 2 ^ 49 * (off / 64 + 4 * i)
      data := padTo 256 ((data.drop (256 * i)).take (64 * nf)) }

/-- The frames of a message on an LVC. -/
def messFrames (lvc : Nat) (m : Mess) : List Frame :=
  m.parts.zipIdx.flatMap fun p => partFrames lvc m p.1.1 p.1.2 (p.2 + 1 == m.parts.length)

/-- Sends a message over a link on an LVC: its digest counts, and in replay it is then discarded (R457). -/
def State.linkSend (s : State) (l lvc : Nat) (m : Mess) : State :=
  let fs := messFrames lvc m
  let x := s.sectN m.sect
  let s := s.setSectN m.sect { x with linkUse := addLinkUse x.linkUse l 0 (m.length / 64) 0 ((fs.map frameDigest).foldl (· + ·) 0) }
  if bitOf (s.reg (oSect m.sect + sReplay)) 0 then s
  else s.setLinkN l (fs.foldl (fun k f => k.enqueue lvc f) (s.linkN l))

/-! ### Reduction nodes, inputs (R238-R243) -/

/-- Fields of a node entry (R238). -/
def ndOutRoute (e : List Byte) : Nat := fieldAt e 0 2
def ndOutDest (e : List Byte) : Nat := fieldAt e 2 2
def ndOutNode (e : List Byte) : Nat := fieldAt e 4 2
def ndMode (e : List Byte) : Nat := bitsOf (fieldAt e 6 2) 1 0
def ndValid (e : List Byte) : Bool := bitOf (fieldAt e 6 2) 2
def ndCirc (e : List Byte) : Bool := bitOf (fieldAt e 6 2) 3
def ndOutU (e : List Byte) : Bool := bitOf (fieldAt e 6 2) 4
def ndOutVc (e : List Byte) : Nat := bitsOf (fieldAt e 6 2) 7 5
def ndElements (e : List Byte) : Nat := fieldAt e 8 4
def ndOutDst (e : List Byte) : Nat := fieldAt e 12 4

/-- Bytes of an element of a mode (R239). -/
def ndElemBytes (mode : Nat) : Nat :=
  match mode with
  | 2 => 32
  | 3 => 4
  | _ => 5

/-- The padded length of a node's inputs. -/
def ndPadded (e : List Byte) : Nat := roundUp (ndElements e * ndElemBytes (ndMode e)) 64

/-- NODE_MISMATCH (R242). -/
def State.nodeMismatch (s : State) (office : Nat) (m : Mess) : State :=
  ((s.officeDead 7 office m).event 0x0203 m.sect (items [m.node])).faultSect m.sect 0x0203

/-- The buffers of a node. -/
def State.nodeBuf (s : State) (sect office node : Nat) : NodeBuf :=
  (s.nodes.find? fun b => b.sect == sect && b.office == office && b.node == node).getD { sect := sect, office := office, node := node }

/-- Replaces the buffers of a node. -/
def State.setNodeBuf (s : State) (b : NodeBuf) : State :=
  { s with nodes := (s.nodes.filter fun x => !(x.sect == b.sect && x.office == b.office && x.node == b.node)) ++ [b] }

/-- The flits of n bytes that a message's parts bring, up to the first that none brings: each flit goes to its offset (R231). -/
def gather (n : Nat) (parts : List (Nat × List Byte)) : List Byte :=
  let flit := fun f : Nat => (parts.find? fun p => decide (p.1 ≤ 64 * f) && decide (64 * f < p.1 + p.2.length)).map fun p => (p.2.drop (64 * f - p.1)).take 64
  match parts with
  | [(0, bs)] => bs
  | _ => (((List.range (n / 64)).map flit).takeWhile (·.isSome)).flatMap (·.getD [])

/-- Whether a node holds both inputs of a result that it has not emitted: what has entered plane X for it has not all left, so the exchange phase of its section goes on and nothing is lost (R239, R248, R267, log 212). -/
def State.nodesBusy (s : State) (k : Nat) : Bool := s.nodes.any fun b => b.sect == k && !b.left.isEmpty && !b.right.isEmpty

/-- The nodes of a section at the start of an exchange phase (R242): an input that has found no partner stays (R248). -/
def State.nodesPhase (s : State) (k : Nat) : State :=
  { s with nodes := s.nodes.filterMap fun b =>
      if b.sect ≠ k then some b
      else if b.left.isEmpty && b.right.isEmpty then none
      else some { b with seenLeft := false, seenRight := false } }

/-- The nodes of a section without what they held, after its program has changed or its step has ended without its boundary. -/
def State.clearNodes (s : State) (k : Nat) : State := { s with nodes := s.nodes.filter fun b => b.sect != k }

/-- A message reaches a side of a node (R239, R240, R242). -/
def State.nodeInput (s : State) (office : Nat) (right : Bool) (m : Mess) : State :=
  let e := tableEntry (s.image m.sect).nodes office m.node
  let b := s.nodeBuf m.sect office m.node
  let taken := if right then b.seenRight else b.seenLeft
  if !ndValid e || m.isPartial == (ndMode e == 3) || m.length != ndPadded e || taken then s.nodeMismatch office m
  else
    let x : NodeIn := { data := gather m.length m.parts }
    s.setNodeBuf (if right then { b with right := b.right ++ [x], seenRight := true } else { b with left := b.left ++ [x], seenLeft := true })

/-! ### Routes and circulars (R233-R237) -/

/-- Where a route index leads from an office: out at a tile port, into a node, over a link on a virtual channel, to an INVALID entry, or nowhere: back to an office it has passed, or off the die. -/
inductive RouteEnd where
  | eject (office : Nat)
  | node (office : Nat) (right : Bool)
  | link (l vc : Nat)
  | invalid (office : Nat)
  | nowhere
  deriving DecidableEq, Repr

/-- Follows a route index through the tables from an office on; fuel bounds the offices (R233). -/
def routeEnd (routes : List OfficeEntry) (route : Nat) : Nat → Nat → RouteEnd
  | 0, _ => .nowhere
  | n + 1, office =>
    let e := fieldAt (tableEntry routes office route) 0 4
    let link := fun b : Nat => match officeLink office b with
      | some l => RouteEnd.link l (bitsOf e 6 4)
      | none => .nowhere
    match bitsOf e 3 0 with
    | 0 => .invalid office
    | 5 => .eject office
    | 6 => link 0
    | 7 => link 1
    | 8 => .node office false
    | 9 => .node office true
    | p => match neighbour office p with
      | some c => routeEnd routes route n c
      | none => .nowhere

/-- A message routed by its index from an office on: a route that returns to an office never ends, and its message never arrives. -/
def State.walkRoute (s : State) (m : Mess) (office : Nat) : State :=
  match routeEnd (s.image m.sect).routes m.route 65 office with
  | .eject c => if clusterOf m.dest = c then s.eject c m.dest m else s.routeFault c m
  | .node c right => s.nodeInput c right m
  | .link l vc => s.linkSend l vc m
  | .invalid c => s.routeFault c m
  | .nowhere => s

/-- One office's copies of a circular for its own tiles and links (R236, R237). -/
def State.circHere (s : State) (m : Mess) (office e : Nat) : State :=
  let s := ((List.range 32).filter fun t => bitOf e (32 + t)).foldl (fun s t => s.eject office (32 * office + t) m) s
  ((List.range 2).filter fun b => bitOf e (4 + b)).foldl (fun s b => match officeLink office b with
    | some l => s.linkSend l (bitsOf e 10 8) m
    | none => s) s

/-- The offices that a circular reaches from one of them, path the offices behind; none where a flit would come back to an office: such a circular holds its own credits and never finishes (R237). -/
def circOffices (tab : List OfficeEntry) (circ : Nat) : Nat → List Nat → Nat → Option (List Nat)
  | 0, _, _ => none
  | n + 1, path, office =>
    if path.contains office then none
    else
      let e := fieldAt (tableEntry tab office circ) 0 8
      let next := ([1, 2, 3, 4].filter fun p => bitOf e (p - 1)).filterMap (neighbour office)
      next.foldl (fun acc c => match acc, circOffices tab circ n (office :: path) c with
        | some a, some b => some (a ++ b)
        | _, _ => none) (some [office])

/-- Whether a message never leaves its source: a circular whose tables form a loop (R237, log 65). -/
def State.neverEnds (s : State) (m : Mess) (office : Nat) : Bool :=
  m.circ && (circOffices (s.image m.sect).circulars m.dest 64 [] office).isNone

/-- A circular from the office where it enters plane X. A copy of a node's result carries the circular's number in FADDR of RECV_EXCESS, not the node's: both forms of R94 fit it, and the model takes the former (log 158). -/
def State.walkCirc (s : State) (m : Mess) (office : Nat) : State :=
  let tab := (s.image m.sect).circulars
  let m := if bitOf m.source 31 then m else { m with source := m.dest + 2 ^ 29 }
  match circOffices tab m.dest 64 [] office with
  | some cs => cs.foldl (fun s c => s.circHere m c (fieldAt (tableEntry tab c m.dest) 0 8)) s
  | none => s

/-- A message enters plane X at an office. -/
def State.launch (s : State) (m : Mess) (office : Nat) : State :=
  if m.circ then s.walkCirc m office else s.walkRoute m office

/-! ### D-X injection (R90, R244) -/

/-- Whether a send is a partial bound for a node (R240, R365): its PARTIAL flag marks packed ACC40 data, which a tile or a circular may be sent too. -/
def sendsPartial (e : List Byte) : Bool := sendPartial e && sendNode e != 0xFFFF && !sendCircular e

/-- The message of a send entry. -/
def sendMess (sect ltn : Nat) (e data : List Byte) : Mess :=
  { sect := sect, route := sendRoute e, node := sendNode e, dest := sendDest e, circ := sendCircular e, isPartial := sendsPartial e,
    dst := sendDst e, parts := [(0, data)], source := ltn }

/-- D-X reads the source of a send: the bytes, or the word it cannot correct (R201). -/
def Tile.dxRead (t : Tile) (a n : Nat) : Tile × Option (List Byte) :=
  let c := t.sp.check a n
  let t := t.count 3 c.1
  match c.2 with
  | some o => (t.raise t.seq.pc.toNat 0 [(fSpUncorr, o)], none)
  | none => (t, some (t.sp.read a n))

/-- SEND_INJECT: the next send of D-X leaves (R244); late tells that its OFFSET has passed. A circular that never finishes never leaves (R237). -/
def execSendInject (t : Ltn) (late : Bool) (s : State) : Host.Outcome State Fault Refusal :=
  let tile := s.tile t
  let office := clusterOf t.toNat
  .next (s.clocked t fun s => match tile.seq.status, tile.ex.sends with
    | .exchange _, e :: rest =>
      if s.neverEnds (sendMess (s.sectNo t) t.toNat e []) office then s
      else
        let r := tile.dxRead (sendSrc e) (sendLength e)
        let s := s.setTile t { r.1 with ex := { r.1.ex with sends := if r.2.isSome then rest else [], late := r.1.ex.late + boolNat late } }
        let s := if late then s.netCount office 1 1 else s
        match r.2 with
        | some bs => s.launch (sendMess (s.sectNo t) t.toNat e bs) office
        | none => s
    | _, _ => s)

/-! ### Node results (R140, R239, R240) -/

/-- Combines one element, its bytes given, and tells whether it saturated. A row-statistic record counts once when any of its fields saturates, also where another meets a NaN: whether such an element counts the spec does not say (log 159). -/
def nodeElem (mode : Nat) (l r : List Byte) : List Byte × Bool :=
  let acc := fun (o : Nat) => combineAcc (mode == 1) (BitVec.ofNat 40 (fieldAt l o 5)) (BitVec.ofNat 40 (fieldAt r o 5))
  match mode with
  | 3 => (leBytes 4 (fadd (BitVec.ofNat 32 (leNat l)) (BitVec.ofNat 32 (leNat r))).toNat, false)
  | 2 =>
    let s := acc 0
    let q := acc 5
    let d := acc 10
    let m := fmax (BitVec.ofNat 32 (fieldAt l 16 4)) (BitVec.ofNat 32 (fieldAt r 16 4))
    (leBytes 5 s.1.toNat ++ leBytes 5 q.1.toNat ++ leBytes 5 d.1.toNat ++ [0] ++ leBytes 4 m.toNat ++ fillBytes 12 0, s.2 || q.2 || d.2)
  | _ => let a := acc 0; (leBytes 5 a.1.toNat, a.2)

/-- The result of a node and how many elements saturated. -/
def nodeResult (e l r : List Byte) : List Byte × Nat :=
  let w := ndElemBytes (ndMode e)
  let xs := (List.range (ndElements e)).map fun i => nodeElem (ndMode e) ((l.drop (w * i)).take w) ((r.drop (w * i)).take w)
  (padTo (ndPadded e) (xs.flatMap (·.1)), (xs.filter (·.2)).length)

/-- The message of a node's result (R240): it is a partial only where another node takes it. -/
def nodeMess (k node : Nat) (e data : List Byte) : Mess :=
  { sect := k, route := ndOutRoute e, node := ndOutNode e, dest := ndOutDest e, circ := ndCirc e,
    isPartial := ndMode e != 3 && ndOutNode e != 0xFFFF && !ndCirc e, dst := ndOutDst e, parts := [(0, data)], source := node + 2 ^ 30 }

/-- The gradient slice of a node's result (R240, R271). -/
def nodeSlice (k office : Nat) (e data : List Byte) : SliceMsg := { sect := k, target := ndOutDst e, data := data, origin := 32 * office }

/-- A node's result leaves (R240). -/
def State.nodeSend (s : State) (k office node : Nat) (e data : List Byte) : State :=
  if ndOutU e then s.pushSlice (nodeSlice k office e data) else s.launch (nodeMess k node e data) office

/-- Whether a node's result may leave: onto plane U only against the credits of the group's input buffer (R267, R272). -/
def State.nodeMay (s : State) (k office : Nat) (e data : List Byte) : Bool := !ndOutU e || s.sliceReady (nodeSlice k office e data)

/-- Adds the words that flit codes have corrected to NET_CORR of a cluster (R252). -/
def State.netCorrected (s : State) (cluster n : Nat) : State := if n = 0 then s else s.netCount cluster 0 n

/-- NODE_COMBINE: a node whose two inputs have arrived whole emits its result, and REDUCE_SAT after it (R140, R239). Its office has checked the flits of both: words corrected count in NET_CORR, and an uncorrectable one fails the chip (R252, log 213). -/
def execNodeCombine (office : ClusterId) (node : BitVec 12) (s : State) : Host.Outcome State Fault Refusal :=
  .next (match s.nodes.find? (fun b => b.office == office.toNat && b.node == node.toNat) with
    | none => s
    | some b => match b.left, b.right with
      | l :: ls, r :: rs =>
        let e := tableEntry (s.image b.sect).nodes b.office b.node
        if l.data.length ≠ ndPadded e ∨ r.data.length ≠ ndPadded e then s
        else
          let out := nodeResult e l.data r.data
          let record := (s.sectN b.sect).exchange.getD 0
          let code := flitCheck (l.flips ++ r.flips)
          if !s.nodeMay b.sect b.office e out.1 then s
          else
            let s := (s.setNodeBuf { b with left := ls, right := rs }).netCorrected b.office code.1
            if code.2 then s.failChip 1 b.office
            else
              let s := s.nodeSend b.sect b.office b.node e out.1
              if out.2 = 0 then s else s.event 0x0205 b.sect (items [record, b.node, out.2])
      | _, _ => s)

/-! ### Receipt (R30, R93, R252) -/

/-- D-X writes a message into the scratchpad, each flit at DST plus its offset (R231). -/
def Tile.dxWrite (t : Tile) (dst : Nat) (parts : List (Nat × List Byte)) : Tile :=
  { t with sp := parts.foldl (fun (m : Scratchpad) p => m.write (dst + p.1) p.2) t.sp, ex := { t.ex with got := t.ex.got + 1 } }

/-- Whether a tile may receive: it is in its exchange phase, or its section has stopped in one (R96), and RECV_COUNT is not reached. -/
def State.receives (s : State) (t : Ltn) (m : Msg) : Bool :=
  let tile := s.tile t
  let on := match tile.seq.status with
    | .exchange _ => true
    | _ => (s.sectN m.sect).phase == .faulted || tile.fault.isSome
  on && decide (tile.ex.got < tile.ex.want)

/-- MESSAGE_RECEIVE: the last flit of the i-th message on its way to a tile is written (R231), or the message is in excess (R93). The offices have checked its flits (R252): words corrected count in NET_CORR of the tile's office, and an uncorrectable one fails the chip. -/
def execMessageReceive (t : Ltn) (i : Nat) (s : State) : Host.Outcome State Fault Refusal :=
  .next (match (s.msgs.zipIdx.filter fun e => e.1.ltn == t.toNat)[i]? with
    | none => s
    | some (m, at_) =>
      let s := { s with msgs := s.msgs.eraseIdx at_ }
      let code := flitCheck m.flips
      let s := s.netCount (clusterOf t.toNat) 0 code.1
      if code.2 then s.failChip 1 (clusterOf t.toNat)
      else if s.fencedLtn t.toNat then s.fencedLetter true t.toNat m.dst (partsLen m.parts)
      else if s.receives t m then s.setTile t ((s.tile t).dxWrite m.dst m.parts)
      else (s.faultTile t.toNat fRecvExcess m.source).deadLetter 5 1 true m.dst t.toNat (partsLen m.parts))

/-! ### Inbound frames (R365, R378-R380) -/

/-- The 64-bit KIND, ROUTE, DEST and DST of a message, as a key of its frames. -/
def frameKey (h : Nat) : Nat := fhLvc h + 8 * fhKind h + 256 * boolNat (fhCirc h) + 2 ^ 9 * fhRoute h + 2 ^ 23 * fhDest h + 2 ^ 35 * fhDst h

/-- The section whose link l is (R378): the one that holds its edge cluster. -/
def State.linkSect (s : State) (l : Nat) : Option Nat := s.sectOf (linkCluster l)

/-- Fields of a window (R380). -/
def wdTarget (w : List Byte) : Nat := fieldAt w 0 2
def wdPeer (w : List Byte) : Nat := fieldAt w 2 2
def wdBase (w : List Byte) : Nat := fieldAt w 4 4
def wdLength (w : List Byte) : Nat := fieldAt w 8 4
def wdOpen (w : List Byte) : Nat := fieldAt w 12 2
def wdClose (w : List Byte) : Nat := fieldAt w 14 2

/-- Whether a window is open in the phase of record k to a peer. -/
def windowOpen (w : List Byte) (k peer : Nat) : Bool :=
  decide (wdOpen w ≤ k) && decide (k ≤ wdClose w) && (wdPeer w == peer || wdPeer w == 0xFFFF)

/-- The check of a frame against the windows of its section in the phase of record k (R380); a frame of the reserved KIND falls inside no window. -/
def frameAllowed (ws : List (List Byte)) (k peer h : Nat) : Bool :=
  let n := 64 * fhNf h
  match fhKind h with
  | 0 =>
    let a := 64 * fhDst h + 64 * fhOffset h
    let target := if fhCirc h then fhDest h + 0x8000 else fhDest h
    ws.any fun w => windowOpen w k peer && (if fhCirc h then wdTarget w == target else !bitOf (wdTarget w) 15 && bitsOf (wdTarget w) 10 0 == target)
      && decide (wdBase w ≤ a) && decide (a + n ≤ wdBase w + wdLength w)
  | 2 =>
    match ws[bitsOf (fhDst h) 7 0]? with
    | some w => windowOpen w k peer && bitsOf (fhDst h) 13 8 == 0 && decide (64 * fhOffset h + n ≤ wdLength w)
    | none => false
  | 1 => true
  | _ => false

/-- The scratchpad offset of a message's byte 0 (R380). -/
def frameDst (ws : List (List Byte)) (h : Nat) : Nat :=
  if fhKind h = 2 then wdBase (ws.getD (bitsOf (fhDst h) 7 0) []) else 64 * fhDst h

/-- The peer that windows are held against: the link's, or in replay, where frames come out of the capture area, the one the span table expects (R376, R380, R457). -/
def State.windowPeer (s : State) (k l : Nat) : Nat :=
  if bitOf (s.reg (oSect k + sReplay)) 0 then spanPeerChip (s.sectN k).spanTable l else (s.linkN l).peerChip

/-- WINDOW_VIOLATION (R380, R389). -/
def State.windowViolation (s : State) (k l h : Nat) : State :=
  let x := s.linkN l
  let s := s.setLinkN l { x with refused := x.refused ++ [frameKey h], partials := x.partials.filter fun e => e.1 != frameKey h }
  let s := s.deadLetter 0x20 4 true (frameDst (s.image k).windows h + 64 * fhOffset h) (s.windowPeer k l + 65536 * l) (64 * fhNf h)
  (s.event 0x0706 k (items [l, fhDest h, fhDst h, fhOffset h])).faultSect k 0x0706

/-- The message whose frames have all arrived on a link: a WINDOW message goes to the window's TARGET (R380, log 163). -/
def linkMess (ws : List (List Byte)) (k l h : Nat) (parts : List (Nat × List Byte)) : Mess :=
  let w := ws.getD (bitsOf (fhDst h) 7 0) []
  let toWindow := fhKind h == 2
  { sect := k, route := fhRoute h, node := Config.inboundNode l (fhRoute h)
    dest := if toWindow then (if bitOf (wdTarget w) 15 then bitsOf (wdTarget w) 11 0 else bitsOf (wdTarget w) 10 0) else fhDest h
    circ := if toWindow then bitOf (wdTarget w) 15 else fhCirc h
    isPartial := fhKind h == 1, dst := frameDst ws h, parts := parts, source := l + 2 ^ 31 }

/-- One frame passes into the compute die (R365, R379, R380). -/
def State.frameIn (s : State) (k l : Nat) (f : Frame) : State :=
  let h := f.header
  let key := frameKey h
  let ws := (s.image k).windows
  let x := s.linkN l
  if x.refused.contains key then
    (if fhLast h then s.setLinkN l { x with refused := x.refused.filter (· != key) } else s)
  else if !frameAllowed ws ((s.sectN k).exchange.getD 0) (s.windowPeer k l) h then s.windowViolation k l h
  else
    let parts := (((x.partials.find? fun e => e.1 == key).map (·.2)).getD []) ++ [(64 * fhOffset h, f.data.take (64 * fhNf h))]
    let rest := x.partials.filter fun e => e.1 != key
    if fhLast h then (s.setLinkN l { x with partials := rest }).launch (linkMess ws k l h parts) (linkCluster l)
    else s.setLinkN l { x with partials := rest ++ [(key, parts)] }

/-! ### Capture (R456) -/

/-- The capture area: base and bytes. -/
def State.capBase (s : State) : Nat := 65536 * bitsOf (s.reg oCapBase) 23 0
def State.capLen (s : State) : Nat := 65536 * s.reg oCapLen

/-- Whether capture runs for section k. -/
def State.capturing (s : State) (k : Nat) : Bool := s.repair.capActive && bitsOf (s.reg oCapCtl) 3 0 == k

/-- Bytes of a capture entry's data. -/
def capDataLen (h : Nat) : Nat := if fhLvc h = 5 then 256 else 64 * fhNf h

/-- A capture entry. -/
def capEntry (l h postmark ss record : Nat) (data : List Byte) : List Byte :=
  padTo 64 (leBytes 1 l ++ leBytes 1 (fhLvc h) ++ leBytes 1 (if fhLvc h = 5 then 3 else fhNf h - 1) ++ leBytes 1 0 ++ leBytes 4 postmark ++ leBytes 4 ss
    ++ leBytes 2 record ++ leBytes 2 0 ++ leBytes 8 h) ++ padTo (capDataLen h) data

/-- Appends the entry of a frame to the capture area, or stops capture when the area is full (R456); an entry outside the SNAPSHOT partition is dropped (R302). A STATE frame comes when the phase before its barrier is over. -/
def State.captureFrame (s : State) (k l record : Nat) (f : Frame) : State :=
  if !s.capturing k then s
  else
    let x := s.sectN k
    let pm := match x.run with
      | some r => stPostmark r.desc
      | none => 0
    let ss := match x.run with
      | some r => r.stepSs + (if fhLvc f.header = 5 then boolNat x.exchange.isSome else 0)
      | none => 0
    let e := capEntry l f.header pm ss record f.data
    let a := s.capBase + s.repair.capUsed
    if s.capLen < s.repair.capUsed + e.length then
      let s := { s with repair := { s.repair with capActive := false, capDone := true } }
      (s.setReg oCapCtl (s.reg oCapCtl ||| 0x40)).event 0x0A0A k (items [k, pm])
    else
      let s := if s.inPart 3 a e.length then s.hbmWrite a e else s.deadLetter 9 4 true a ((s.linkN l).peerChip + 65536 * l) e.length
      let s := { s with repair := { s.repair with capUsed := s.repair.capUsed + e.length } }
      s.setSectN k { x with capBytes := x.capBytes ++ e, capFrames := x.capFrames + 1 }

/-! ### Receive buffers of the edge offices (R379) -/

/-- Whether a cluster is in an exchange phase: some tile of it has not completed its own. -/
def State.inPhase (s : State) (cluster : Nat) : Bool :=
  (List.range 32).any fun t => match (s.tileN (32 * cluster + t)).seq.status with
    | .exchange _ => true
    | _ => false

/-- One frame of LVC0-4 leaves its receive buffer for the compute die, its credit is returned. -/
def State.frameThrough (s : State) (k l lvc : Nat) (f : Frame) : State :=
  let x := s.sectN k
  let s := s.setSectN k { x with linkUse := addLinkUse x.linkUse l (fhNf f.header) 0 (frameDigest f) 0 }
  let s := s.captureFrame k l (x.exchange.getD 0) f
  let s := s.frameIn k l f
  let y := s.linkN l
  s.setLinkN l { y with toReturn := y.toReturn.setIfInBounds lvc (y.toReturn.toList.getD lvc 0 + 1) }

/-- Takes the first frame out of the receive buffer of an LVC. -/
def Link.pop (x : Link) (lvc : Nat) : Link := { x with rxq := x.rxq.setIfInBounds lvc (x.rxq.toList.getD lvc []).tail }

/-- Frames of one LVC of a link move on while its section's cluster is in an exchange phase; those that find the section IDLE, FAULTED or OFF are discarded, as are frames of LVC0-4 on a failed chip (R379, R446). Frames of a link that the span table does not use move on like the others, to the windows (R380). -/
def State.drainLvc (s : State) (l lvc : Nat) : Nat → State
  | 0 => s
  | n + 1 =>
    match (s.linkN l).rxq.toList.getD lvc [] with
    | [] => s
    | f :: _ =>
      let drop := fun s : State =>
        let y := (s.linkN l).pop lvc
        State.drainLvc (s.setLinkN l { y with toReturn := y.toReturn.setIfInBounds lvc (y.toReturn.toList.getD lvc 0 + 1) }) l lvc n
      match s.linkSect l with
      | none => drop s
      | some k =>
        let x := s.sectN k
        if x.phase = .idle ∨ x.phase = .faulted ∨ x.phase = .off ∨ s.repair.failed then drop s
        else if s.inPhase (linkCluster l) then State.drainLvc ((s.setLinkN l ((s.linkN l).pop lvc)).frameThrough k l lvc f) l lvc n
        else s

/-- Frames waiting in the receive buffers of a link's LVC0-4 move on. -/
def State.drainLink (s : State) (l : Nat) : State :=
  (List.range 5).foldl (fun s v => s.drainLvc l v ((s.linkN l).rxq.toList.getD v []).length) s

/-! ### Completion and overruns (R90, R245-R247) -/

/-- An overrun in a cluster: counted once there, and once for the section's phase (R246). -/
def State.overrun (s : State) (k cluster : Nat) : State :=
  let x := s.sectN k
  if x.overran.contains cluster then s
  else
    let s := s.netCount cluster 2 1
    let first := x.overran.isEmpty
    let s := if first then s.count (oSect k + sOvrCnt) 0 1 else s
    s.setSectN k { x with
      overran := x.overran ++ [cluster]
      run := if first then x.run.map fun r => { r with overruns := r.overruns + 1 } else x.run }

/-- BOUND × 2^OVERRUN_LIMIT of a section's phase; none where the limit is 15, which disables the check (R247). -/
def State.overrunLimit (s : State) (k bound : Nat) : Option Nat :=
  let l := bitsOf (s.reg (oSect k + sOvr)) 3 0
  if l = 15 then none else some (bound * 2 ^ l)

/-- Whether a duration reaches the limit of R247. -/
def State.limitReached (s : State) (k bound duration : Nat) : Bool :=
  match s.overrunLimit k bound with
  | some n => decide (n ≤ duration)
  | none => false

/-- EXCHANGE_OVERRUN in a cluster (R247). -/
def State.exchangeFault (s : State) (k record cluster : Nat) : State :=
  (s.event 0x0204 k (items [k, record, cluster])).faultSect k 0x0204

/-- EXCHANGE_COMPLETE: a tile has received what record k expects and its sends have left: SYNC retires (R90), but not while a node of the section has a result to emit (R267); duration is what its cluster measures (R245). A duration at which the limit had passed means that the phase was stopped before (R247). -/
def execExchangeComplete (t : Ltn) (duration : Nat) (s : State) : Host.Outcome State Fault Refusal :=
  let tile := s.tile t
  .next (s.clocked t fun s => match tile.seq.status with
    | .exchange k =>
      let sect := s.sectNo t
      if !tile.ex.sends.isEmpty || tile.ex.got != tile.ex.want || tile.fault.isSome || s.nodesBusy sect then s
      else
        let r := s.recordOf sect t.toNat k
        if s.limitReached sect (recBound r) duration then s.exchangeFault sect k (clusterOf t.toNat)
        else
          let s := s.setTile t { tile with seq := { tile.seq.next with status := .running, syncs := tile.seq.syncs + 1, lastEnd := recStepEnd r } }
          if recBound r < duration then s.overrun sect (clusterOf t.toNat) else s
    | _ => s)

/-- EXCHANGE_OVERRUN: a phase reaches BOUND × 2^OVERRUN_LIMIT before it has ended in a cluster (R247). -/
def execExchangeOverrun (k : SectId) (cluster : ClusterId) (s : State) : Host.Outcome State Fault Refusal :=
  let x := s.sectN k.toNat
  .next (match x.exchange with
    | some r =>
      if x.phase = .running ∧ s.inSect k.toNat cluster.toNat ∧ s.inPhase cluster.toNat ∧ (s.overrunLimit k.toNat (recBound (s.recordOf k.toNat (32 * cluster.toNat) r))).isSome then
        s.exchangeFault k.toNat r cluster.toNat
      else s
    | none => s)

/-- TILE_FAULT: one event per faulting tile in ascending LTN, and the section stops (R97, R98). -/
def execTileFault (k : SectId) (s : State) : Host.Outcome State Fault Refusal :=
  .next (s.stopFaulted k.toNat)

end Sys2Proof.Machine
end

