-- ==== Sys2Proof/Machine/Trim.lean ====
section
/-! DEFINITION. Trim.lean: the trimming stage: trim profiles, selection of pictures, crop and halving, resampling, colour conversion, normalisation, tubelet cutting (R314-R321). -/

namespace Sys2Proof.Machine

/-- Fields of a trim profile (R314). -/
def pfSrcW (p : List Byte) : Nat := fieldAt p 0 2
def pfSrcH (p : List Byte) : Nat := fieldAt p 2 2
def pfX0 (p : List Byte) : Nat := fieldAt p 4 2
def pfY0 (p : List Byte) : Nat := fieldAt p 6 2
def pfCw (p : List Byte) : Nat := fieldAt p 8 2
def pfCh (p : List Byte) : Nat := fieldAt p 10 2
def pfOw (p : List Byte) : Nat := fieldAt p 12 2
def pfOh (p : List Byte) : Nat := fieldAt p 14 2
def pfPre (p : List Byte) : Nat := bitsOf (fieldAt p 16 1) 1 0
def pfKernel (p : List Byte) : Nat := bitsOf (fieldAt p 16 1) 3 2
def pfMatrix (p : List Byte) : Nat := bitsOf (fieldAt p 17 1) 1 0
def pfFull (p : List Byte) : Bool := bitOf (fieldAt p 17 1) 2
def pfFields (p : List Byte) : Bool := bitOf (fieldAt p 17 1) 3
def pfT (p : List Byte) : Nat := [1, 2, 4, 0].getD (bitsOf (fieldAt p 18 1) 1 0) 0
def pfP (p : List Byte) : Nat := [8, 14, 16, 32].getD (bitsOf (fieldAt p 18 1) 3 2) 8
def pfFmt (p : List Byte) : Nat := bitsOf (fieldAt p 19 1) 3 0
def pfMean (p : List Byte) (c : Nat) : Word := BitVec.ofNat 32 (fieldAt p (24 + 4 * c) 4)
def pfIstd (p : List Byte) (c : Nat) : Word := BitVec.ofNat 32 (fieldAt p (36 + 4 * c) 4)

/-- The checks of a profile (R314). -/
def profileOk (p : List Byte) (codec : Nat) : Bool :=
  let m := 2 ^ (pfPre p + 1)
  let w1 := pfCw p / 2 ^ pfPre p
  let h1 := pfCh p / 2 ^ pfPre p
  bitsOf (fieldAt p 16 1) 7 4 == 0 && bitsOf (fieldAt p 17 1) 7 4 == 0 && bitsOf (fieldAt p 18 1) 7 4 == 0 && bitsOf (fieldAt p 19 1) 7 4 == 0
  && fieldAt p 20 4 == 0 && allZero ((p.drop 48).take 80)
  && decide (16 ≤ pfSrcW p) && decide (pfSrcW p ≤ 4096) && decide (16 ≤ pfSrcH p) && decide (pfSrcH p ≤ 2304)
  && pfPre p != 3 && pfKernel p != 3 && pfMatrix p != 3 && pfT p != 0 && [2, 3, 5].contains (pfFmt p)
  && pfOw p % pfP p == 0 && pfOh p % pfP p == 0
  && (List.range 3).all (fun c => (f32 (pfMean p c)).isFin && (f32 (pfIstd p c)).isFin)
  && pfX0 p % m == 0 && pfY0 p % m == 0 && pfCw p % m == 0 && pfCh p % m == 0
  && decide (pfX0 p + pfCw p ≤ pfSrcW p) && decide (pfY0 p + pfCh p ≤ pfSrcH p)
  && decide (pfOw p ≤ 8 * w1) && decide (w1 ≤ 2 * pfOw p) && decide (pfOh p ≤ 8 * h1) && decide (h1 ≤ 2 * pfOh p)
  && (!pfFields p || decide (codec ≤ 1))

/-! ### Selection (R316) -/

/-- The lines of a plane of width w, from line i on in steps of two. -/
def fieldLines (plane : List Nat) (w h i : Nat) : List Nat :=
  (List.range ((h + 1 - i) / 2)).flatMap fun r => (plane.drop ((2 * r + i) * w)).take w

/-- Chroma size of a picture. -/
def chromaW (x : Picture) : Nat := x.w / 2
def chromaH (x : Picture) : Nat := if x.chroma422 then x.h else x.h / 2

/-- One field of a frame, 0 top, 1 bottom. -/
def splitField (x : Picture) (i : Nat) : Picture :=
  { x with
    h := x.h / 2
    luma := fieldLines x.luma x.w x.h i
    cb := fieldLines x.cb (chromaW x) (chromaH x) i
    cr := fieldLines x.cr (chromaW x) (chromaH x) i }

/-- Whether bytes begin with a start code prefix, one byte 1 after two or more zeros, and one of the given values after it where some are given. -/
def startCode (b : List Byte) (next : List Byte) : Bool :=
  let r := b.dropWhile fun x => x == 0
  decide (2 ≤ (b.takeWhile fun x => x == 0).length) && r.head? == some 1 && (next.isEmpty || (r.drop 1).head?.any next.contains)

/-- The form in which a stream is accepted (R308): from a sequence header of H.262, an Annex B byte stream, from a sequence header OBU with its size field (start codes and OBU headers are those of the standards, log 219). -/
def formOk (codec : Nat) (chunk : List Byte) : Bool :=
  match codec with
  | 0 => startCode chunk [0xB3]
  | 1 => startCode chunk []
  | 2 => startCode chunk []
  | _ => chunk.head?.any fun b => bitsOf b.toNat 7 3 == 1 && bitOf b.toNat 1

/-- The streams that R308 lists for a codec, within the limits of R309. -/
def streamOk (codec : Nat) (x : Picture) : Bool :=
  let i := x.info
  let among := fun (ps : List VideoProfile) (top : Nat) => ps.contains i.profile && decide (i.level ≤ top)
  !i.otherChroma && !i.extension && decide (x.w ≤ 4096) && decide (x.h ≤ 2304) &&
  match codec with
  | 0 => among [.main] 4 && !x.chroma422 && x.depth == 8
  | 1 => among [.high, .high10, .high422] 52 && (x.depth == 8 || x.depth == 10)
  | 2 => among [.main, .main10, .main42210] 51 && (x.depth == 8 || x.depth == 10)
  | _ => among [.main] 51 && !x.chroma422 && (x.depth == 8 || x.depth == 10)


/-- The lines of two fields in turn, w samples each. -/
def weaveLines (w h : Nat) (top bottom : List Nat) : List Nat :=
  (List.range h).flatMap fun r => ((if r % 2 = 0 then top else bottom).drop (r / 2 * w)).take w

/-- The frame woven of a top and a bottom field (R316). -/
def weave (t b : Picture) : Picture :=
  let h := t.h + b.h
  let ch := chromaH t + chromaH b
  { t with
    h := h, luma := weaveLines t.w h t.luma b.luma, cb := weaveLines (chromaW t) ch t.cb b.cb, cr := weaveLines (chromaW t) ch t.cr b.cr
    damage := if t.damage = 0 then b.damage else t.damage }

/-- The frame of an output: a field pair is woven (R316). -/
def Coded.toFrame : Coded → Picture
  | .frame x => x
  | .fields t b => weave t b

/-- The rectangle of a plane of width pw. -/
def planeWindow (plane : List Nat) (pw x y w h : Nat) : List Nat := (List.range h).flatMap fun r => (plane.drop ((y + r) * pw + x)).take w

/-- The picture after the stream's own cropping (R310). -/
def Recon.picture (r : Recon) : Picture :=
  let x := r.coded.toFrame
  let v := if x.chroma422 then 1 else 2
  { x with
    w := r.cropW, h := r.cropH
    luma := planeWindow x.luma x.w r.cropX r.cropY r.cropW r.cropH
    cb := planeWindow x.cb (chromaW x) (r.cropX / 2) (r.cropY / v) (r.cropW / 2) (r.cropH / v)
    cr := planeWindow x.cr (chromaW x) (r.cropX / 2) (r.cropY / v) (r.cropW / 2) (r.cropH / v) }

/-- The damage of a picture, those decoded before it being damaged as given (R309, R324): UNSUPPORTED where its stream lies outside R308, BITSTREAM where its decoding violated the standard or it references a damaged picture. -/
def Recon.damage (codec : Nat) (before : List Nat) (r : Recon) : Nat :=
  if !streamOk codec r.picture then 2
  else if r.violated || r.refs.any (fun i => before.getD i 0 != 0) then 1
  else 0

/-- The damage of each picture of a decoder, in decoding order. -/
def damages (codec : Nat) (rs : List Recon) : List Nat := rs.foldl (fun ds r => ds ++ [r.damage codec ds]) []

/-- Puts a picture behind those that are output before it or with it. -/
def insertOutput (e : Nat × Picture) : List (Nat × Picture) → List (Nat × Picture)
  | [] => [e]
  | x :: xs => if e.1 < x.1 then e :: x :: xs else x :: insertOutput e xs

/-- The pictures that a decoder outputs, in output order, with the damage of each (R310, R324). -/
def Decoded.outputs (codec : Nat) (x : Decoded) : List Picture :=
  (((x.pics.zip (damages codec x.pics)).filter fun e => e.1.shown).foldl (fun acc e => insertOutput (e.1.order, { e.1.picture with damage := e.2 }) acc) []).map (·.2)

/-- The reason that every picture after the decoder's last one takes: that of the last picture where the decoder could not resume, TRUNCATED where the chunk ended (R324). -/
def Decoded.later (codec : Nat) (x : Decoded) : Nat :=
  if !x.stopped then 4 else match (damages codec x.pics).getLast? with
    | some 0 => 1
    | some d => d
    | none => 1

/-- The output pictures in the order that counts: frames, or with FIELDS the two fields of each in the order that the stream signals, top first when it signals none (R316). -/
def outputPics (codec : Nat) (fields : Bool) (d : Decoded) : List Picture :=
  (d.outputs codec).flatMap fun x =>
    if !fields then [x] else if x.bottomFirst then [splitField x 1, splitField x 0] else [splitField x 0, splitField x 1]

/-- A picture that does not exist, with its damage reason. -/
def noPicture (reason : Nat) : Picture :=
  { w := 0, h := 0, chroma422 := false, depth := 8, luma := [], cb := [], cr := [], bottomFirst := false, damage := reason }

/-- The kept pictures of a parcel, with the damage of each (R308, R316, R324); d and phase as in DECIM; none for a failed read of the chunk. -/
def keptPics (p : List Byte) (codec skip d phase frames : Nat) (chunk : Option (List Byte)) : List Picture :=
  match chunk with
  | none => List.replicate frames (noPicture 5)
  | some c =>
    let x := Config.decode codec c
    let out := outputPics codec (pfFields p) x
    if !formOk codec c then List.replicate frames (noPicture 2)
    else (List.range frames).map fun i =>
      match out[skip + phase + d * i]? with
      | none => noPicture (x.later codec)
      | some y => if y.damage = 0 && !(y.w == pfSrcW p && y.h == pfSrcH p) then { y with damage := 3 } else y

/-! ### Crop and halving (R317) -/

/-- A plane: width and samples row by row. -/
abbrev Plane := Nat × List Nat

/-- A sample. -/
def Plane.at (p : Plane) (x y : Nat) : Nat := p.2.getD (y * p.1 + x) 0

/-- The rectangle of a plane, its samples as 12-bit values. -/
def cropPlane (p : Plane) (depth x0 y0 w h : Nat) : Plane :=
  (w, (List.range h).flatMap fun y => (List.range w).map fun x => p.at (x0 + x) (y0 + y) * 2 ^ (12 - depth))

/-- One halving of a plane. -/
def halvePlane (p : Plane) : Plane :=
  let w := p.1 / 2
  let h := if p.1 = 0 then 0 else p.2.length / p.1 / 2
  (w, (List.range h).flatMap fun y => (List.range w).map fun x =>
    (p.at (2 * x) (2 * y) + p.at (2 * x + 1) (2 * y) + p.at (2 * x) (2 * y + 1) + p.at (2 * x + 1) (2 * y + 1) + 2) / 4)

/-- n halvings. -/
def halvings : Nat → Plane → Plane
  | 0, p => p
  | n + 1, p => halvings n (halvePlane p)

/-! ### Resampling (R318) -/

/-- num / den rounded to an integer by RNE, den positive. -/
def rneDiv (num : Int) (den : Nat) : Int :=
  let q := num / den
  let r := num % den
  if 2 * r < den then q else if (den : Int) < 2 * r then q + 1 else if q % 2 = 0 then q else q + 1

/-- The Lanczos-3 kernel sinc(d) sinc(d / 3) at d = k / 64, times 4,096, rounded by RNE: R318's formula evaluated for k = 0..191. -/
def lanczosTable : List Int :=
  [4096, 4094, 4089, 4080, 4067, 4050, 4031, 4007, 3980, 3950, 3916, 3879, 3838, 3795, 3748, 3698, 3646, 3590, 3532, 3471, 3407, 3341,
   3273, 3203, 3130, 3056, 2979, 2901, 2822, 2741, 2658, 2575] ++
  [2490, 2405, 2318, 2231, 2144, 2056, 1969, 1881, 1793, 1705, 1617, 1530, 1444, 1358, 1274, 1190, 1107, 1025, 944, 865, 788, 712, 637,
   565, 494, 425, 358, 293, 230, 169, 110, 54] ++
  [0, -52, -101, -148, -193, -235, -275, -313, -348, -381, -411, -439, -464, -488, -509, -528, -544, -559, -571, -581, -589, -596, -600,
   -602, -603, -602, -600, -595, -590, -583, -574, -564] ++
  [-553, -541, -528, -514, -499, -483, -467, -450, -432, -414, -395, -376, -357, -337, -317, -297, -278, -258, -238, -219, -199, -180,
   -162, -143, -125, -108, -91, -74, -58, -43, -28, -14] ++
  [0, 13, 25, 37, 47, 58, 67, 76, 84, 91, 98, 103, 109, 113, 117, 120, 123, 125, 126, 127, 128, 127, 127, 126, 124, 122, 120, 117, 114,
   111, 107, 104] ++
  [100, 95, 91, 87, 82, 78, 73, 68, 64, 59, 55, 50, 46, 42, 38, 34, 30, 27, 23, 20, 17, 14, 12, 10, 8, 6, 4, 3, 2, 1, 0, 0]

/-- A kernel's value at |d| = k / 64, times 4,096 and rounded. -/
def kernelValue (kernel k : Nat) : Int :=
  let x : Int := k
  match kernel with
  | 0 => if k < 64 then 4096 - 64 * x else 0
  | 1 =>
    if k ≤ 64 then rneDiv (3 * x ^ 3 - 320 * x ^ 2 + 524288) 128
    else if k < 128 then rneDiv (-(x ^ 3) + 320 * x ^ 2 - 32768 * x + 1048576) 128 else 0
  | _ => lanczosTable.getD k 0

/-- Adds v to the largest element of a row, the lowest index on a tie. -/
def addToLargest (v : Int) (xs : List Int) : List Int :=
  let m := xs.foldl max (xs.headD 0)
  let i := xs.findIdx (· == m)
  xs.mapIdx fun j x => if j = i then x + v else x

/-- The coefficient row c[ph] of a kernel: it sums to 4,096. -/
def coefRow (kernel ph : Nat) : List Int :=
  let row := (List.range 8).map fun (n : Nat) => kernelValue kernel (64 * (n : Int) - 192 - (ph : Int)).natAbs
  addToLargest (4096 - row.foldl (· + ·) 0) row

/-- One output sample of a line of n samples read through f, out samples long. -/
def resampleAt (kernel n out o : Nat) (f : Nat → Nat) : Nat :=
  let pos : Int := ((((2 * o + 1) * n * 65536) / (2 * out) : Nat) : Int) - 32768
  let i := pos / 65536
  let ph := (pos / 1024 % 64).toNat
  let v := ((coefRow kernel ph).mapIdx fun j c => c * (f (min (max (i - 3 + j) 0) ((n : Int) - 1)).toNat : Int)).foldl (· + ·) 0
  (min (max ((v + 2048) / 4096) 0) 4095).toNat

/-- The horizontal pass, then the vertical pass of a plane. -/
def resample (kernel ow oh : Nat) (p : Plane) : Plane :=
  let h := if p.1 = 0 then 0 else p.2.length / p.1
  let q : Plane := (ow, (List.range h).flatMap fun y => (List.range ow).map fun o => resampleAt kernel p.1 ow o fun x => p.at x y)
  (ow, (List.range oh).flatMap fun o => (List.range ow).map fun x => resampleAt kernel h oh o fun y => q.at x y)

/-! ### Colour, normalisation (R319, R320) -/

/-- Kr and Kb times 10,000 of a matrix. -/
def colourK (m : Nat) : Nat × Nat :=
  match m with
  | 0 => (2990, 1140)
  | 1 => (2126, 722)
  | _ => (2627, 593)

/-- R, G and B of one position from its 12-bit Y, Cb and Cr. -/
def colourRgb (matrix : Nat) (full : Bool) (y cb cr : Nat) : List Word :=
  let (kr, kb) := colourK matrix
  let kg := 10000 - kr - kb
  let oy : Int := if full then 0 else 256
  let sy := if full then ratF32 false 1 4095 else ratF32 false 1 3504
  let sc := if full then ratF32 false 1 4095 else ratF32 false 1 3584
  let yf := fmul (intF32 ((y : Int) - oy)) sy
  let bf := fmul (intF32 ((cb : Int) - 2048)) sc
  let rf := fmul (intF32 ((cr : Int) - 2048)) sc
  [ffma rf (ratF32 false (2 * (10000 - kr)) 10000) yf,
   ffma bf (ratF32 true (2 * kb * (10000 - kb)) (10000 * kg)) (ffma rf (ratF32 true (2 * kr * (10000 - kr)) (10000 * kg)) yf),
   ffma bf (ratF32 false (2 * (10000 - kb)) 10000) yf]

/-- A channel's element in the profile's format. -/
def normalise (p : List Byte) (c : Nat) (v : Word) : Nat :=
  let f := (Fmt.ofCode (pfFmt p)).getD .bf16
  (Fmt.round f .sat .rne (f32 (fmul (fsub v (pfMean p c)) (pfIstd p c)))).bits

/-- The trimmed luma and chroma planes of a picture. -/
def trimPlanes (p : List Byte) (x : Picture) : Plane × Plane × Plane :=
  let v := if x.chroma422 then 1 else 2
  let luma := cropPlane (x.w, x.luma) x.depth (pfX0 p) (pfY0 p) (pfCw p) (pfCh p)
  let chroma := fun c : List Nat => cropPlane (chromaW x, c) x.depth (pfX0 p / 2) (pfY0 p / v) (pfCw p / 2) (pfCh p / v)
  let r := fun q : Plane => resample (pfKernel p) (pfOw p) (pfOh p) (halvings (pfPre p) q)
  (r luma, r (chroma x.cb), r (chroma x.cr))

/-! ### Tubelets (R321, R322, R324) -/

/-- Patches per picture of a profile. -/
def patches (p : List Byte) : Nat := pfOw p / pfP p * (pfOh p / pfP p)

/-- Bytes of a slot: header and padded payload. -/
def slotBytes (p : List Byte) : Nat :=
  64 + roundUp (((Fmt.ofCode (pfFmt p)).getD .bf16).bytes (pfT p * pfP p * pfP p * 3)) 64

/-- The payload of the tubelet of a group of pictures and a patch. -/
def tubeletPayload (p : List Byte) (pics : List Picture) (py px : Nat) : List Byte :=
  let f := (Fmt.ofCode (pfFmt p)).getD .bf16
  let codes := pics.flatMap fun x =>
    let (ly, lb, lr) := trimPlanes p x
    (List.range (pfP p)).flatMap fun row => (List.range (pfP p)).flatMap fun col =>
      let sx := px * pfP p + col
      let sy := py * pfP p + row
      (colourRgb (pfMatrix p) (pfFull p) (ly.at sx sy) (lb.at sx sy) (lr.at sx sy)).mapIdx fun c v => normalise p c v
  packElems f 0 codes

/-- The slot, header included, of tubelet i of a parcel: desc as in R311, ring 0-31. -/
def tubeletSlot (p desc : List Byte) (ring : Nat) (pics : List Picture) (i : Nat) : List Byte :=
  let g := i / patches p
  let py := i % patches p / (pfOw p / pfP p)
  let px := i % patches p % (pfOw p / pfP p)
  let grp := (pics.drop (g * pfT p)).take (pfT p)
  let bad := ((grp.find? fun x => x.damage != 0).map (·.damage)).getD 0
  leBytes 8 (fieldAt desc 16 6 + i) ++ leBytes 4 (fieldAt desc 24 4) ++ leBytes 4 (fieldAt desc 28 4) ++ leBytes 4 (g * pfT p)
  ++ leBytes 2 py ++ leBytes 2 px ++ leBytes 2 (boolNat (bad != 0) + 2 * bad) ++ leBytes 1 ring ++ fillBytes 37 0
  ++ padTo (slotBytes p - 64) (if bad = 0 then tubeletPayload p grp py px else [])

/-- Whether tubelet i of a parcel is damaged. -/
def tubeletDamaged (p : List Byte) (pics : List Picture) (i : Nat) : Bool :=
  ((pics.drop (i / patches p * pfT p)).take (pfT p)).any fun x => x.damage != 0

end Sys2Proof.Machine
end

