-- ==== Sys2Proof/Machine/Ingest.lean ====
section
/-! DEFINITION. Ingest.lean: the decode pipelines' descriptors and tubelets, staging queues, the handover collection (R311-R314, R322-R333, R453 type 3). -/

namespace Sys2Proof.Machine

/-! ### Staging queues (R322, R333) -/

/-- QT and SB of a section's queue, and its base. -/
def State.queueQt (s : State) (k : Nat) : Nat := bitsOf (s.reg (oQSize k)) 22 0
def State.queueSb (s : State) (k : Nat) : Nat := 64 * bitsOf (s.reg (oQSize k)) 31 23
def State.queueBase (s : State) (k : Nat) : Nat := 65536 * bitsOf (s.reg (oQBase k)) 23 0

/-- HBM address of the slot of tubelet seq. -/
def State.slotAddr (s : State) (k seq : Nat) : Nat := s.queueBase k + seq % s.queueQt k * s.queueSb k

/-- Whether tubelet seq is staged and not released. -/
def State.isStaged (s : State) (k seq : Nat) : Bool := Sparse.get 0 (s.sectN k).staged (seq % s.queueQt k) == seq + 1

/-- Advances the head of a host-produced ring past n entries: write-back, announcement (R342, R343). -/
def State.advanceHead (s : State) (r n : Nat) : State :=
  let x := s.ring r
  let h := (x.head + n) % x.size
  let s := s.setRing r { x with head := h }
  (s.writeBack r h).announce r false

/-- Adds to a counter of pipeline n (R333). -/
def State.ingestCount (s : State) (n i v : Nat) : State := s.count (oIngestCnt i) n v

/-! ### Descriptors (R311-R314) -/

/-- Fields of an ingest descriptor (R311). -/
def igCodec (d : List Byte) : Nat := bitsOf (fieldAt d 12 1) 1 0
def igSect (d : List Byte) : Nat := bitsOf (fieldAt d 13 1) 3 0
def igProfile (d : List Byte) : Nat := bitsOf (fieldAt d 14 1) 5 0
def igD (d : List Byte) : Nat := bitsOf (fieldAt d 15 1) 3 0 + 1
def igPhase (d : List Byte) : Nat := bitsOf (fieldAt d 15 1) 7 4
def igFirst (d : List Byte) : Nat := fieldAt d 16 6
def igParcel (d : List Byte) : Nat := fieldAt d 24 4
def igSkip (d : List Byte) : Nat := bitsOf (fieldAt d 32 4) 23 0
def igFrames (d : List Byte) : Nat := fieldAt d 36 2
def igLength (d : List Byte) : Nat := fieldAt d 8 4

/-- Reserved fields and ranges (R313, case 1). -/
def ingestFieldsOk (d : List Byte) : Bool :=
  !bitOf (fieldAt d 0 8) 63 && decide (1 ≤ fieldAt d 8 4) && decide (fieldAt d 8 4 ≤ 268435456)
  && bitsOf (fieldAt d 12 1) 7 2 == 0 && bitsOf (fieldAt d 13 1) 7 4 == 0 && bitsOf (fieldAt d 14 1) 7 6 == 0
  && decide (igPhase d < igD d) && fieldAt d 22 2 == 0 && fieldAt d 35 1 == 0
  && decide (1 ≤ igFrames d) && decide (igFrames d ≤ 4096) && allZero ((d.drop 38).take 26)

/-- HBM address of a trim profile. -/
def State.profileAddr (s : State) (i : Nat) : Nat := 65536 * bitsOf (s.reg oProfBase) 23 0 + 128 * i

/-- Whether a pipeline's read of a profile reaches it: it lies in the INGEST partition (R302, R333). -/
def State.profileReach (s : State) (i : Nat) : Bool := s.allPart 1 (s.profileAddr i) 128

/-- The 64-byte unit of a profile that HBM cannot correct. -/
def State.profileBad (s : State) (i : Nat) : Option Nat := s.hbmBadUnit (s.profileAddr i) 128

/-- What a pipeline reads as its profile. -/
def State.profile (s : State) (i : Nat) : List Byte :=
  if (s.profileBad i).isSome then Config.lostProfile (s.profileAddr i) else s.hbm.readBytes (s.profileAddr i) 128

/-- What the read of a profile leaves behind: a dead letter where it lies outside the INGEST partition, HBM_UNCORRECTABLE (R302, R441). -/
def State.profileTouch (s : State) (n i : Nat) : State :=
  if !s.profileReach i then s.deadLetter 9 3 false (s.profileAddr i) n 128
  else match s.profileBad i with
    | some u => s.hbmUncorr noSect u
    | none => s

/-- The reason for which a descriptor is refused, numbered as R313's cases; 0 for none. -/
def State.ingestRefusal (s : State) (d p : List Byte) : Nat :=
  if !ingestFieldsOk d then 1
  else if pfT p ≠ 0 ∧ igFrames d % pfT p ≠ 0 then 2
  else if s.queueQt (igSect d) = 0 then 3
  else if !s.profileReach (igProfile d) || !profileOk p (igCodec d) then 4
  else if igFirst d < (s.sectN (igSect d)).head then 5
  else 0

/-- Pipeline n. -/
def State.pipe (s : State) (n : Nat) : Pipe := s.pipes.toList.getD n {}

/-- Replaces pipeline n. -/
def State.setPipe (s : State) (n : Nat) (x : Pipe) : State := { s with pipes := s.pipes.setIfInBounds n x }

/-- Records a parcel of a section in ascending first sequence number (R331). -/
def insertParcel (p : Parcel) : List Parcel → List Parcel
  | [] => [p]
  | q :: qs => if p.first < q.first then p :: q :: qs else q :: insertParcel p qs

/-- The end of a parcel (R312, R324); a ring enabled afresh since keeps its head (R339). -/
def State.parcelDone (s : State) (n : Nat) (d : List Byte) (damaged : Nat) : State :=
  let stale := (s.pipe n).stale
  let s := s.ingestCount n 0 1
  let s := if damaged = 0 then s else (s.ingestCount n 3 1).event 0x0502 (igSect d) (items [n, igParcel d, damaged])
  let s := s.setPipe n {}
  if stale then s else s.advanceHead (16 + n) 1

/-- A pipeline starts an accepted descriptor: its pictures, and the record of its parcel (R311-R331). A profile or a chunk whose read fails damages every picture (R324, R441); a parcel of no tubelets ends at once. -/
def State.startParcel (s : State) (n : Nat) (d p : List Byte) (chunk : Option (List Byte)) : State :=
  let k := igSect d
  let read := if (s.profileBad (igProfile d)).isSome then none else chunk.map fun c => c.take (igLength d)
  let pics := keptPics p (igCodec d) (igSkip d) (igD d) (igPhase d) (igFrames d) read
  let total := igFrames d / pfT p * patches p
  if total = 0 then s.parcelDone n d 0
  else
    let digest := shake256 ((List.range total).flatMap fun i => tubeletSlot p d n pics i)
    let y := s.sectN k
    let s := s.setSectN k { y with
      parcels := insertParcel { parcel := igParcel d, ring := n, first := igFirst d, count := total, digest := digest } y.parcels }
    s.setPipe n { desc := some d, profile := p, pics := pics, total := total }

/-- INGEST_DESCRIPTOR: pipeline n takes the descriptor at the head of its ring; chunk is what the reads of the chunk return (R312, R313, R324). -/
def execIngestDescriptor (n : BitVec 5) (desc : List Byte) (chunk : Option (List Byte)) (s : State) : Host.Outcome State Fault Refusal :=
  let r := 16 + n.toNat
  let x := s.ring r
  .next (if !s.ringOn r || x.head == x.tail || (s.pipe n.toNat).desc.isSome then s
    else
      let p := s.profile (igProfile desc)
      let reason := s.ingestRefusal desc p
      let s := if reason = 0 ∨ reason = 4 then s.profileTouch n.toNat (igProfile desc) else s
      if reason = 0 then s.startParcel n.toNat desc p chunk
      else ((s.event 0x0501 (igSect desc) (items [n.toNat, x.head, reason])).ingestCount n.toNat 4 1).advanceHead r 1)

/-- INGEST_OVERLAP: the section stops, nothing further of the parcel is written, and what was damaged of it is reported. Its tubelets are never all staged, so the head stays before its descriptor (R312) and the pipeline takes no other until the ring is enabled afresh (R323, R324, log 165). -/
def State.overlap (s : State) (n : Nat) (x : Pipe) (d : List Byte) (seq : Nat) : State :=
  let s := if x.damaged = 0 then s else (s.ingestCount n 3 1).event 0x0502 (igSect d) (items [n, igParcel d, x.damaged])
  ((s.event 0x0503 (igSect d) (items [n, seq % 2 ^ 32])).faultSect (igSect d) 0x0503).setPipe n { x with cut := true }

/-- The pipeline passes to the next tubelet of its parcel. -/
def State.nextTubelet (s : State) (n : Nat) (x : Pipe) (d : List Byte) (damaged : Nat) : State :=
  if x.done + 1 = x.total then s.parcelDone n d damaged else s.setPipe n { x with done := x.done + 1, damaged := damaged }

/-- TUBELET_STAGE: pipeline n writes its next tubelet into its slot and marks it staged, once the slot is free (R322, R323). A tubelet whose number HEAD has passed has been released, and its slot may hold one that is not: it is not written (R323, log 166). -/
def execTubeletStage (n : BitVec 5) (s : State) : Host.Outcome State Fault Refusal :=
  let x := s.pipe n.toNat
  .next (match x.desc with
    | none => s
    | some d =>
      let k := igSect d
      let y := s.sectN k
      let seq := igFirst d + x.done
      let qt := s.queueQt k
      if x.cut ∨ qt = 0 ∨ y.head + qt ≤ seq then s
      else if seq < y.head then s.nextTubelet n.toNat x d x.damaged
      else if s.isStaged k seq then s.overlap n.toNat x d seq
      else
        let bs := padTo (s.queueSb k) (tubeletSlot x.profile d n.toNat x.pics x.done)
        let bad := tubeletDamaged x.profile x.pics x.done
        let s := s.hbmWrite (s.slotAddr k seq) bs
        let s := s.setSectN k { y with staged := Sparse.set 0 y.staged (seq % qt) (seq + 1) }
        let s := (s.ingestCount n.toNat 1 1).ingestCount n.toNat 2 (boolNat bad)
        s.nextTubelet n.toNat x d (x.damaged + boolNat bad))

/-! ### Handover (R325-R331) -/

/-- Where row r of a shuffle table lies. -/
def ShuffleTable.rowAddr (t : ShuffleTable) (r : Nat) : Nat := t.addr + 64 + r * roundUp (4 * t.window) 64

/-- The entries of a row of a shuffle table: window offsets, with reserved bits above (R326). -/
def State.shuffleRow (s : State) (t : ShuffleTable) (r : Nat) : List Nat := (List.range t.window).map fun j => s.hbm.readLe (t.rowAddr r + 4 * j) 4

/-- The handover slots of a record of the timetable that runs (R327). -/
def Section.handoverSlots (x : Section) (record : Nat) : List HandoverSlot :=
  match x.program, x.run with
  | some p, some r => ((p.handovers.find? fun h => h.ttId % 1024 == r.tt % 1024 && h.record == record).map (·.slots)).getD []
  | _, _ => []

/-- What a handover comes to: it must wait, it faults with an event code, it meets a unit that HBM cannot correct, or it collects. -/
inductive HandoverVerdict where
  | wait
  | mismatch (code : Nat)
  | unreadable (unit : Nat)
  | collect (t : ShuffleTable) (row : List Nat) (slots : List HandoverSlot) (first : Nat)
  deriving DecidableEq, Repr

/-- Judges the handover of a record (R327-R329, R441). A row in which an offset repeats, lies outside the window or has a reserved bit set is invalid (R6, R326, R328). -/
def State.judgeHandover (s : State) (k record : Nat) : HandoverVerdict :=
  let x := s.sectN k
  let slots := x.handoverSlots record
  match x.table with
  | none => .mismatch 0x0506
  | some t =>
    if t.prog ≠ x.prog ∨ t.window ≠ slots.length then .mismatch 0x0506
    else
      let row := s.shuffleRow t x.row
      let first := x.head + t.window * x.windows
      match s.hbmBadUnit (t.rowAddr x.row) (4 * t.window) with
      | some u => .unreadable u
      | none =>
      if !(row.all fun o => decide (o < t.window)) || !row.Nodup then .mismatch 0x0507
      else if !(List.range t.window).all (fun i => s.isStaged k (first + i)) then .wait
      else .collect t row slots first

/-- The HANDOVER record of the postbook (R331, R453 type 3). -/
def State.handoverRecord (s : State) (k record : Nat) (t : ShuffleTable) (first : Nat) : State :=
  let x := s.sectN k
  let ps := x.parcels.filter fun p => overlaps p.first p.count first t.window
  let unit := fun p : Parcel =>
    padTo 64 (leBytes 4 p.parcel ++ leBytes 1 p.ring ++ fillBytes 3 0 ++ leBytes 8 p.first ++ padTo 32 p.digest)
  s.postbook 3 k record false
    (padTo 64 (leBytes 4 t.epoch ++ leBytes 4 x.row ++ leBytes 8 first ++ leBytes 4 t.window ++ leBytes 4 ps.length) ++ (ps.map unit).flatten)

/-- One handover slot receives its tubelet, header included (R327). -/
def State.handSlot (s : State) (h : HandoverSlot) (postmark : Nat) (bs : List Byte) : State :=
  if h.isLocal then s.outsideWrite h.ltn h.off bs 1 h.ltn (some postmark) else s.padWrite h.ltn h.off bs

/-- The collection of a HANDOVER superstep: record, slots, the row counter (R327, R328). -/
def State.collect (s : State) (k record : Nat) (t : ShuffleTable) (row : List Nat) (slots : List HandoverSlot) (first : Nat) : State :=
  let x := s.sectN k
  let pm := match x.run with
    | some r => stPostmark r.desc
    | none => 0
  let sb := s.queueSb k
  let bad := (row.filterMap fun o => s.hbmBadUnit (s.slotAddr k (first + o)) sb).head?
  match bad with
  | some u => (s.hbmUncorr k u).faultSect k 0x0A07
  | none =>
    let s := s.handoverRecord k record t first
    let s := (row.zip slots).foldl (fun s e => s.handSlot e.2 pm (s.hbm.readBytes (s.slotAddr k (first + e.1)) sb)) s
    let wrap := x.row + 1 = t.rows
    let s := s.setSectN k { s.sectN k with
      row := if wrap then 0 else x.row + 1, windows := x.windows + 1, waited := false, stalled := false
      run := x.run.map fun r => { r with late := r.late + boolNat x.waited } }
    if wrap then s.event 0x0508 k [] else s

/-- Releases the windows that a step consumed (R330). -/
def State.releaseWindows (s : State) (k : Nat) : State :=
  let x := s.sectN k
  match x.table with
  | none => s.setSectN k { x with windows := 0, rowStart := x.row }
  | some t =>
    let head := x.head + t.window * x.windows
    s.setSectN k { x with
      head := head, windows := 0, rowStart := x.row
      staged := x.staged.filter fun e => decide (head < e.2)
      parcels := x.parcels.filter fun p => decide (head < p.first + p.count) }

end Sys2Proof.Machine
end

