-- ==== Sys2Proof/Machine/Update.lean ====
section
/-! DEFINITION. Update.lean: parameter update on the update dies: slice intake, step scalars, the hard-wired rules, catch-up, Kronecker blocks, the root unit, working copies, and what a step boundary does to the groups (R58, R265, R270-R286, R290, R492). -/

namespace Sys2Proof.Machine

/-! ### Postmarks and powers (R58, R276) -/

/-- dist(q, p) of R58. -/
def postDist (q p : Nat) : Nat := (p + 0x7FFFFFFF - q % 0x7FFFFFFF) % 0x7FFFFFFF

/-- The successor of a postmark (R58). -/
def postSucc (p : Nat) : Nat := if p = 0x7FFFFFFF then 1 else p + 1

/-- Whether p is later than q (R58); postmark 0 is earlier than every postmark. -/
def postLater (q p : Nat) : Bool := p != 0 && (q == 0 || (decide (1 ≤ postDist q p) && decide (postDist q p ≤ 0x40000000)))

/-- The loop of powi (R276); fuel bounds the bits of n. -/
def powiLoop : Nat → Nat → Word → Word → Word
  | 0, _, r, _ => r
  | f + 1, n, r, b => if n = 0 then r else powiLoop f (n / 2) (if n % 2 = 1 then fmul r b else r) (fmul b b)

/-- powi of R276. -/
def powi (x : Word) (n : Nat) : Word := powiLoop 64 n 0x3F800000 x

/-! ### The step's values -/

/-- Value area and postmark of the STEP or chain in progress. -/
def Section.stepValues (x : Section) : Option (List Byte × Nat) :=
  match x.run, x.chain with
  | some r, _ => some (r.values, stPostmark r.desc)
  | none, some c => some (c.values, stPostmark c.desc)
  | none, none => none

/-- SCALE of a slot in effect, 1.0 for 0xFFFF (R273). -/
def Section.scaleOf (x : Section) (slot : Nat) : Word := if slot = 0xFFFF then 0x3F800000 else (x.slot slot).scale

/-- The step scalars of a group (R273, R276); steps is STEPS after its increment. -/
def State.stepScalars (s : State) (k g steps : Nat) (d values : List Byte) : StepScalars :=
  let x := s.sectN k
  let hp := s.grpHp k g
  let eta := BitVec.ofNat 32 (fieldAt values (gLrOff d) 4)
  let bc1 := fsub 0x3F800000 (powi (hp 0) steps)
  { d := divF32 (f32 0x3F800000) (Ex.mul (f32 (x.scaleOf (gSlotA d))) (f32 (x.scaleOf (gSlotB d))))
    eta := eta, df := fsub 0x3F800000 (fmul eta (hp 3))
    c1 := fsub 0x3F800000 (hp 0), c2 := fsub 0x3F800000 (hp 1)
    bc1 := bc1, bc2 := fsub 0x3F800000 (powi (hp 1) steps), alpha := fdiv eta bc1 }

/-! ### The rules (R277, R278) -/

/-- What the rules read besides an element: hyperparameters b1, b2, eps, the step scalars. -/
structure RuleEnv where
  b1 : Word
  b2 : Word
  eps : Word
  nesterov : Bool
  sc : StepScalars
  deriving DecidableEq, Repr

/-- The decayed weight plus the step of u: w = w × df, then w = fma(-rate, u, w). -/
def RuleEnv.apply (e : RuleEnv) (rate u w : Word) : Word := ffma (fneg rate) u (fmul w e.sc.df)

/-- MOMENTUM on one element: m and w. -/
def RuleEnv.momentum (e : RuleEnv) (g m w : Word) : Word × Word :=
  let m := ffma e.b1 m g
  (m, e.apply e.sc.eta (if e.nesterov then ffma e.b1 m g else m) w)

/-- MOMENT2 on one element: m, v and w. -/
def RuleEnv.moment2 (e : RuleEnv) (g m v w : Word) : Word × Word × Word :=
  let m := ffma e.b1 m (fmul e.sc.c1 g)
  let v := ffma e.b2 v (fmul e.sc.c2 (fmul g g))
  let h := fadd (fsqrt (fdiv v e.sc.bc2)) e.eps
  (m, v, e.apply e.sc.alpha (fdiv m h) w)

/-- q of FACTORED. -/
def RuleEnv.q (e : RuleEnv) (g : Word) : Word := ffma g g e.eps

/-- m and u of FACTORED on one element; first when FSTEPS = 0. -/
def RuleEnv.factored (e : RuleEnv) (first : Bool) (r c rs g m : Word) : Word × Word :=
  let vh := if first then e.q g else fdiv (fmul r c) rs
  let m := ffma e.b1 m (fmul e.sc.c1 g)
  (m, fdiv m (fsqrt vh))

/-- The environment of a group's rules in effect. -/
def State.ruleEnv (s : State) (k g : Nat) (sc : StepScalars) : RuleEnv :=
  { b1 := s.grpHp k g 0, b2 := s.grpHp k g 1, eps := s.grpHp k g 2, nesterov := ctlNesterov (s.grpCtl k g), sc := sc }

/-! ### One row of a slice (R274, R277-R280, R282) -/

/-- Where a slice lies in its group: first row and column, rows and columns of it that exist (R270). -/
structure SlicePlace where
  r0 : Nat
  c0 : Nat
  rows : Nat
  cols : Nat
  deriving DecidableEq, Repr

/-- The place of slice n. -/
def slicePlace (d : List Byte) (n : Nat) : SlicePlace :=
  let r0 := 48 * (n / gSliceCols d)
  let c0 := 48 * (n % gSliceCols d)
  { r0 := r0, c0 := c0, rows := min 48 (gRows d - r0), cols := min 48 (gCols d - c0) }

/-- The ACC40 element (i, j) of a slice. -/
def sliceElem (data : List Byte) (i j : Nat) : Acc := BitVec.ofNat 40 (fieldAt data (5 * (48 * i + j)) 5)

/-- The gradient of an ACC40 element (R273). -/
def gradOf (a : Acc) (d : Word) : Word := toF32 (Ex.mul (Fmt.decode .accF a.toNat) (f32 d))

/-- The row word as it stood before the step (R280). -/
def State.rowWordBefore (s : State) (v : Group) (row : Nat) : Word :=
  match Sparse.get none v.rowWas row with
  | some w => w
  | none => if gRowWords v.desc then s.hw (aRowWord v.desc row) else 0

/-- The steps for which a row is caught up (R280). -/
def rowGap (was : Word) (postmark : Nat) : Nat := if was.toNat % 2 ^ 31 = 0 then 0 else postDist (was.toNat % 2 ^ 31) postmark - 1

/-- Decays a list of words by a factor to the gap; a gap of 0 changes nothing (R280). -/
def decayAll (gap : Nat) (b : Word) (ws : List Word) : List Word := if gap = 0 then ws else ws.map fun w => fmul w (powi b gap)

/-- The folds of one row into ra and ca, and u and m of its elements (R278). -/
def foldRow (e : RuleEnv) (first : Bool) (r rs : Word) : List (Word × Word × Word × Word) → Word → Word × List (Word × Word × Word)
  | [], ra => (ra, [])
  | (g, m, c, ca) :: rest, ra =>
    let q := e.q g
    let mu := e.factored first r c rs g m
    let t := foldRow e first r rs rest (fadd ra q)
    (t.1, (mu.1, mu.2, fadd ca q) :: t.2)

/-- Case 5 of R274 on one row: catch-up and the rule. KRON keeps the u of the row's elements until its block completes (R282). -/
def State.ruleRow (s : State) (rule postmark : Nat) (v : Group) (e : RuleEnv) (row c0 : Nat) (grads : List Word) : State × Group :=
  let d := v.desc
  let n := grads.length
  let e0 := row * gCols d + c0
  let was := s.rowWordBefore v row
  let gap := rowGap was postmark
  let ms := decayAll gap e.b1 (s.hws (aM d e0) n)
  let ws := decayAll gap e.sc.df (s.hws (aMaster d e0) n)
  let t : State × Group := match rule with
    | 0 =>
      let out := (grads.zip (ms.zip ws)).map fun x => e.momentum x.1 x.2.1 x.2.2
      ((s.setHws (aM d e0) (out.map (·.1))).setHws (aMaster d e0) (out.map (·.2)), v)
    | 1 =>
      let vs := decayAll gap e.b2 (s.hws (aV d e0) n)
      let out := (grads.zip (ms.zip (vs.zip ws))).map fun x => e.moment2 x.1 x.2.1 x.2.2.1 x.2.2.2
      (((s.setHws (aM d e0) (out.map (·.1))).setHws (aV d e0) (out.map (·.2.1))).setHws (aMaster d e0) (out.map (·.2.2)), v)
    | _ =>
      let cs := s.hws (aC d c0) n
      let cas := s.hws (aCa d c0) n
      let t := foldRow e (v.fsteps == 0) (s.hw (aR d row)) (s.hw (aRs d)) (grads.zip (ms.zip (cs.zip cas))) (s.hw (aRa d row))
      let s : State := ((s.setHws (aM d e0) (t.2.map (·.1))).setHws (aCa d c0) (t.2.map (·.2.2))).setHws (aRa d row) [t.1]
      if rule = 3 then
        (s.setHws (aMaster d e0) ws,
         { v with us := (t.2.zipIdx).foldl (fun u x => Sparse.set none u (e0 + x.2) (some x.1.2.1)) v.us })
      else (s.setHws (aMaster d e0) ((t.2.zip ws).map fun x => e.apply e.sc.eta x.1.2.1 x.2), v)
  if gRowWords d then
    (t.1.setHws (aRowWord d row) [BitVec.ofNat 32 postmark], { t.2 with rowWas := Sparse.set none v.rowWas row (some was) })
  else t

/-- What a row of a slice comes to (R274). -/
inductive RowCase where
  | masked | frozen | discarded | faulted | treated
  deriving DecidableEq, Repr

/-- The case of R274 that applies to a row. -/
def State.rowCase (s : State) (k g : Nat) (v : Group) (mask : Option Nat) (row : Nat) (grads : List Word) : RowCase :=
  let masked := match mask with
    | some a => s.maskedRow a row
    | none => false
  if masked then .masked
  else if gRowWords v.desc && bitOf (s.hw (aRowWord v.desc row)).toNat 31 then .frozen
  else if grads.any (fun w => !(f32 w).isFin) then (if ctlFault (s.grpCtl k g) then .faulted else .discarded)
  else .treated

/-- The rows of a slice from row i on; the answer's last part is the row that GRAD_NONFINITE names. -/
def State.sliceRows (s : State) (k g rule postmark : Nat) (e : RuleEnv) (mask : Option Nat) (p : SlicePlace) (data : List Byte) :
    Group → List Nat → State × Group × Option Nat
  | v, [] => (s, v, none)
  | v, i :: is =>
    let row := p.r0 + i
    let grads := (List.range p.cols).map fun j => gradOf (sliceElem data i j) e.sc.d
    match s.rowCase k g v mask row grads with
    | .masked => State.sliceRows s k g rule postmark e mask p data v is
    | .frozen => State.sliceRows (s.count (oGrpCnt 0) (grpSel k g) 1) k g rule postmark e mask p data v is
    | .discarded => State.sliceRows (s.count (oGrpCnt 1) (grpSel k g) 1) k g rule postmark e mask p data v is
    | .faulted => (s, v, some row)
    | .treated =>
      let t := s.ruleRow rule postmark v e row p.c0 grads
      State.sliceRows t.1 k g rule postmark e mask p data t.2 is

/-! ### Working copies (R213, R214, R270, R290) -/

/-- Bytes of an element of a working copy. -/
def wBytes (d : List Byte) : Nat := if gWfmt d = 7 then 4 else if gWfmt d = 2 ∨ gWfmt d = 3 then 1 else 2

/-- One element of a working copy (R270). -/
def workElem (wfmt : Nat) (scale w : Word) : Nat :=
  match Fmt.ofCode wfmt with
  | some .fp32 => (toF32 (f32 w)).toNat
  | some f => (Fmt.round f .sat .rne (Ex.mul (f32 w) (f32 scale))).bits
  | none => 0

/-- The working copy of a slice (R270). -/
def State.workCopy (s : State) (k : Nat) (d : List Byte) (n : Nat) : List Byte :=
  let p := slicePlace d n
  let scale := if gWfmt d = 2 ∨ gWfmt d = 3 then (s.sectN k).scaleOf (gWslot d) else 0x3F800000
  (List.range 48).flatMap fun i =>
    let row := if i < p.rows then s.hws (aMaster d ((p.r0 + i) * gCols d + p.c0)) p.cols else []
    (row.flatMap fun w => leBytes (wBytes d) (workElem (gWfmt d) scale w)) ++ fillBytes ((48 - row.length) * wBytes d) 0

/-- The CURRENT version slot of a group, false slot A: that of the first range that is CURRENT (R290). -/
def State.currentSlot (s : State) (k g : Nat) : Option Bool :=
  let prog := (s.sectN k).prog
  (((s.ltns k).flatMap fun n => (s.tileN n).ranges).find? fun r => r.prog == prog && r.group == g && r.st == .current).map (·.slotB)

/-- Owning tile and offset of the working copy of a slice in a version slot (R270). -/
def State.copyPlace (s : State) (d : List Byte) (n : Nat) (slotB : Bool) : Nat × Nat :=
  let e := s.updBytes (aSlice d n) 16
  (fieldAt e 0 2, fieldAt e (if slotB then 8 else 4) 4)

/-- The slot in progress: the one that is not CURRENT. -/
def State.openSlot (s : State) (k g : Nat) : Bool := s.currentSlot k g == some false

/-- Whether a write into a tile would open a range whose started read is not complete or that a version copy has not read (R291, R298). -/
def State.copyWaits (s : State) (k ltn off len : Nat) : Bool :=
  let t := s.tileN ltn
  (opensRanges t.ranges off len).any fun r =>
    (t.queueList.any fun q => q.any fun c => c.status != .queued &&
      (match tsReadFp c.desc with
       | some g => r.meets g.off g.len
       | none => false))
    || (match (s.sectN k).copy with
        | some c => c.postmark == r.stamp
        | none => false)

/-- An update die writes a working copy into a tile store: refused in a CURRENT range, else as every write from outside the tile's commands (R213, R214, R251, R290). -/
def State.copyWrite (s : State) (ltn off : Nat) (bs : List Byte) (die postmark : Nat) : State :=
  if !s.fencedLtn ltn && (lockedRange (s.tileN ltn).ranges off bs.length).isSome then
    (s.faultTile ltn fEngine 0x0404).deadLetter 0x0A 2 true (storeAddr 2 ltn off) die bs.length
  else s.outsideWrite ltn off bs 2 die (some postmark)

/-- Whether the slice-map entry of a slice passes the check of R270. -/
def State.sliceEntryOk (s : State) (k : Nat) (d : List Byte) (n : Nat) : Bool :=
  let e := s.updBytes (aSlice d n) 16
  let len := 2304 * wBytes d
  let ok := fun o => o % 64 == 0 && decide (o + len ≤ 25165824)
  (s.ltns k).contains (fieldAt e 0 2) && fieldAt e 2 2 == 0 && fieldAt e 12 4 == 0 && ok (fieldAt e 4 4) && ok (fieldAt e 8 4)

/-- A slice that is discarded (R272): dead letter, event with section, group and slice, the section FAULTED. -/
def State.sliceDrop (s : State) (die : Nat) (m : SliceMsg) (reason code : Nat) : State :=
  ((s.deadLetter reason 2 true 0 die m.data.length).event code m.sect (items [m.sect, tgGroup m.target, tgSlice m.target])).faultSect m.sect code

/-- The message of slice n of a group as its update die has taken it. -/
def sliceOf (k : Nat) (d data : List Byte) (n : Nat) : SliceMsg := { sect := k, target := gDie d + 4 * gNum d + 4096 * n, data := data, origin := 0 }

/-- Writes the working copies of slices into the slot in progress. Each entry of the slice map is checked when it is used: the slice of one that fails is SLICE_INVALID, and nothing of its copy is written (R270, R272, log 214). -/
def State.writeCopies (s : State) (k g postmark : Nat) (d data : List Byte) (ns : List Nat) : State :=
  let slotB := s.openSlot k g
  ns.foldl (fun s n =>
    if !s.sliceEntryOk k d n then s.sliceDrop (gDie d) (sliceOf k d data n) 0x0E 0x0403
    else
      let at_ := s.copyPlace d n slotB
      s.copyWrite at_.1 at_.2 (s.workCopy k d n) (gDie d) postmark) s

/-! ### Kronecker blocks (R281-R284) -/

/-- A matrix, row by row. -/
abbrev Mat := List (List Word)

/-- The first n columns of a matrix as rows. -/
def Mat.trans (n : Nat) (m : Mat) : Mat := (List.range n).map fun j => m.map fun r => r.getD j 0

/-- A product whose second factor is given by its columns: chains of fma over ascending k (R283). -/
def Mat.mulT (a bt : Mat) : Mat := a.map fun r => bt.map fun c => (r.zip c).foldl (fun acc e => ffma e.1 e.2 acc) 0

/-- A product of matrices, n the columns of the second (R283). -/
def Mat.mul (n : Nat) (a b : Mat) : Mat := Mat.mulT a (Mat.trans n b)

/-- A square matrix of order n from its words, and its words. -/
def matOf (n : Nat) (ws : List Word) : Mat := (List.range n).map fun i => (ws.drop (n * i)).take n
def matWords (m : Mat) : List Word := m.flatten

/-- Applies f to every entry with its row and column. -/
def Mat.mapIdx2 (m : Mat) (f : Nat → Nat → Word → Word) : Mat := m.mapIdx fun i r => r.mapIdx fun j w => f i j w

/-- delta_ij of R284. -/
def kdelta (i j : Nat) : Word := if i = j then 0x3F800000 else 0

/-- The largest of the sums over rows of |f i j|, ascending j from +0 (R284). -/
def Mat.rowNorm (m : Mat) : Word :=
  match m.map fun r => r.foldl (fun a w => fadd a (fabs w)) 0 with
  | [] => 0
  | x :: xs => xs.foldl fmax x

/-- The iterations of root4inv; fuel is what it_max leaves. -/
def rootLoop (n : Nat) (tol : Word) : Nat → Mat → Mat → Option Mat
  | 0, _, _ => none
  | f + 1, x, m =>
    let t := m.mapIdx2 fun i j w => fmul (fsub (fmul (kdelta i j) 0x40A00000) w) 0x3E800000
    let x := Mat.mul n x t
    let t2 := Mat.mul n t t
    let t4 := Mat.mul n t2 t2
    let m := Mat.mul n t4 m
    let e := (m.mapIdx2 fun i j w => fsub w (kdelta i j)).rowNorm
    if fle e tol then some x else rootLoop n tol f x m

/-- root4inv of R284; none where it does not converge. -/
def root4inv (n : Nat) (eps tol : Word) (its : Nat) (f : Mat) : Option Mat :=
  let a := f.mapIdx2 fun i j w => if i = j then fadd w eps else w
  let s := a.rowNorm
  let x0 := fdiv 0x3F800000 (fsqrt (fsqrt s))
  rootLoop n tol its ((List.range n).map fun i => (List.range n).map fun j => if i = j then x0 else 0) (a.mapIdx2 fun _ _ w => fdiv w s)

/-- Orders of a block's factors: of its rows and of its columns (R281). -/
def blockOrders (d : List Byte) (bs : Nat) (ab : Nat × Nat) : Nat × Nat := (blockSide (gRows d) bs ab.1, blockSide (gCols d) bs ab.2)

/-- HBM addresses of L, R, Lr and Rr of a block (R492). -/
def aFactor (d : List Byte) (bs : Nat) (ab : Nat × Nat) (i : Nat) : Nat :=
  let o := blockOrders d bs ab
  aBlock d bs ab + (match i with
    | 0 => 0
    | 1 => 4 * o.1 ^ 2
    | 2 => 4 * o.1 ^ 2 + 4 * o.2 ^ 2
    | _ => 8 * o.1 ^ 2 + 4 * o.2 ^ 2)

/-- The matrix M of a block, +0 beyond the group's rows and columns. -/
def State.blockM (s : State) (d : List Byte) (bs : Nat) (ab : Nat × Nat) : Mat :=
  let o := blockOrders d bs ab
  let n := min o.2 (gCols d - ab.2 * bs)
  (List.range o.1).map fun i =>
    let r := ab.1 * bs + i
    (if r < gRows d then s.hws (aM d (r * gCols d + ab.2 * bs)) n ++ List.replicate (o.2 - n) 0 else List.replicate o.2 0)

/-- The slices of a block (R281). -/
def blockSlices (d : List Byte) (bs : Nat) (ab : Nat × Nat) : List Nat :=
  (List.range (gSlices d)).filter fun n => n / gSliceCols d * 48 / bs == ab.1 && n % gSliceCols d * 48 / bs == ab.2

/-- The treated elements of a block: element index, row and column in the block, u. -/
def blockTreated (d : List Byte) (bs : Nat) (ab : Nat × Nat) (us : Sparse (Option Word)) : List (Nat × Nat × Nat × Word) :=
  us.filterMap fun e => match e.2 with
    | none => none
    | some u =>
      let r := e.1 / gCols d
      let c := e.1 % gCols d
      if r / bs = ab.1 ∧ c / bs = ab.2 then some (e.1, r % bs, c % bs, u) else none

/-- The completion of a Kronecker block (R282). -/
def State.completeBlock (s : State) (k g bs : Nat) (v : Group) (e : RuleEnv) (ab : Nat × Nat) : State × Group :=
  let d := v.desc
  let o := blockOrders d bs ab
  let m := s.blockM d bs ab
  let useRoots := factorsServe (s.grpCtl k g) v
  let u := if useRoots then
      Mat.mul o.2 (Mat.mul o.2 (matOf o.1 (s.hws (aFactor d bs ab 2) (o.1 ^ 2))) m) (matOf o.2 (s.hws (aFactor d bs ab 3) (o.2 ^ 2)))
    else []
  let s := (blockTreated d bs ab v.us).foldl (fun s x =>
    let step := if useRoots then (u.getD x.2.1 []).getD x.2.2.1 0 else x.2.2.2
    s.setHws (aMaster d x.1) [e.apply e.sc.eta step (s.hw (aMaster d x.1))]) s
  let s := if v.steps % krStatT (s.grpKron k g) = 0 then
      let mt := Mat.trans o.2 m
      let p := Mat.mulT m m
      let q := Mat.mulT mt mt
      let fold := fun (old new : List Word) => (old.zip new).map fun x => ffma e.b2 x.1 (fmul e.sc.c2 x.2)
      (s.setHws (aFactor d bs ab 0) (fold (s.hws (aFactor d bs ab 0) (o.1 ^ 2)) (matWords p))).setHws (aFactor d bs ab 1)
        (fold (s.hws (aFactor d bs ab 1) (o.2 ^ 2)) (matWords q))
    else s
  (s, { v with us := v.us.filter fun x => !(x.1 / gCols d / bs == ab.1 && x.1 % gCols d / bs == ab.2) })

/-! ### Intake (R271, R272) -/

/-- A range that is read, and one that is read and then written. -/
def areaRead (a n : Nat) : List HbmArea := [(a, n, false)]
def areaBoth (a n : Nat) : List HbmArea := [(a, n, false), (a, n, true)]

/-- The first masked row of a slice with an element other than +0 (R265). -/
def State.maskBad (s : State) (mask : Option Nat) (p : SlicePlace) (data : List Byte) : Option Nat :=
  match mask with
  | none => none
  | some a => ((List.range p.rows).map (· + p.r0)).find? fun row =>
      s.maskedRow a row && (List.range 48).any fun j => sliceElem data (row - p.r0) j != 0

/-- The first slice of a group in a step: STEPS and the scalars of the step (R276). -/
def State.beginGroup (s : State) (k g : Nat) (v : Group) (values : List Byte) : Group :=
  match v.scalars with
  | some _ => v
  | none =>
    let steps := (v.steps + 1) % 2 ^ 32
    { v with steps := steps, scalars := some (s.stepScalars k g steps v.desc values) }

/-- The slices whose working copies a slice's treatment writes: itself, or with KRON the slices of the block it completes (R281, R282). -/
def sliceWrites (rule bs : Nat) (d : List Byte) (accepted : List Nat) (n : Nat) : List Nat × Option (Nat × Nat) :=
  if rule = 3 then
    let ab := (n / gSliceCols d * 48 / bs, n % gSliceCols d * 48 / bs)
    let ns := blockSlices d bs ab
    if ns.all (fun x => x == n || accepted.contains x) then (ns, some ab) else ([], none)
  else ([n], none)

/-- The areas that the completion of a Kronecker block reaches (R282). -/
def State.blockAreas (s : State) (k g : Nat) (v : Group) (ab : Nat × Nat) : List HbmArea :=
  let d := v.desc
  let ctl := s.grpCtl k g
  let bs := 48 * ctlBs ctl
  let o := blockOrders d bs ab
  let n := min o.2 (gCols d - ab.2 * bs)
  let steps := if v.scalars.isSome then v.steps else (v.steps + 1) % 2 ^ 32
  (List.range (min o.1 (gRows d - ab.1 * bs))).flatMap (fun i =>
    let e := (ab.1 * bs + i) * gCols d + ab.2 * bs
    areaRead (aM d e) (4 * n) ++ areaBoth (aMaster d e) (4 * n))
  ++ (if factorsServe ctl v then areaRead (aFactor d bs ab 2) (4 * o.1 ^ 2) ++ areaRead (aFactor d bs ab 3) (4 * o.2 ^ 2) else [])
  ++ (if steps % krStatT (s.grpKron k g) = 0 then areaBoth (aFactor d bs ab 0) (4 * o.1 ^ 2) ++ areaBoth (aFactor d bs ab 1) (4 * o.2 ^ 2) else [])

/-- The areas of HBM that the treatment of a slice reaches after its own slice-map entry: mask copy, its rule's areas row by row, and those of the Kronecker block that it completes, the entries of the block's other slices among them (R302, R441). -/
def State.sliceAreas (s : State) (k g : Nat) (v : Group) (n : Nat) (mask : Option Nat) : List HbmArea :=
  let d := v.desc
  let p := slicePlace d n
  let rule := ctlRule (s.grpCtl k g)
  let elems := fun (a : Nat → Nat) => (List.range p.rows).flatMap fun i => areaBoth (a ((p.r0 + i) * gCols d + p.c0)) (4 * p.cols)
  elems (aMaster d) ++ elems (aM d) ++ (if rule = 1 then elems (aV d) else [])
  ++ (if rule = 2 ∨ rule = 3 then
      areaRead (aR d p.r0) (4 * p.rows) ++ areaBoth (aRa d p.r0) (4 * p.rows) ++ areaRead (aC d p.c0) (4 * p.cols)
      ++ areaBoth (aCa d p.c0) (4 * p.cols) ++ areaRead (aRs d) 4 else [])
  ++ (if gRowWords d then areaBoth (aRowWord d p.r0) (4 * p.rows) else [])
  ++ (match mask with
      | some a => areaRead a (maskLen (s.hbm.readLe a 4))
      | none => [])
  ++ (match sliceWrites rule (48 * ctlBs (s.grpCtl k g)) d (v.slices ++ [n]) n with
      | (ns, some ab) => ((ns.filter (· != n)).flatMap fun m => areaRead (aSlice d m) 16) ++ s.blockAreas k g v ab
      | (_, none) => [])

/-- The treatment of an accepted slice (R273-R286, R294). -/
def State.treatSlice (s : State) (k g n : Nat) (v : Group) (values data : List Byte) (postmark : Nat) (mask : Option Nat) : State :=
  let d := v.desc
  let p := slicePlace d n
  let v := s.beginGroup k g { v with slices := v.slices ++ [n] } values
  match v.scalars, s.maskBad mask p data with
  | some _, some row => ((s.setGroup k g v).event 0x0407 k (items [k, g, row])).faultSect k 0x0407
  | some sc, none =>
    let ctl := s.grpCtl k g
    let rule := ctlRule ctl
    let bs := 48 * ctlBs ctl
    let e := s.ruleEnv k g sc
    let t := s.sliceRows k g rule postmark e mask p data v (List.range p.rows)
    (match t.2.2 with
     | some row => ((t.1.setGroup k g t.2.1).event 0x0404 k (items [k, g, row])).faultSect k 0x0404
     | none =>
       let w := sliceWrites rule bs d v.slices n
       let t := match w.2 with
         | some ab => t.1.completeBlock k g bs t.2.1 e ab
         | none => (t.1, t.2.1)
       (t.1.putGroup k g t.2).writeCopies k g postmark d data w.1)
  | none, _ => s

/-- The copy of its mask table that serves a group in the step in progress (R262). -/
def Section.maskOf (x : Section) (d values : List Byte) : Option Nat :=
  match x.program with
  | some p => groupMask p d (fieldAt values 0 8)
  | none => none

/-- Whether updates of a step may run: those of a chain belong to its TAIL alone (R61, R63, R295). -/
def Section.updates (x : Section) : Bool :=
  match x.run with
  | some r => r.code == 0 || r.code == 3
  | none => x.chain.isNone

/-- Intake of a slice that the update die has taken off plane U; none where it has to wait: for the TAIL of a chain, whose HEAD and MIDDLE update nothing (R63, log 171), or for a write of its own (R291, R298). A slice of an evaluation section, which runs no updates, is SLICE_INVALID (R67, log 170). The entry of the slice map is read before anything else is done with the slice (R270, R302, R441). -/
def State.intake (s : State) (die : Nat) (m : SliceMsg) : Option State :=
  let k := m.sect
  let x := s.sectN k
  let g := tgGroup m.target
  let n := tgSlice m.target
  if x.phase = .faulted ∨ x.phase = .off then some s
  else if s.evalOn k then some (s.sliceDrop die m 0x0E 0x0403)
  else if !x.updates then none
  else match x.group g, x.stepValues with
    | some v, some (values, postmark) =>
      let d := v.desc
      if v.prog ≠ x.prog ∨ gOwner d ∨ gDie d ≠ die ∨ gSlices d ≤ n ∨ bitsOf m.target 31 30 ≠ 0 ∨ m.data.length ≠ 11520 then some (s.sliceDrop die m 0x0E 0x0403)
      else
      let entry := areaRead (aSlice d n) 16
      if (s.updBad entry).isSome ∨ !s.sliceEntryOk k d n then some (s.updWork k die entry fun s => s.sliceDrop die m 0x0E 0x0403)
      else if v.slices.contains n then some (s.updWork k die entry fun s => s.sliceDrop die m 0x0D 0x0402)
      else
        let mask := x.maskOf d values
        let ctl := s.grpCtl k g
        let ws := (sliceWrites (ctlRule ctl) (48 * ctlBs ctl) d v.slices n).1
        let slotB := s.openSlot k g
        if ws.any (fun w => let a := s.copyPlace d w slotB; s.copyWaits k a.1 a.2 (2304 * wBytes d)) then none
        else some (s.updWork k die (entry ++ s.sliceAreas k g v n mask) fun s => s.treatSlice k g n v values m.data postmark mask)
    | _, _ => some (s.sliceDrop die m 0x0E 0x0403)

/-- The edge office at which a slice leaves plane U for its update die (R229). -/
def sliceExit (die : Nat) (m : SliceMsg) : Nat := planeExit (clusterOf m.origin) (.die die)

/-- An update die takes a slice whose flits the edge office before it has checked (R252, log 213): none where the slice has to wait. -/
def State.takeSlice (s : State) (die : Nat) (m : SliceMsg) : Option State :=
  let code := flitCheck m.flips
  let s := s.netCorrected (sliceExit die m) code.1
  if code.2 then some (s.failChip 1 (sliceExit die m)) else s.intake die m

/-- SLICE_INTAKE: update die d takes the next slice off plane U (R272-R274). -/
def execSliceIntake (d : BitVec 2) (s : State) : Host.Outcome State Fault Refusal :=
  .next (match s.slices.toList.getD d.toNat [] with
    | [] => s
    | m :: rest => (({ s with slices := s.slices.setIfInBounds d.toNat rest } : State).takeSlice d.toNat m).getD s)

/-! ### The root unit (R284-R286) -/

/-- The factors of a group's blocks as they stand (R285). -/
def State.captureFactors (s : State) (bs : Nat) (d : List Byte) : List (Nat × List Word × Nat × List Word) :=
  (kronBlocks d bs).map fun ab =>
    let o := blockOrders d bs ab
    (o.1, s.hws (aFactor d bs ab 0) (o.1 ^ 2), o.2, s.hws (aFactor d bs ab 1) (o.2 ^ 2))

/-- The roots of one block's factors; none where one does not converge. -/
def rootsOf (eps tol : Word) (its : Nat) (f : Nat × List Word × Nat × List Word) : Option (List Word × List Word) :=
  match root4inv f.1 eps tol its (matOf f.1 f.2.1), root4inv f.2.2.1 eps tol its (matOf f.2.2.1 f.2.2.2) with
  | some l, some r => some (matWords l, matWords r)
  | _, _ => none

/-- The oldest computation of a group that the root unit has not finished. -/
def Group.rootJob (v : Group) : Option RootJob := v.roots.find? fun j => j.results.isNone

/-- Whether the root unit of its die comes to group g next among the groups of its section: computations of an earlier boundary first, then ascending group number (R285, log 172). -/
def Section.rootTurn (x : Section) (g : Nat) (v : Group) (job : RootJob) : Bool :=
  x.groups.all fun e => match e.2 with
    | none => true
    | some w => e.1 == g || gDie w.desc != gDie v.desc || (match w.rootJob with
        | none => true
        | some j => decide (j.age < job.age) || (j.age == job.age && decide (g < e.1)))

/-- ROOT_COMPUTE_DONE: the root unit finishes the oldest computation of a group, once the die's earlier ones are finished (R284-R286). -/
def execRootComputeDone (k : SectId) (g : BitVec 10) (s : State) : Host.Outcome State Fault Refusal :=
  .next (match (s.sectN k.toNat).group g.toNat with
    | none => s
    | some v => match v.rootJob with
      | none => s
      | some job =>
        if !(s.sectN k.toNat).rootTurn g.toNat v job then s else
        let hp := s.grpHp k.toNat g.toNat
        let rs := job.factors.map (rootsOf (hp 4) (hp 5) (krRootIt (s.grpKron k.toNat g.toNat)))
        let bad := ((rs.zipIdx).filter fun r => r.1.isNone).map (·.2)
        let s := s.setGroup k.toNat g.toNat { v with roots := v.roots.replace job { job with results := some rs } }
        if bad.isEmpty then s
        else (bad.foldl (fun s b => s.event 0x0406 k.toNat (items [k.toNat, g.toNat, b])) s).count (oGrpCnt 2) (grpSel k.toNat g.toNat) 1)

/-! ### What a step boundary does to the groups -/

/-- Groups of the program in execution, ascending. -/
def Section.liveGroups (x : Section) : List (Nat × Group) :=
  x.groups.filterMap fun e => match e.2 with
    | some v => if v.prog = x.prog then some (e.1, v) else none
    | none => none

/-- The areas that the boundary statistics of FACTORED reach. -/
def statAreas (d : List Byte) : List HbmArea :=
  areaBoth (aR d 0) (4 * gRows d) ++ areaBoth (aRa d 0) (4 * gRows d) ++ areaBoth (aC d 0) (4 * gCols d) ++ areaBoth (aCa d 0) (4 * gCols d) ++ [(aRs d, 4, true)]

/-- The boundary statistics of FACTORED (R278). -/
def State.groupStats (s : State) (k g : Nat) (v : Group) (sc : StepScalars) : State :=
  let d := v.desc
  let b2 := s.grpHp k g 1
  let stat := fun (n : Nat) (old acc : Word) => ffma b2 old (fmul sc.c2 (fdiv acc (intF32 n)))
  let rows := gRows d
  let cols := gCols d
  let r := ((s.hws (aR d 0) rows).zip (s.hws (aRa d 0) rows)).map fun x => stat cols x.1 x.2
  let c := ((s.hws (aC d 0) cols).zip (s.hws (aCa d 0) cols)).map fun x => stat rows x.1 x.2
  let rs := fdiv (r.foldl fadd 0) (intF32 rows)
  ((((s.setHws (aR d 0) r).setHws (aC d 0) c).setHws (aRs d) [rs]).setHws (aRa d 0) (List.replicate rows 0)).setHws (aCa d 0) (List.replicate cols 0)

/-- The statistics of every group that was updated in the step under FACTORED or KRON, before the boundary's seal. -/
def State.boundaryStats (s : State) (k : Nat) : State :=
  (s.sectN k).liveGroups.foldl (fun s e =>
    let rule := ctlRule (s.grpCtl k e.1)
    match e.2.scalars with
    | some sc =>
      if rule = 2 ∨ rule = 3 then
        s.updWork k (gDie e.2.desc) (statAreas e.2.desc) fun s => (s.groupStats k e.1 e.2 sc).setGroup k e.1 { e.2 with fsteps := e.2.fsteps + 1 }
      else s
    | none => s) s

/-- Whether a boundary has to wait for roots that are due at it (R285). -/
def State.rootWait (s : State) (k : Nat) : List Nat :=
  ((s.sectN k).liveGroups.filter fun e => e.2.roots.any fun j => decide (j.due ≤ 1) && j.results.isNone).map (·.1)

/-- Counts ROOT_WAIT once for the groups that hold up a boundary (R285). -/
def State.noteRootWait (s : State) (k : Nat) : State :=
  (s.rootWait k).foldl (fun s g =>
    match (s.sectN k).group g with
    | none => s
    | some v =>
      if v.roots.any fun j => decide (j.due ≤ 1) && j.results.isNone && !j.waited then
        (s.setGroup k g { v with roots := v.roots.map fun j => if j.due ≤ 1 ∧ j.results.isNone then { j with waited := true } else j }).count
          (oGrpCnt 3) (grpSel k g) 1
      else s) s

/-- The areas of factors L and R (0), or Lr and Rr (2), of every block of a group. -/
def factorAreas (d : List Byte) (bs i : Nat) (write : Bool) : List HbmArea :=
  (kronBlocks d bs).flatMap fun ab =>
    let o := blockOrders d bs ab
    [(aFactor d bs ab i, 4 * o.1 ^ 2, write), (aFactor d bs ab (i + 1), 4 * o.2 ^ 2, write)]

/-- Roots that take effect at a boundary: Lr and Rr of every block, or none of them (R285, R286). -/
def State.rootsEffect (s : State) (k g : Nat) (v : Group) (rs : List (Option (List Word × List Word))) : State × Group :=
  let bs := 48 * ctlBs (s.grpCtl k g)
  if rs.all Option.isSome then
    (((kronBlocks v.desc bs).zip rs).foldl (fun s e => match e.2 with
      | some r => (s.setHws (aFactor v.desc bs e.1 2) r.1).setHws (aFactor v.desc bs e.1 3) r.2
      | none => s) s, { v with valid := true })
  else (s, { v with valid := false })

/-- A group at a boundary: roots that are due, roots that start, the accounts of the step cleared. -/
def State.boundaryGroup (s : State) (k : Nat) (e : Nat × Group) : State :=
  let g := e.1
  let d := e.2.desc
  let bs := 48 * ctlBs (s.grpCtl k g)
  let due := e.2.roots.filter fun j => decide (j.due ≤ 1)
  let rest := (e.2.roots.filter fun j => !decide (j.due ≤ 1)).map fun j => { j with due := j.due - 1, age := j.age + 1 }
  let start := e.2.scalars.isSome && ctlRule (s.grpCtl k g) == 3 && e.2.steps % krRootT (s.grpKron k g) == 0
  let areas := (if due.isEmpty then [] else factorAreas d bs 2 true) ++ (if start then factorAreas d bs 0 false else [])
  s.updWork k (gDie d) areas fun s =>
    let t := due.foldl (fun t j => match j.results with
      | some rs => State.rootsEffect t.1 k g t.2 rs
      | none => t) (s, { e.2 with roots := rest })
    let s := t.1
    let v := t.2
    let roots := if start then v.roots ++ [{ due := krDelay (s.grpKron k g), factors := s.captureFactors bs d, results := none }] else v.roots
    s.putGroup k g { v with roots := roots, slices := [], rowWas := [], scalars := none, us := [] }

/-- Every group at a boundary. -/
def State.boundaryGroups (s : State) (k : Nat) : State := (s.sectN k).liveGroups.foldl (fun s e => s.boundaryGroup k e) s

end Sys2Proof.Machine
end

