-- ==== Sys2Proof/Machine/Boundary.lean ====
section
/-! DEFINITION. Boundary.lean: barrier release with its joint part, capture and replay, the watchdog, the step boundary (R26, R31-R35, R53-R55, R90-R92, R152-R154, R158, R290-R297, R381-R383, R451-R457). -/

namespace Sys2Proof.Machine

/-! ### What is at a barrier -/

/-- The index of the barrier that section k stands at: every tile has arrived, a BARRIER descriptor waits, or a switch has come to its step 3, whose barrier has the index of a closing SYNC (R31, R43, R348, log 174). -/
def State.barrierIndex (s : State) (k : Nat) : Option Nat :=
  let x := s.sectN k
  if x.barrier.isSome || (x.atSwitch && x.phase == .switching) then some closingIndex
  else if (x.phase = .running ∨ x.phase = .switching) ∧ s.allArrived k then
    match s.ltns k with
    | [] => none
    | n :: _ => (s.tileN n).arrivedAt
  else none

/-- Tiles whose index differs from that of the lowest-numbered tile (R92). -/
def State.disordered (s : State) (k idx : Nat) : List Nat :=
  if (s.sectN k).barrier.isSome || (s.sectN k).atSwitch then [] else (s.ltns k).filter fun n => (s.tileN n).arrivedAt != some idx

/-- SYNC_ORDER in a tile that arrived with another index (R92, R95). -/
def Tile.syncOrder (t : Tile) : Tile := t.raise t.seq.pc.toNat 0 [(fSyncOrder, t.arrivedAt.getD 0)]

/-- Supersteps that the sequence has completed when the barrier releases: the exchange phase before it has ended. -/
def Section.doneSs (x : Section) : Nat :=
  match x.run with
  | some r => r.seqSs + boolNat x.exchange.isSome
  | none => 0

/-- Supersteps of the pre-pass of the sequence in progress, 0 without one (R158). -/
def Section.prePass (x : Section) : Nat :=
  match x.run, x.program with
  | some r, some p =>
    if r.probe ∧ r.code ≤ 1 then
      match p.timetable r.tt, p.timetable (r.tt - 64) with
      | some a, some b => a.ssCount r.code r.segCount - b.ssCount r.code r.segCount
      | _, _ => 0
    else 0
  | _, _ => 0

/-- Whether the fill happens at this release (R158). -/
def Section.fillDue (x : Section) (idx : Nat) : Bool := idx != closingIndex && x.prePass != 0 && x.doneSs + 1 == x.prePass

/-- Whether this barrier closes a WHOLE or TAIL sequence. -/
def Section.closesStep (x : Section) (idx : Nat) : Bool :=
  idx == closingIndex && x.phase == .running && (match x.run with
    | some r => r.code == 0 || r.code == 3
    | none => false)

/-! ### STATE frames (R366, R383) -/

/-- The slots whose state travels. -/
def travelling (st : Sparse StepAcc) : SpanState := st.filter fun e => decide (0 < e.2.quantised) || e.2.accSat

/-- A STATE record. -/
def stateRec (e : Nat × StepAcc) : List Byte :=
  leBytes 2 e.1 ++ leBytes 1 (boolNat e.2.accSat) ++ [0] ++ leBytes 4 e.2.amax.toNat ++ leBytes 6 e.2.quantised ++ leBytes 6 e.2.saturated
  ++ leBytes 6 e.2.flushed ++ leBytes 6 e.2.subnormal ++ leBytes 6 e.2.zeroRange ++ [0, 0]

/-- The slot and state of a STATE record. -/
def stateOfRec (b : List Byte) : Nat × StepAcc :=
  (fieldAt b 0 2,
   { amax := BitVec.ofNat 32 (fieldAt b 4 4), quantised := fieldAt b 8 6, saturated := fieldAt b 14 6, flushed := fieldAt b 20 6,
     subnormal := fieldAt b 26 6, zeroRange := fieldAt b 32 6, accSat := bitOf (fieldAt b 2 1) 0 })

/-- The records of a STATE frame. -/
def stateOfFrame (f : Frame) : SpanState := (List.range (bitsOf f.header 15 8)).map fun n => stateOfRec (f.data.drop (40 * n))

/-- The STATE frames of a span state, six records each. -/
def stateFrames (st : SpanState) : List Frame :=
  let n := ceilDiv st.length 6
  (List.range n).map fun i =>
    let rs := (st.drop (6 * i)).take 6
    { header := 5 + 8 * 3 + 2 ^ 8 * rs.length + 2 ^ 16 * boolNat (i + 1 == n), data := padTo 256 (rs.flatMap stateRec) }

/-- Sends frames on LVC5 of a link. -/
def State.sendFrames (s : State) (l : Nat) (fs : List Frame) : State := s.setLinkN l (fs.foldl (fun x f => x.enqueue 5 f) (s.linkN l))

/-- A chip's part of the combination: its own step state and every child's (R383). -/
def State.spanCombine (s : State) (k : Nat) : SpanState :=
  travelling (combineAll [s.stepState k, (s.sectN k).span.childState])

/-- Children of the barrier tree. -/
def spanChildLinks (sp : List Byte) : List Nat := (List.range 32).filter fun l => bitOf (spanChildren sp) l

/-! ### The joint part of a barrier (R34, R381-R383) -/

/-- What the joint part comes to: it faulted or waits with the state given, or the release may go on. -/
inductive JointResult where
  | stop (s : State)
  | go (s : State)

/-- The joint part: children's ARRIVE, checked against this chip's INDEX and BSEQ; ARRIVE to the parent; the root's RELEASE. carries tells whether the barrier carries STATE. -/
def State.joint (s : State) (k idx : Nat) (carries : Bool) : JointResult :=
  let x := s.sectN k
  let sp := x.spanTable
  let w := x.span
  let kids := spanChildLinks sp
  match w.arrived.find? (fun a => a.2.1 != index16 idx || a.2.2 != x.bseq) with
  | some a => .stop ((s.event 0x0708 k (items [a.1, a.2.1, index16 idx])).faultSect k 0x0708)
  | none =>
    if !kids.all (fun l => w.arrived.any fun a => a.1 == l) then .stop s
    else
      let own := if carries then s.spanCombine k else []
      let down := fun (s : State) (st : SpanState) =>
        kids.foldl (fun s l => (if carries then s.sendFrames l (stateFrames st) else s).sendBarrier l 1 (index16 idx) x.bseq []) s
      if spanParent sp ≥ 32 then .go (down (s.setSectN k { x with span := { w with rootState := own } }) own)
      else if !w.sent then
        let s := if carries then s.sendFrames (spanParent sp) (stateFrames own) else s
        .stop ((s.setSectN k { x with span := { w with sent := true } }).sendBarrier (spanParent sp) 0 (index16 idx) x.bseq [])
      else if !w.released then .stop s
      else .go (down s w.rootState)

/-! ### Capture and replay (R456, R457) -/

/-- An entry of the capture area: link, LVC, postmark, STEP_SS, record, header and data. -/
structure CapEntry where
  link : Nat
  lvc : Nat
  postmark : Nat
  ss : Nat
  record : Nat
  frame : Frame
  deriving DecidableEq, Repr

/-- The entries of the capture area from an offset on, and the one that the area cuts off; fuel bounds their number. -/
def State.capEntries (s : State) : Nat → Nat → List CapEntry × Option CapEntry
  | 0, _ => ([], none)
  | n + 1, o =>
    if s.capLen < o + 64 then ([], none)
    else
      let h := s.hbm.readBytes (s.capBase + o) 64
      let len := if fieldAt h 1 1 = 5 then 256 else 64 * (fieldAt h 2 1 % 4 + 1)
      let e : CapEntry :=
        { link := fieldAt h 0 1 % 32, lvc := fieldAt h 1 1, postmark := fieldAt h 4 4, ss := fieldAt h 8 4, record := fieldAt h 12 2
          frame := { header := fieldAt h 16 8, data := padTo 256 (s.hbm.readBytes (s.capBase + o + 64) len) } }
      if e.postmark = 0 then ([], none)
      else if s.capLen < o + 64 + len then ([], some e)
      else
        let t := State.capEntries s n (o + 64 + len)
        (e :: t.1, t.2)

/-- Whether a section runs in replay. -/
def State.replaying (s : State) (k : Nat) : Bool := bitOf (s.reg (oSect k + sReplay)) 0

/-- The captured entries of one superstep of the step in progress, and whether the area ends in the middle of one. -/
def State.replayEntries (s : State) (k record : Nat) (state : Bool) : List CapEntry × Bool :=
  match (s.sectN k).run with
  | none => ([], false)
  | some r =>
    let mine := fun e : CapEntry => e.postmark == stPostmark r.desc && e.ss == r.stepSs && e.record == record && (e.lvc == 5) == state
    let t := s.capEntries (s.capLen / 128 + 1) 0
    (t.1.filter mine, match t.2 with
      | some e => mine e
      | none => false)

/-- REPLAY_EXHAUSTED (R457). -/
def State.replayExhausted (s : State) (k : Nat) : State :=
  let r := (s.sectN k).run
  (s.event 0x0A0C k (items [k, (r.map fun r => stPostmark r.desc).getD 0, (r.map (·.stepSs)).getD 0])).faultSect k 0x0A0C

/-- The lowest unit of the capture area that HBM cannot correct: a replay reads the whole of it (R441). -/
def State.captureBad (s : State) : Option Nat := s.hbmBadUnit s.capBase s.capLen

/-- Injection of the captured frames of a superstep, as if they had arrived on their links. -/
def State.replayInject (s : State) (k record : Nat) : State :=
  let t := s.replayEntries k record false
  if t.2 then s.replayExhausted k
  else match s.captureBad with
  | some u => (s.hbmUncorr k u).faultSect k 0x0A07
  | none => t.1.foldl (fun s e =>
    let x := s.sectN k
    let s := s.setSectN k { x with linkUse := addLinkUse x.linkUse e.link (fhNf e.frame.header) 0 (frameDigest e.frame) 0 }
    s.frameIn k e.link e.frame) s

/-- In replay, the captured STATE values stand for the root's (R457). -/
def State.replayState (s : State) (k record : Nat) : State :=
  let t := s.replayEntries k record true
  let x := s.sectN k
  if t.2 then s.replayExhausted k
  else match s.captureBad with
  | some u => (s.hbmUncorr k u).faultSect k 0x0A07
  | none => s.setSectN k { x with span := { x.span with rootState := t.1.flatMap fun e => stateOfFrame e.frame } }

/-! ### The end of an exchange phase (R453, R454) -/

/-- An entry of a SUPERSTEP record. -/
def linkEntry (u : Nat × Nat × Nat × Nat × Nat) : List Byte :=
  leBytes 1 u.1 ++ fillBytes 3 0 ++ leBytes 4 u.2.1 ++ leBytes 4 u.2.2.1 ++ fillBytes 4 0 ++ leBytes 32 u.2.2.2.1 ++ leBytes 32 u.2.2.2.2 ++ fillBytes 48 0

/-- The SUPERSTEP record of the phase that has ended, with its CAPTURE record, and the count of the superstep. -/
def State.endPhase (s : State) (k : Nat) : State :=
  let x := s.sectN k
  match x.exchange with
  | none => s
  | some rec =>
    let cap := s.capturing k
    let s := if x.linkUse.isEmpty then s else
      let s := s.postbook 1 k rec cap (x.linkUse.flatMap linkEntry)
      if cap then
        s.postbook 8 k rec true (leBytes 8 (s.repair.capUsed - x.capBytes.length) ++ leBytes 8 x.capBytes.length ++ leBytes 4 x.capFrames ++ fillBytes 12 0
          ++ shake256 x.capBytes)
      else s
    s.setSectN k { s.sectN k with
      exchange := none, linkUse := [], capBytes := [], capFrames := 0, overran := []
      run := x.run.map fun r => { r with seqSs := r.seqSs + 1, stepSs := r.stepSs + 1 } }

/-! ### Entry of a sequence (R43, R73, R79) -/

/-- The segment word of g3 and of the information block (R73). -/
def segWord (r : StepRun) : Nat := if r.code = 0 then 0 else r.code + 16 * r.segIndex + 4096 * r.segCount

/-- The information block of a tile (R79). -/
def infoBlock (k ltn tt seg postmark ss : Nat) (t : ImageTile) (values : List Byte) : List Byte :=
  padTo 256 (leBytes 4 ltn ++ leBytes 4 k ++ leBytes 4 tt ++ leBytes 4 seg ++ leBytes 4 postmark ++ leBytes 4 ss ++ fillBytes 8 0
    ++ leBytes 4 t.codeBase ++ leBytes 4 t.codeLimit) ++ padTo 64 values

/-- A tile enters a sequence: registers, semaphores, queues, and the accumulators and drain buffer are cleared (R73, R106); the fetched lines too. -/
def Tile.enter (t : Tile) (ltn entry seg : Nat) (info : List Byte) : Tile :=
  let regs := ((Vector.replicate 32 (0 : Word)).setIfInBounds 1 (BitVec.ofNat 32 ltn)).setIfInBounds 2 0x400000
  { t with
    seq := { regs := regs.setIfInBounds 3 (BitVec.ofNat 32 seg), pc := BitVec.ofNat 32 entry, status := .running }
    queues := Vector.replicate 8 [], info := Sparse.run Memory.empty 0 info, me := t.me.enter, ex := {} }

/-- Every tile of a section enters a sequence; the clocks of a fenced tile stand (R442). -/
def State.enterTiles (s : State) (k entry seg tt postmark ss : Nat) (values : List Byte) : State :=
  let p := ((s.sectN k).program).getD {}
  s.mapTiles k fun n t => if s.fencedLtn n then t else t.enter n entry seg (infoBlock k n tt seg postmark ss (p.tile n) values)

/-- Step 4 of a switch: SWITCH_IN starts in every tile (R43). The information block holds the values of the STEP that caused the switch, or 0 (R79). -/
def State.startSwitchIn (s : State) (k : Nat) : State :=
  let x := s.sectN k
  let entry := (((x.program.getD {}).entries[0]?).map (·.1)).getD 0
  match x.run with
  | some r => s.enterTiles k entry 0 r.tt (stPostmark r.desc) 0 r.values
  | none => s.enterTiles k entry 0 0 0 0 []

/-! ### Release -/

/-- Stops the tiles' sequencers after a closing SYNC (R91). -/
def Tile.closeSync (t : Tile) : Tile := { t with seq := { t.seq with status := .stopped } }

/-- Steps 2 and 3 of a SYNC begin in a tile with its record and send entries (R90). -/
def Tile.beginExchange (t : Tile) (k : Nat) (record : List Byte) (sends : List (List Byte)) : Tile :=
  { t with
    seq := { t.seq with status := .exchange k }
    ex := { sends := sends, late := 0, got := 0, want := recRecvCount record } }

/-- The release of a closing SYNC (R43, R61, R63, R91); a seal that is still pending when the section becomes IDLE is applied at once (R53). -/
def State.releaseClosing (s : State) (k : Nat) : State :=
  let s := (s.sealPoint k).mapTiles k fun _ t => t.closeSync
  let x := s.sectN k
  match x.phase, x.run with
  | .switching, some _ => s.setSectN k { x with phase := .running, switching := none }
  | .switching, none =>
    let s := s.setSectN k { x with phase := .idle, switching := none }
    (match x.switching with
     | some d => s.done k (descDone d.desc d.index 0 0)
     | none => s).settleSeal k
  | _, some r =>
    if r.code = 0 ∨ r.code = 3 then s.setSectN k { x with run := some { r with ended := true } }
    else
      let c := match x.chain with
        | some c => { c with nextSeg := r.segIndex + 1, stepSs := r.stepSs, overruns := r.overruns, late := r.late, lockedPosted := r.lockedPosted }
        | none => { desc := r.desc, values := r.values, tt := r.tt, named := r.named, probe := r.probe, segCount := r.segCount, nextSeg := r.segIndex + 1,
                    stepSs := r.stepSs, overruns := r.overruns, late := r.late, lockedPosted := r.lockedPosted }
      (s.setSectN k { x with run := none, chain := some c }).done k (runDone r 0 0)
  | _, none => s

/-- The release of an ordinary superstep: every tile reads its record and send entries in its tile store, DX gets its sends, links and replay deliver (R29, R48, R49, R90, R379, R457). -/
def State.releaseOpen (s : State) (k idx : Nat) : State :=
  let s' := s
  let s := (s.mapTiles k fun n t => t.beginExchange idx (s'.recordOf k n idx) (s'.sendsOf k n (s'.recordOf k n idx)))
  let s := (s.ltns k).foldl (fun (s : State) n => s.recordTouch k n idx) s
  let s := s.setSectN k { s.sectN k with exchange := some idx }
  let s := s.nodesPhase k
  if s.replaying k then s.replayInject k (index16 idx)
  else ((List.range 32).filter fun l => s.linkSect l == some k).foldl (fun s l => s.drainLink l) s

/-- The HANDOVER collection of a record, if it has one (R327). -/
def State.handover (s : State) (k idx : Nat) (v : Option HandoverVerdict) : State :=
  match v with
  | some (.collect t row slots first) => s.collect k idx t row slots first
  | _ => s

/-- Barriers passed, counted as the 32-bit BSEQ of link frames (R366, R382). -/
def bseqSucc (n : Nat) : Nat := (n + 1) % 2 ^ 32

/-- The release of a barrier (R31): the phase before it ends, a pending section seal applies, the fill, the collection, the next phase. Where a pending section seal and the probe fill meet at one release, the spec gives no order: the model applies the seal first and fills under the configuration that it leaves (log 160, DESIGN CHOICE). -/
def State.release (s : State) (k idx : Nat) (verdict : Option HandoverVerdict) : State :=
  let x := s.sectN k
  match x.barrier with
  | some d =>
    (s.setSectN k { x with barrier := none, freed := false, bseq := bseqSucc x.bseq, span := { rootState := x.span.rootState } }).done k (descDone d.desc d.index 0 0)
  | none =>
    if x.atSwitch then
      let s := s.applyPending k
      (s.setSectN k { s.sectN k with atSwitch := false, freed := false, bseq := bseqSucc x.bseq, span := {} }).startSwitchIn k
    else
    let fill := x.fillDue idx
    let closes := x.closesStep idx
    let s := s.endPhase k
    let s := if s.replaying k && (fill || closes) then s.replayState k (index16 idx) else s
    if (s.sectN k).phase = .faulted then s else
    let s := if closes then s else s.applyPending k
    let s := if fill then
        let s := s.probeFill k ((x.run.map (·.named)).getD false)
        s.setSectN k { s.sectN k with span := { (s.sectN k).span with rootState := [] } }
      else s
    let y := s.sectN k
    let s := s.setSectN k { y with freed := false, bseq := bseqSucc y.bseq, span := { rootState := y.span.rootState } }
    if idx = closingIndex then s.releaseClosing k
    else
      let s := s.handover k idx verdict
      if (s.sectN k).phase = .faulted then s else s.releaseOpen k idx

/-- Whether the superstep at a barrier collects: its record is a HANDOVER record, and a probe step collects in its pre-pass only (R159, R327, R330). -/
def State.isHandover (s : State) (k idx : Nat) : Bool :=
  let x := s.sectN k
  let here := match x.run with
    | some r => !r.probe || decide (x.doneSs < x.prePass)
    | none => true
  match s.ltns k with
  | [] => false
  | n :: _ => idx != closingIndex && here && recHandover (s.recordOf k n idx)

/-- What a barrier comes to: the section goes on, its handover waits for late ingest (R329), or the postbook ring has no room for a record of the release (R357). -/
inductive BarrierOutcome where
  | moves (s : State)
  | late
  | full

/-- The barrier of section k at index idx, every tile there: order, handover, joint part, hold, release. -/
def State.atBarrier (s : State) (k idx : Nat) : BarrierOutcome :=
  match s.disordered k idx with
  | n :: ns => .moves ((n :: ns).foldl (fun s n => s.setTileN n (s.tileN n).syncOrder) s)
  | [] =>
    let verdict := if s.isHandover k idx then some (s.judgeHandover k idx) else none
    match verdict with
    | some (.mismatch c) => .moves ((s.event c k []).faultSect k c)
    | some (.unreadable u) => .moves ((s.hbmUncorr k u).faultSect k 0x0A07)
    | some .wait => .late
    | _ =>
      let x := s.sectN k
      let carries := x.fillDue idx || x.closesStep idx
      match (if s.joined k then s.joint k idx carries else .go s) with
      | .stop s => .moves s
      | .go t =>
        if s.glbPend && !x.freed && (x.phase == .running || x.phase == .switching) then .moves (s.setSectN k { x with before := x.phase, phase := .held })
        else
          let u := t.release k idx verdict
          if (s.ring 66).held.length < (u.ring 66).held.length then .full else .moves u

/-- The state after it; a superstep whose release waits at handover counts in INGEST_LATE when it collects (R329). -/
def State.barrierAt (s : State) (k idx : Nat) : State :=
  match s.atBarrier k idx with
  | .moves t => t
  | .late => s.setSectN k { s.sectN k with waited := true }
  | .full => s

/-- Whether the barrier of a section waits for late ingest, and whether for that or for room in the postbook: neither time counts toward the watchdog (R35, R329, R357). -/
def State.ingestLate (s : State) (k : Nat) : Option Nat :=
  match s.barrierIndex k with
  | none => none
  | some idx => match s.atBarrier k idx with
    | .late => some idx
    | _ => none
def State.uncounted (s : State) (k : Nat) : Bool :=
  match s.barrierIndex k with
  | none => false
  | some idx => match s.atBarrier k idx with
    | .moves _ => false
    | _ => true

/-- BARRIER_RELEASE (R31). -/
def execBarrierRelease (k : SectId) (s : State) : Host.Outcome State Fault Refusal :=
  .next (match s.barrierIndex k.toNat with
    | some idx => s.barrierAt k.toNat idx
    | none => s)

/-- Whether some tile of a section has arrived at its barrier, its BARRIER descriptor waits, or it stands at step 3 of a switch. -/
def State.someArrived (s : State) (k : Nat) : Bool :=
  (s.sectN k).barrier.isSome || (s.sectN k).atSwitch || (s.ltns k).any fun n => (s.tileN n).arrivedAt.isSome

/-- BARRIER_TIMEOUT: the limit of R35 has passed without the waits that do not count, so that none of them is going on. -/
def execBarrierTimeout (k : SectId) (s : State) : Host.Outcome State Fault Refusal :=
  let x := s.sectN k.toNat
  .next (if s.someArrived k.toNat && !s.uncounted k.toNat && x.phase != .held && x.phase != .off && x.phase != .faulted then
      (s.event 0x0101 k.toNat []).faultSect k.toNat 0x0101
    else s)

/-- INGEST_STALLED: a handover wait that goes on has exceeded INGEST_STALL.MS; posted once for the superstep (R329). -/
def execIngestStalled (k : SectId) (s : State) : Host.Outcome State Fault Refusal :=
  let x := s.sectN k.toNat
  .next (match s.ingestLate k.toNat with
    | none => s
    | some record =>
      if x.stalled || bitsOf (s.reg oStall) 15 0 == 0 then s
      else (s.setSectN k.toNat { x with waited := true, stalled := true }).event 0x0504 k.toNat (items [record]))

/-! ### The step boundary (R26) -/

/-- The evaluation sections that name section k as SOURCE. -/
def State.evalSections (s : State) (k : Nat) : List Nat := (List.range 16).filter fun e => s.evalOn e && s.evalSource e == k

/-- The first row of a range that the step has not written (R294). -/
def VRange.unwritten (r : VRange) : Option Nat :=
  if r.st = .current then none
  else ((List.range (ceilDiv (r.off + r.len) 64 - r.off / 64)).map (· + r.off / 64)).find? (fun w => r.st == .old || !r.rows.contains w) |>.map (64 * ·)

/-- UPDATE_INCOMPLETE: the group and offset of the first row that has not been written (R294). -/
def State.incomplete (s : State) (k : Nat) : Option (Nat × Nat) :=
  let prog := (s.sectN k).prog
  (((s.ltns k).flatMap fun n => (s.tileN n).ranges).filterMap fun r =>
    if r.prog = prog then r.unwritten.map fun o => (r.group, o) else none).head?

/-- The stamp of a version slot of a group. -/
def State.slotStamp (s : State) (k prog g : Nat) (slotB : Bool) : Nat :=
  ((((s.ltns k).flatMap fun n => (s.tileN n).ranges).find? fun r => r.prog == prog && r.group == g && r.slotB == slotB).map (·.stamp)).getD 0

/-- OPEN ranges become CURRENT, CURRENT ranges OLD (R290). -/
def VRange.advance (prog : Nat) (r : VRange) : VRange :=
  if r.prog ≠ prog then r
  else match r.st with
    | .open => { r with st := .current, rows := [] }
    | .current => { r with st := .old, rows := [] }
    | .old => r

/-- STEPS of the OWNER_TILE groups that were updated in the step (R276, R307). -/
def State.ownerSteps (s : State) (k : Nat) : State :=
  let prog := (s.sectN k).prog
  let open_ := ((s.ltns k).flatMap fun n => (s.tileN n).ranges).filterMap fun r => if r.prog = prog ∧ r.st = .open then some r.group else none
  (s.sectN k).liveGroups.foldl (fun s e =>
    if gOwner e.2.desc && open_.contains e.1 then s.setGroup k e.1 { e.2 with steps := (e.2.steps + 1) % 2 ^ 32 } else s) s

/-- Runs of adjoining entries of a table: offset and bytes. -/
def joinRuns : List (Nat × List Byte) → List (Nat × List Byte)
  | [] => []
  | e :: es => match joinRuns es with
    | [] => [e]
    | f :: fs => if e.1 + e.2.length = f.1 then (e.1, e.2 ++ f.2) :: fs else e :: f :: fs

/-- The version tables of a program: the entries in ascending group number, within the program's granules (R42), written like every tile-store write from outside the tile's commands (R213, R214, R292). -/
def State.versionTables (s : State) (k prog : Nat) (p : ProgImage) : State :=
  let gs := (List.range 1024).filter (p.groups.map gNum).contains
  let entry := fun (off g : Nat) => (off + 8 * g, leBytes 4 (s.slotStamp k prog g false) ++ leBytes 4 (s.slotStamp k prog g true))
  p.tiles.foldl (fun s t => match t.versionTable with
    | some off => (joinRuns (gs.map (entry off))).foldl (fun (s : State) e => s.loadWrite t.ltn (t.granules.map (·.1)) e.1 e.2) s
    | none => s) s

/-- Action 2 of R26: groups, roots and version tables, then versions and postmark. A fault on the way ends the step before any version becomes CURRENT (R295). The exception of R57 ends, unless a LOAD or restore came during the step. -/
def State.advanceVersions (s : State) (k : Nat) (r : StepRun) : State :=
  let x := s.sectN k
  let s := (s.ownerSteps k).boundaryGroups k
  if (s.sectN k).phase = .faulted then s else
  let s := (s.versionTables k x.prog ((x.program).getD {})).stopFaulted k
  if (s.sectN k).phase = .faulted then s else
  let s := s.mapTiles k fun _ t => if t.ranges.isEmpty then t else { t with ranges := t.ranges.map (VRange.advance x.prog) }
  s.setSectN k { s.sectN k with postmark := stPostmark r.desc, fresh := (s.sectN k).loaded.isSome }

/-- UCOUNT values of the step enter the counters (R289). -/
def State.foldUcounts (s : State) (k : Nat) : State :=
  let s := ((s.ltns k).flatMap fun n => (s.tileN n).ucounts).foldl (fun s u => s.count (oGrpCnt u.2.1) (grpSel k u.1) u.2.2) s
  s.mapTiles k fun _ t => if t.ucounts.isEmpty then t else { t with ucounts := [] }

/-- What action 1 leaves for the report: latched slot values, ANY_ACC_SAT, whether the seal was refused. -/
structure Closing where
  latched : List Latched
  anySat : Bool
  refused : Bool
  deriving DecidableEq, Repr

/-- Action 1 of R26: the scale update with the section seal captured at the seal point (R54, R153), the windows consumed (R330), the counts of the step. -/
def State.boundarySeal (s : State) (k : Nat) : State × Closing :=
  let st := s.stepStateAll k
  let old := s.sectN k
  let s := s.appendHist k st
  let t := (s.sealPoint k).applySect k old.sealPend
  let s := (t.1.nextSeal k).rescale k
  let ls := ((List.range 1024).filter fun i => cfgReport (s.slotCfg k i)).map fun i =>
    { slot := i, acc := Sparse.get {} st i, used := (old.slot i).scale : Latched }
  (((s.clearAcc k).foldUcounts k).releaseWindows k, { latched := ls, anySat := st.any fun e => e.2.accSat, refused := t.2 })

/-! ### Version copies (R296, R297) -/

/-- One row of an UPDATE_DIE group's working copy, in column order. -/
def State.groupRow (s : State) (d : List Byte) (slotB : Bool) (i : Nat) : List Byte :=
  (List.range (gSliceCols d)).flatMap fun m =>
    let n := i / 48 * gSliceCols d + m
    let at_ := s.copyPlace d n slotB
    s.storeBytes at_.1 (at_.2 + i % 48 * 48 * wBytes d) (min 48 (gCols d - 48 * m) * wBytes d)

/-- The data of a group in a version copy: logical row-major order; an OWNER_TILE group's ranges in the image's order. -/
def State.groupData (s : State) (k prog : Nat) (d : List Byte) : List Byte :=
  let slotB := (s.currentSlot k (gNum d)).getD false
  let n := gRows d * gCols d * wBytes d
  if gOwner d then
    padTo n ((s.ltns k).flatMap fun l => ((s.tileN l).ranges.filter fun r => r.prog == prog && r.group == gNum d && r.slotB == slotB).flatMap fun r =>
      s.storeBytes l r.off r.len)
  else padTo n ((List.range (gRows d)).flatMap (s.groupRow d slotB))

/-- What a version copy reads of a group: tile, offset, length (R296). -/
def State.groupPlaces (s : State) (k prog : Nat) (d : List Byte) : List (Nat × Nat × Nat) :=
  let slotB := (s.currentSlot k (gNum d)).getD false
  if gOwner d then (s.ltns k).flatMap fun l =>
    ((s.tileN l).ranges.filter fun r => r.prog == prog && r.group == gNum d && r.slotB == slotB).map fun r => (l, r.off, r.len)
  else (List.range (gSlices d)).map fun n =>
    let at_ := s.copyPlace d n slotB
    (at_.1, at_.2, (slicePlace d n).rows * 48 * wBytes d)

/-- What the reads of a version copy by the tiles' D-H queues leave behind (R209, R214). -/
def State.copyTouch (s : State) (k : Nat) (p : ProgImage) : State :=
  (p.groups.flatMap (s.groupPlaces k (s.sectN k).prog)).foldl (fun (s : State) e => s.storeTouch e.1 e.2.1 e.2.2 1 e.1) s

/-- Offsets and data of the groups of a copy, each at a multiple of 64 from an offset on. -/
def layOut : Nat → List (List Byte) → List (Nat × List Byte)
  | _, [] => []
  | o, b :: bs => (o, b) :: layOut (o + roundUp b.length 64) bs

/-- The version-copy area of the version that is CURRENT: header, group records, and from the next multiple of 64 on the data, gaps filled with 0 (R296, log 175). -/
def State.versionCopy (s : State) (k : Nat) (p : ProgImage) : List Byte :=
  let x := s.sectN k
  let records := 64 + 32 * p.groups.length
  let start := roundUp records 64
  let laid := layOut start (p.groups.map (s.groupData k x.prog))
  let recs := (p.groups.zip laid).flatMap fun e =>
    leBytes 2 (gNum e.1) ++ leBytes 1 (gWfmt e.1) ++ [0] ++ leBytes 4 (gRows e.1) ++ leBytes 4 (gCols e.1) ++ fillBytes 4 0
    ++ leBytes 8 e.2.1 ++ leBytes 8 e.2.2.length
  let data := laid.flatMap fun e => padTo (roundUp e.2.length 64) e.2
  let total := start + data.length
  leBytes 4 x.postmark ++ leBytes 1 k ++ [0] ++ leBytes 2 p.groups.length ++ leBytes 8 total ++ fillBytes 48 0 ++ recs ++ fillBytes (start - records) 0 ++ data

/-- Whether the version-copy area of section k is being written, shipped or read (R297). -/
def State.copyBusy (s : State) (k : Nat) : Bool :=
  let x := s.sectN k
  x.copy.isSome || x.snap.isSome || (s.evalSections k).any fun e => (s.sectN e).evalCopy.isSome

/-- What a boundary decides about copies: completion flags SNAPSHOT_BUSY and SNAPSHOT_SPACE, the copy and the snapshot to make (R296, R297, R351). -/
structure CopyPlan where
  flags : Nat
  copy : Option VersionCopy
  snap : Option Snapshot
  deriving DecidableEq, Repr

/-- The plan of a boundary. -/
def State.copyPlan (s : State) (k : Nat) (r : StepRun) : CopyPlan :=
  let p := ((s.sectN k).program).getD {}
  let asked := bitOf (stSnap r.desc) 0
  let evals := !(s.evalSections k).isEmpty
  if s.evalOn k || !(asked || evals) then { flags := 0, copy := none, snap := none }
  else if s.copyBusy k then { flags := 4 * boolNat asked, copy := none, snap := none }
  else
    let bs := s.versionCopy k p
    let peer := bitOf (stSnap r.desc) 1
    let space := asked && !peer && decide (stSnapLen r.desc < bs.length)
    let ship := asked && !space
    { flags := 8 * boolNat space
      copy := if ship || evals then some { postmark := stPostmark r.desc, area := p.versionArea, bytes := bs } else none
      snap := if ship then some { postmark := stPostmark r.desc, host := if peer then none else some (stSnapAddr r.desc), peer := stPeer r.desc } else none }

/-- The slot states of a section as the SLOTS chunk lays them out (R453, R461). -/
def State.slotStates (s : State) (k : Nat) : List Byte := (List.range 1024).flatMap (s.slotImage k)

/-- The end of a step in the capture window (R456). -/
def State.captureStep (s : State) (k : Nat) : State :=
  if !s.capturing k then s
  else if s.repair.capSteps ≤ 1 then
    ({ s with repair := { s.repair with capActive := false, capSteps := 0, capDone := true } } : State).event 0x0A0B k (items [k, s.repair.capUsed])
  else { s with repair := { s.repair with capSteps := s.repair.capSteps - 1 } }

/-- Whether a section whose step is complete goes on from RUNNING to RUNNING: its job ring holds both entries of a STEP that follows (R40, R346, log 43). -/
def State.goesOn (s : State) (k : Nat) : Bool :=
  s.ringOn k && decide (2 ≤ (s.ring k).occupancy) && Config.entryIsStep ((s.ring k).base + 64 * (s.ring k).head)

/-- Actions 3 to 5 of R26, every event before the completion record (R357); then the version copy begins. The digest of STEP_CLOSE takes the report with OVERRUNS 0, since overruns enter no digest (R453, R459, log 176). -/
def State.boundaryEnd (s : State) (k : Nat) (r : StepRun) (c : Closing) : State :=
  let report := s.stepReport k r c.latched c.anySat c.refused
  let plain := s.stepReport k { r with overruns := 0 } c.latched c.anySat c.refused
  let s := if stReport r.desc = 0 then s else s.hostWrite (stReport r.desc) report
  let plan := s.copyPlan k r
  let s := (s.captureStep k).done k (runDone r 0 (2 * boolNat c.refused + plan.flags))
  let s := s.postbook 7 k 0xFFFF false (shake256 plain ++ shake256 (s.slotStates k))
  let s := if plan.copy.isSome then s.copyTouch k (((s.sectN k).program).getD {}) else s
  let x := s.sectN k
  let s := s.setSectN k { x with
    phase := if s.goesOn k then .running else .idle
    run := none, chain := none
    copy := match plan.copy with
      | some v => some v
      | none => x.copy
    snap := match plan.snap with
      | some v => some v
      | none => x.snap
    span := { x.span with rootState := [] }
    slots := clearFilled x.slots }
  s.settleSeal k

/-- The boundary of a step that may be performed; a fault that waits or is met ends the step in FAULTED (R295). -/
def State.boundary (s : State) (k : Nat) (r : StepRun) : State :=
  let s := s.stopFaulted k
  if (s.sectN k).phase = .faulted then s else
  let s := s.boundaryStats k
  if (s.sectN k).phase = .faulted then s else
  let t := s.boundarySeal k
  let s := if s.evalOn k then t.1 else t.1.advanceVersions k r
  if (s.sectN k).phase = .faulted then s else s.boundaryEnd k r t.2

/-- STEP_BOUNDARY (R26): once every slice of the step has been consumed; the checks of R294, the wait of R285, then the five actions. -/
def execStepBoundary (k : SectId) (s : State) : Host.Outcome State Fault Refusal :=
  let n := k.toNat
  let x := s.sectN n
  .next (match x.run with
    | none => s
    | some r =>
      if !r.ended || x.phase != .running || s.nodesBusy n || s.slices.toList.any (fun q => q.any fun m => m.sect == n) then s
      else match (if s.evalOn n then none else s.incomplete n) with
        | some i => (s.event 0x0405 n (items [i.1, i.2])).faultSect n 0x0405
        | none =>
          if !s.evalOn n && !(s.rootWait n).isEmpty then s.noteRootWait n
          else
            let u := s.boundary n r
            if (s.ring 66).held.length < (u.ring 66).held.length then s else u)

end Sys2Proof.Machine
end

