-- ==== Sys2Proof/Machine/Loading.lean ====
section
/-! DEFINITION. Loading.lean: what a LOAD refuses and what it sets; switching programs; the entry of a sequence (R37, R42, R43, R48-R51, R72, R73, R79, R149-R151, R194, R203, R210, R233-R240, R268, R269, R290, R292, R380, R460-R464, R474, R475). -/

namespace Sys2Proof.Machine

/-- Status and DETAIL of a refused descriptor (R351, R352). -/
abbrev Refused := Nat × Nat

def csRefused : Nat := 0x01
def csMismatch : Nat := 0x02
def csTimetable : Nat := 0x03
def csAbsent : Nat := 0x04
def csBusy : Nat := 0x05
def csPostmark : Nat := 0x06
def csSegments : Nat := 0x07
def csOrder : Nat := 0x08
def csVersion : Nat := 0x09
def csMask : Nat := 0x0A
def csGroup : Nat := 0x0B
def csShuffle : Nat := 0x0C
def csSpace : Nat := 0x0D
def csFlushed : Nat := 0x0F
def csReadError : Nat := 0x10

/-! ### Header (R460, R462, R463) -/

/-- Fields of an image header. -/
def imLength (b : List Byte) : Nat := fieldAt b 8 8
def imChunks (b : List Byte) : Nat := fieldAt b 16 2
def imContext (b : List Byte) : Bool := fieldAt b 6 1 == 2

/-- The first byte offset at which the header or directory breaks R460. The geometry fields of a CONTEXT image are compared with the device (R463); those of a PROGRAM image must hold what R460 allows on Dyndirix. -/
def headerBad (b : List Byte) : Option Nat :=
  let dir := (List.range (imChunks b)).flatMap fun i =>
    let o := 256 + 32 * i
    [(o, 1 ≤ fieldAt b o 2 && fieldAt b o 2 ≤ 10 && (imContext b || fieldAt b o 2 == 1)), (o + 2, allZero ((b.drop (o + 2)).take 6)),
     (o + 8, fieldAt b (o + 8) 8 % 64 == 0), (o + 16, decide (fieldAt b (o + 8) 8 + fieldAt b (o + 16) 8 ≤ imLength b)), (o + 24, allZero ((b.drop (o + 24)).take 8))]
  let plain := !imContext b
  let fixed : List (Nat × Bool) :=
    [(0, fieldAt b 0 4 == 0x49565748), (4, fieldAt b 4 2 == 1), (6, fieldAt b 6 1 == 1 || fieldAt b 6 1 == 2), (7, fieldAt b 7 1 == 0),
     (18, !plain || fieldAt b 18 2 == 64), (20, !plain || fieldAt b 20 2 == 48), (22, !plain || (decide (1 ≤ fieldAt b 22 2) && decide (fieldAt b 22 2 ≤ 256))),
     (24, !plain || (decide (32 ≤ fieldAt b 24 4) && decide (fieldAt b 24 4 ≤ 2048) && fieldAt b 24 4 % 32 == 0)), (28, !plain || fieldAt b 28 4 == 0),
     (40, allZero ((b.drop 40).take 24)), (128, allZero ((b.drop 128).take 128))]
  ((fixed ++ dir).find? fun e => !e.2).map (·.1)

/-- The first chunk of a type: where its directory entry lies, its OFFSET and its LENGTH (R460). -/
def chunkAt (b : List Byte) (type : Nat) : Option (Nat × Nat × Nat) :=
  (((List.range (imChunks b)).map (256 + 32 * ·)).find? fun o => fieldAt b o 2 == type).map fun o => (o, fieldAt b (o + 8) 8, fieldAt b (o + 16) 8)

/-- The bytes of a chunk, none where the image has no such chunk. -/
def chunkBytes (b : List Byte) (type : Nat) : List Byte :=
  match chunkAt b type with
  | some c => (b.drop c.2.1).take c.2.2
  | none => []

/-- The bytes of a save set. -/
def ImageTile.saveLen (t : ImageTile) : Nat := (t.saveSet.map (·.2)).foldl (· + ·) 0

/-- What of an UPDATE_DIE group travels in the MASTER, STATE and ROWWORDS chunks (R460, R492): place and length. -/
def masterArea (d : List Byte) : Nat × Nat := (gMaster d, if gOwner d then 0 else 4 * gRows d * gCols d)
def stateArea (d : List Byte) : Nat × Nat := (gState d, if gOwner d then 0 else stateLen d)
def rowWordArea (d : List Byte) : Nat × Nat := (gRowWord d, if gRowWords d && !gOwner d then 4 * gRows d else 0)

/-- Where L, R, Lr and Rr of a KRON group's blocks lie, in the order of a FACTORS chunk (R460, R492). -/
def factorsArea (d : List Byte) : Nat × Nat := (gState d + regionOff d 5, if gOwner d then 0 else (regionLens d).getD 5 0)

/-- The pieces of a run of bytes, by their lengths. -/
def pieces : List Nat → List Byte → List (List Byte)
  | [], _ => []
  | n :: ns, bs => bs.take n :: pieces ns (bs.drop n)

/-- The length that a chunk of a context image must have, by its type; none where the spec gives it no layout. -/
def State.chunkLen (s : State) (k : Nat) (p : ProgImage) (type : Nat) : Option Nat :=
  let sum := fun (xs : List Nat) => xs.foldl (· + ·) 0
  match type with
  | 3 => some (sum ((s.ltns k).map fun n => (p.tile n).saveLen))
  | 4 => some (1024 * 192)
  | 6 => some (sum (p.groups.map fun d => (masterArea d).2))
  | 7 => some (sum (p.groups.map fun d => (stateArea d).2))
  | 8 => some (sum (p.groups.map fun d => (rowWordArea d).2))
  | _ => none

/-- The byte offset of the first LENGTH of a directory that does not fit what its chunk holds (R460, R475, log 217). -/
def State.chunkLenBad (s : State) (k : Nat) (p : ProgImage) (b : List Byte) : Option Nat :=
  (List.range 11).findSome? fun type => match chunkAt b type with
    | none => none
    | some c =>
      if type = 10 then (if c.2.2 % 16 = 0 ∧ 64 ≤ c.2.2 then none else some (c.1 + 16))
      else match s.chunkLen k p type with
        | some n => if c.2.2 = n then none else some (c.1 + 16)
        | none => none

/-- The SLOTS records of a context image (R461). -/
def slotRecs (b : List Byte) : List (List Byte) :=
  let c := chunkBytes b 4
  pieces (List.replicate (c.length / 192) 192) c

/-- The byte offset in the image of the first byte that refuses a SLOTS record (R461). -/
def slotsBad (b : List Byte) : Option Nat :=
  (slotRecs b).zipIdx.findSome? fun e => (slotImageBad e.1).map fun o => ((chunkAt b 4).getD (0, 0, 0)).2.1 + 192 * e.2 + o

/-- The register image entries of a SETUP chunk: OFFSET, SELECT, VALUE, STAGED (R474), and its trailer (R475). -/
def setupEntriesOf (b : List Byte) : List (Nat × Nat × Word × Word) :=
  let c := chunkBytes b 10
  (List.range ((c.length - 64) / 16)).map fun i =>
    (fieldAt c (16 * i) 4, fieldAt c (16 * i + 4) 4, BitVec.ofNat 32 (fieldAt c (16 * i + 8) 4), BitVec.ofNat 32 (fieldAt c (16 * i + 12) 4))
def setupTrailer (b : List Byte) : List Byte := let c := chunkBytes b 10; c.drop (c.length - 64)

/-- FOLD of section k (R462). -/
def State.fold (s : State) (k : Nat) : List Byte :=
  shake256 ((s.clusters k).flatMap fun c => leBytes 1 c ++ (s.slotMap c).flatMap (leBytes 1))

/-- IMAGE_DIGEST of an image (R460). -/
def imageDigest (b : List Byte) : List Byte := shake256 (b.take 96 ++ fillBytes 32 0 ++ b.drop 128)

/-- The chips of the span in effect for a section: that of the program in execution, else that of the image (R463, log 47). -/
def State.spanInEffect (s : State) (k : Nat) (p : ProgImage) : Nat :=
  match (s.sectN k).program with
  | some q => spanChips q.span
  | none => spanChips p.span

/-- The first field of an image that differs from the device (R463): of a CONTEXT image the geometry, of every image the digest. -/
def State.geometryBad (s : State) (k : Nat) (p : ProgImage) (b : List Byte) : Option Nat :=
  let geometry : List (Nat × Bool) :=
    [(18, fieldAt b 18 2 == 64), (20, fieldAt b 20 2 == 48), (22, fieldAt b 22 2 == s.spanInEffect k p),
     (24, fieldAt b 24 4 == 32 * (s.clusters k).length), (32, fieldAt b 32 8 == s.sectMask k), (64, (b.drop 64).take 32 == s.fold k)]
  let checks : List (Nat × Bool) := (if imContext b then geometry else []) ++ [(96, (b.drop 96).take 32 == imageDigest b)]
  (checks.find? fun e => !e.2).map (·.1)

/-! ### Timetables and tables (R37, R48-R51, R234) -/

/-- Whether a timetable header keeps R48. -/
def headerOk (t : Timetable) : Bool :=
  let h := t.header
  decide (1 ≤ t.ssRecords) && decide (t.ssRecords ≤ 65535) && bitsOf (at_ h 2 2) 15 1 == 0 && at_ h 30 2 == 0 && allZero (h.drop 52)
  && bitsOf t.id 5 0 == 0 && t.carrySize % 64 == 0
  && (if t.segmented then decide (2 ≤ t.maxSeg) && decide (t.maxSeg ≤ 16) else t.maxSeg == 0 && t.ssHead == 0)

/-- Whether a cluster is an edge cluster (R250). -/
def edgeCluster (c : Nat) : Bool := (clusterPlace c).2 == 0 || (clusterPlace c).2 == 7

/-- The valid node entry of an index, in whatever office hosts it. -/
def ProgImage.nodeEntry (p : ProgImage) (n : Nat) : Option (List Byte) :=
  (p.nodes.find? fun e => e.index == n && ndValid e.bytes).map (·.bytes)

/-- Whether a send entry of a tile keeps R50, R234, R240 and R250. -/
def sendOk (p : ProgImage) (ltn : Nat) (e : List Byte) : Bool :=
  sendSrc e % 64 == 0 && sendLength e % 64 == 0 && decide (64 ≤ sendLength e) && decide (sendLength e ≤ 1048576)
  && decide (sendRoute e < 16384) && (sendNode e == 0xFFFF || decide (sendNode e < 4096)) && bitsOf (at_ e 18 2) 15 6 == 0
  && sendDst e % 64 == 0 && at_ e 24 8 == 0 && decide (sendVc e ≤ 4) && (sendVc e != 4 || edgeCluster (clusterOf ltn))
  && (if sendCircular e then sendRoute e == 0 && decide (sendDest e < 4096) else decide (sendDest e < 2048))
  && (sendNode e == 0xFFFF || (sendDest e == 0 && sendDst e == 0 && (match p.nodeEntry (sendNode e) with
      | some n => ndMode n == 3 || sendPartial e
      | none => true)))

/-- Whether OFFSETs rise strictly (R51). -/
def rising : List Nat → Bool
  | [] => true
  | [_] => true
  | a :: b :: rest => decide (a < b) && rising (b :: rest)

/-- Whether a tile's part of a timetable keeps R49-R51. -/
def tilePartOk (p : ProgImage) (t : TileTimetable) : Bool :=
  t.sends.all (sendOk p t.ltn)
  && t.records.all fun r => bitsOf (at_ r 12 2) 15 2 == 0 && at_ r 14 2 == 0 && decide (recSendFirst r + recSendCount r ≤ t.sends.length)
    && rising (((t.sends.drop (recSendFirst r)).take (recSendCount r)).map sendOffset)

/-- Whether a port N, S, E or W of an office leads to a cluster of the section. -/
def State.portOk (s : State) (k office port : Nat) : Bool :=
  match neighbour office port with
  | some c => s.inSect k c
  | none => false

/-- Whether an office ends a link behind LINK_A (0) or LINK_B (1) that the span table uses. -/
def linkPortOk (sp : List Byte) (office b : Nat) : Bool :=
  match officeLink office b with
  | some l => spanUsed sp l
  | none => false

/-- Whether a table entry of so many bytes has its home in a granule that the image declares for a tile of the office's cluster (R43, log 5). -/
def homeOk (p : ProgImage) (n : Nat) (o : OfficeEntry) : Bool :=
  o.bytes.length == n && o.off % n == 0 && clusterOf o.ltn == o.office && (p.tile o.ltn).granules.any fun g => g.1 == o.off / 65536

/-- Whether a route entry keeps R234. -/
def State.routeOk (s : State) (k : Nat) (p : ProgImage) (o : OfficeEntry) : Bool :=
  let e := fieldAt o.bytes 0 4
  let port := bitsOf e 3 0
  let vc := bitsOf e 6 4
  let rail := bitsOf e 9 8
  !bitOf e 7 && bitsOf e 31 10 == 0 && decide (port ≤ 9) &&
  (if port = 0 ∨ port = 8 ∨ port = 9 then vc == 0 && rail == 0
   else if port ≤ 4 then s.portOk k o.office port && decide (vc ≤ 3)
   else if port = 5 then rail == 0 && decide (vc ≤ 4) && (vc != 4 || edgeCluster o.office)
   else rail == 0 && decide (vc ≤ 4) && linkPortOk p.span o.office (port - 6))

/-- Whether a circular entry keeps R234 and R236. -/
def State.circOk (s : State) (k : Nat) (p : ProgImage) (o : OfficeEntry) : Bool :=
  let e := fieldAt o.bytes 0 8
  !bitOf e 6 && !bitOf e 7 && !bitOf e 11 && bitsOf e 31 20 == 0 && decide (bitsOf e 10 8 ≤ 4)
  && (bitsOf e 5 0 != 0 || bitsOf e 10 8 == 0)
  && (bitsOf e 10 8 != 4 || (bitsOf e 3 0 == 0 && edgeCluster o.office))
  && [1, 2, 3, 4].all (fun port => !bitOf e (port - 1) || s.portOk k o.office port)
  && [0, 1].all (fun b => !bitOf e (4 + b) || linkPortOk p.span o.office b)
  && [0, 1, 2, 3].all (fun d => bitOf e d || bitsOf e (13 + 2 * d) (12 + 2 * d) == 0)

/-- Whether a node entry keeps R6, R234, R238 and R250: a result enters its first hop on VC0-3, since a node's output is neither a crossbar nor a link port, and one that leaves on plane U uses no channel of plane X. An entry that is not VALID describes no node, and only its reserved bits and channel are checked. -/
def nodeOk (o : OfficeEntry) : Bool :=
  let e := o.bytes
  let n := ndElements e
  bitsOf (fieldAt e 6 2) 15 8 == 0 && decide (ndOutVc e ≤ 3) &&
  (!ndValid e ||
  (decide (ndOutRoute e < 16384) && decide (1 ≤ n)
   && (match ndMode e with
       | 2 => decide (n ≤ 32768)
       | 3 => decide (n ≤ 262144)
       | _ => decide (n ≤ 209715))
   && (!ndCirc e || ndOutRoute e == 0)
   && (if ndOutU e then
         ndOutVc e == 0 && n == 2304 && decide (ndMode e ≤ 1) && ndOutNode e == 0xFFFF && !ndCirc e && ndOutRoute e == 0 && ndOutDest e == 0 && bitsOf (ndOutDst e) 31 30 == 0
       else if ndOutNode e = 0xFFFF then ndOutDst e % 64 == 0 && (if ndCirc e then decide (ndOutDest e < 4096) else decide (ndOutDest e < 2048))
       else decide (ndOutNode e < 4096) && !ndCirc e && ndOutDest e == 0 && ndOutDst e == 0)))

/-! ### What one exchange phase delivers (R232, R243) -/

/-- Where messages of a phase go: tiles with DST and length, and nodes by office and index. -/
structure Landing where
  tiles : List (Nat × Nat × Nat) := []
  nodes : List (Nat × Nat) := []
  deriving DecidableEq, Repr

/-- The landings of a list of messages. -/
def Landing.all (ls : List Landing) : Landing := { tiles := ls.flatMap (·.tiles), nodes := (ls.flatMap (·.nodes)).eraseDups }

/-- Where a message from an office goes within the chip: circular or routed, its destination, node, DST and length. -/
def ProgImage.lands (p : ProgImage) (office : Nat) (circ : Bool) (route dest node dst len : Nat) : Landing :=
  if circ then
    match circOffices p.circulars dest 64 [] office with
    | some cs => { tiles := cs.flatMap fun c =>
        ((List.range 32).filter fun t => bitOf (fieldAt (tableEntry p.circulars c dest) 0 8) (32 + t)).map fun t => (32 * c + t, dst, len) }
    | none => {}
  else match routeEnd p.routes route 65 office with
    | .eject c => if clusterOf dest = c then { tiles := [(dest, dst, len)] } else {}
    | .node c _ => { nodes := [(c, node)] }
    | _ => {}

/-- Where the result of a node goes. -/
def ProgImage.nodeLands (p : ProgImage) (n : Nat × Nat) : Landing :=
  let e := tableEntry p.nodes n.1 n.2
  if !ndValid e || ndOutU e then {}
  else p.lands n.1 (ndCirc e) (ndOutRoute e) (ndOutDest e) (ndOutNode e) (ndOutDst e) (ndPadded e)

/-- The nodes that results reach from some nodes on, these among them; fuel bounds the depth of the trees. -/
def ProgImage.activeNodes (p : ProgImage) : Nat → List (Nat × Nat) → List (Nat × Nat)
  | 0, ns => ns
  | f + 1, ns =>
    match (Landing.all (ns.map p.nodeLands)).nodes with
    | [] => ns
    | m :: ms => ns ++ ProgImage.activeNodes p f (m :: ms)

/-- Whether no two ranges of a tile among the landings overlap. -/
def apart : List (Nat × Nat × Nat) → Bool
  | [] => true
  | e :: es => (es.all fun f => e.1 != f.1 || !overlaps e.2.1 e.2.2 f.2.1 f.2.2) && apart es

/-- Whether a phase keeps R232 and R243: what lands in a tile overlaps neither itself nor what the tile sends, and no office has more than eight active nodes. Messages from other chips are Cerfold's to compile apart (log 167). -/
def ProgImage.phaseOk (p : ProgImage) (t : Timetable) (k : Nat) : Bool :=
  let sends := t.tiles.flatMap fun x =>
    let r := x.record k
    ((x.sends.drop (recSendFirst r)).take (recSendCount r)).map fun e => (x.ltn, e)
  let out := Landing.all (sends.map fun e =>
    p.lands (clusterOf e.1) (sendCircular e.2) (sendRoute e.2) (sendDest e.2) (sendNode e.2) (sendDst e.2) (sendLength e.2))
  let nodes := (p.activeNodes p.nodes.length out.nodes).eraseDups
  let tiles := out.tiles ++ (Landing.all (nodes.map p.nodeLands)).tiles
  apart tiles
  && sends.all (fun e => tiles.all fun f => e.1 != f.1 || !overlaps (sendSrc e.2) (sendLength e.2) f.2.1 f.2.2)
  && nodes.all fun n => decide ((nodes.filter fun m => m.1 == n.1).length ≤ 8)

/-- Whether every phase of a timetable keeps R232 and R243. -/
def ProgImage.phasesOk (p : ProgImage) (t : Timetable) : Bool :=
  (List.range ((t.tiles.map fun x => x.records.length).foldl max 0)).all (p.phaseOk t)

/-- Whether a span table keeps R377; a program that declares none runs on one chip. -/
def spanOk (sp : List Byte) : Bool :=
  let n := fieldAt sp 2 2
  let list := (List.range n).map fun i => fieldAt sp (144 + 2 * i) 2
  sp.isEmpty ||
  (decide (1 ≤ n) && decide (n ≤ 256) && sp.length == 144 + 2 * n && list.contains (fieldAt sp 0 2) && rising list && !list.contains 0xFFFF
   && (decide (spanParent sp < 32) || spanParent sp == 0xFF) && fieldAt sp 5 3 == 0 && fieldAt sp 12 4 == 0
   && (List.range 32).all fun l =>
     let o := 16 + 4 * l
     bitsOf (fieldAt sp (o + 2) 1) 7 5 == 0 && bitsOf (fieldAt sp (o + 3) 1) 7 1 == 0 && !(spanUsed sp l && spanPeerChip sp l == 0xFFFF))

/-- Whether the timetables and tables of a program keep R37, R48-R51, R232, R234, R243 and R377. -/
def State.tablesOk (s : State) (k : Nat) (p : ProgImage) : Bool :=
  p.timetables.all (fun t => headerOk t && t.tiles.all (fun x => (s.ltns k).contains x.ltn && tilePartOk p x) && p.phasesOk t)
  && p.tiles.all (fun t => (s.ltns k).contains t.ltn)
  && p.routes.all (fun o => s.inSect k o.office && homeOk p 4 o && s.routeOk k p o)
  && p.circulars.all (fun o => s.inSect k o.office && homeOk p 8 o && s.circOk k p o)
  && p.nodes.all (fun o => s.inSect k o.office && homeOk p 16 o && nodeOk o)
  && spanOk p.span
  && (List.range 32).all (fun l => !spanUsed p.span l || s.inSect k (linkCluster l))

/-! ### Groups, slots, entries, windows -/

/-- Whether the INITIAL flags of a group stand on exactly one slot (R290). -/
def initialOk (p : ProgImage) (g : Nat) : Bool :=
  let rs := (p.tiles.flatMap (·.ranges)).filter fun r => r.group == g
  let one := fun b : Bool => (rs.any fun r => r.slotB == b && r.initial) && rs.all fun r => r.initial == (r.slotB == b)
  one false || one true

/-- Whether the parameter groups of a program keep R269 and R290. -/
def State.groupsOk (s : State) (p : ProgImage) : Bool :=
  let fixed := fun i => p.slots.any fun d => d.slot == i && cfgMode d.cfg == 2
  p.groups.all (fun d => s.groupOk fixed (!p.masks.isEmpty) d && initialOk p (gNum d))
  && (p.groups.map gNum).Nodup && (p.groups.all fun d => gVersion d == gVersion (p.groups.headD []))
  && p.tiles.all (fun t => decide (t.ranges.length ≤ 256))

/-- The byte offset of an entry address that lies outside the code region of a tile or is not a multiple of 4 (R72). -/
def entryBad (p : ProgImage) : Option Nat :=
  (p.entries.find? fun e => e.1 % 4 != 0 || p.tiles.any fun t => !(decide (t.codeBase ≤ e.1) && decide (e.1 < t.codeLimit))).map (·.2)

/-- Whether declared slots and windows are legal (R165, R380). -/
def declsOk (p : ProgImage) : Bool :=
  p.slots.all (fun d => cfgOk d.cfg && !bitOf d.cfg 15 && fixedOk d.fixed && decide (d.slot < 1024))
  && decide (p.windows.length ≤ 256) && p.windows.all (fun w => wdBase w % 64 == 0 && wdLength w % 64 == 0
      && (if bitOf (wdTarget w) 15 then bitsOf (wdTarget w) 14 12 == 0 else bitsOf (wdTarget w) 14 11 == 0))

/-- Why a LOAD of an image into section k is refused, none when it is accepted: format, geometry, entries, timetables, groups. -/
def State.loadRefused (s : State) (k : Nat) (d : List Byte) (img : ImageData) : Option Refused :=
  let b := img.bytes
  if fieldAt d 24 8 < imLength b ∨ b.length < imLength b then some (csRefused, 8)
  else match headerBad b with
    | some o => some (csRefused, o)
    | none => match s.geometryBad k img.prog b with
      | some o => some (csRefused, o)
      | none =>
        let ctxBad := if imContext b then (s.chunkLenBad k img.prog b).orElse (fun _ => slotsBad b) else none
        match ctxBad.orElse (fun _ => entryBad img.prog) with
        | some o => some (csRefused, o)
        | none =>
          if !declsOk img.prog then some (csRefused, 0)
          else if !s.tablesOk k img.prog then some (csTimetable, 0)
          else if !s.groupsOk img.prog then some (csGroup, 0)
          else none

/-! ### What a LOAD sets -/

/-- Fills a granule with zeros (R210), a write from outside the tile's commands; a granule lies within one bank. -/
def State.zeroGranule (s : State) (ltn g : Nat) : State :=
  let o := 65536 * g
  let t := s.tileN ltn
  if s.fencedLtn ltn then s.fencedLetter true ltn o 65536
  else match t.ts.rowFate (1024 * g) with
    | .on => s.setTileN ltn { t with ts := t.ts.zero o 65536 }
    | .held => s.judgeRows ltn { off := o, data := fillBytes 65536 0, source := 1, origin := ltn, rows := wordsOf o 65536 64 } []
    | .asleep => (s.faultTile ltn fDeadWrite o).deadLetter 4 1 true o ltn 65536
    | .reserved => s.deadLetter 2 1 true o ltn 65536

/-- Code and owner of a granule. -/
def TileStore.declare (m : TileStore) (slot g : Nat) (wcode : Bool) : TileStore :=
  { m with granules := Sparse.set {} m.granules g { wcode := wcode, owner := some slot } }

/-- A granule that an image declares; one whose code changes is filled with zeros first (R210). -/
def State.declareGranule (s : State) (ltn slot g : Nat) (wcode : Bool) : State :=
  let s := if ((Sparse.get {} (s.tileN ltn).ts.granules g).wcode == wcode) then s else s.zeroGranule ltn g
  s.setTileN ltn { s.tileN ltn with ts := (s.tileN ltn).ts.declare slot g wcode }

/-- A version range as a LOAD sets it (R290). -/
def loadedRange (slot version : Nat) (r : RangeDecl) : VRange :=
  { prog := slot, group := r.group, slotB := r.slotB, off := r.off, len := r.len, st := if r.initial then .current else .old
    stamp := if r.initial then version else 0, before := 0, rows := [] }

/-- Every table entry of an image. -/
def ProgImage.officeEntries (p : ProgImage) : List OfficeEntry := p.routes ++ p.circulars ++ p.nodes

/-- The parts of the timetables that an image places in a tile. -/
def ProgImage.tileTables (p : ProgImage) (ltn : Nat) : List (Timetable × TileTimetable) :=
  p.timetables.flatMap fun tt => (tt.tiles.filter fun x => x.ltn == ltn).map fun x => (tt, x)

/-- What the tile store of a tile takes from an image (R42, R43, R48, R49): the declared bytes, the load set, the table entries whose home is there, and of each timetable the header with its PROG replaced, the superstep records and the tile's send entries. -/
def ProgImage.storeParts (p : ProgImage) (t : ImageTile) : List (Nat × List Byte) :=
  t.tileStore ++ (if t.loadSet.isEmpty then [] else [(t.loadHome, t.loadSet.flatMap (·.2))])
  ++ ((p.officeEntries.filter fun e => e.ltn == t.ltn).map fun e => (e.off, e.bytes))
  ++ (p.tileTables t.ltn).flatMap fun x => [(x.2.headerOff, x.1.header), (x.1.ssOffset, x.2.records.flatten), (x.2.sendsOff, x.2.sends.flatten)]

/-- What an image sets in one tile. -/
def State.loadTile (s : State) (slot version : Nat) (p : ProgImage) (t : ImageTile) : State :=
  let s := t.granules.foldl (fun (s : State) g => s.declareGranule t.ltn slot g.1 g.2) s
  let x := s.tileN t.ltn
  let s := s.setTileN t.ltn { x with ranges := x.ranges ++ t.ranges.map (loadedRange slot version) }
  (p.storeParts t).foldl (fun (s : State) e => s.loadWrite t.ltn (t.granules.map (·.1)) e.1 e.2) s

/-- The registers of a group, written directly (R268). -/
def RegFile.loadGroup (f : RegFile) (k : Nat) (d : List Byte) : RegFile :=
  let sel := grpSel k (gNum d)
  let f := (f.put (regKey oGrpCtl sel) (BitVec.ofNat 32 (gCtl d))).put (regKey oGrpKron sel) (BitVec.ofNat 32 (gKron d))
  (List.range 8).foldl (fun f i => f.put (regKey (oGrpHp i) sel) (BitVec.ofNat 32 (gHp d i))) f

/-- A declared slot: configuration in effect, fresh state (R151). -/
def State.loadSlot (s : State) (k : Nat) (d : SlotDecl) : State :=
  let f := (s.regs.put (regKey (oSect k + sSlotCfg) d.slot) (BitVec.ofNat 32 d.cfg)).put (regKey (oSect k + sSlotFixed) d.slot) d.fixed
  let s := s.mapTiles k fun _ t => if t.acc.isEmpty then t else { t with acc := t.acc.filter fun e => e.1 != d.slot }
  ({ s with regs := f } : State).setSectN k ((s.sectN k).setSlot d.slot (Slot.fresh d.cfg d.fixed))

/-- The slot's number as PROG of a timetable ID (R42). -/
def Timetable.inSlot (t : Timetable) (slot : Nat) : Timetable :=
  { t with header := leBytes 2 (t.id % 1024 + 1024 * slot) ++ t.header.drop 2 }

/-- The descriptor of a group in a resident program other than that of a slot: the lowest such slot. -/
def Section.otherDecl (x : Section) (slot g : Nat) : Option (Nat × List Byte) :=
  (x.programs.filter fun e => e.1 != slot).findSome? fun e => match e.2 with
    | some p => (p.groups.find? fun d => gNum d == g).map fun d => (e.1, d)
    | none => none

/-- Removes what the program that held a slot declared; a group that another resident program declares too goes on under it (R268, R307, log 169). -/
def State.unload (s : State) (k slot : Nat) : State :=
  let s := s.mapTiles k fun _ t => if t.ranges.isEmpty then t else { t with ranges := t.ranges.filter fun r => r.prog != slot }
  let x := s.sectN k
  s.setSectN k { x with
    groups := x.groups.filterMap fun e => match e.2 with
      | some v =>
        if v.prog ≠ slot then some e
        else (x.otherDecl slot e.1).map fun o => (e.1, some { v with prog := o.1, desc := o.2 })
      | none => some e
    saved := x.saved.filter (· != slot) }

/-- The declared part of an image takes its program slot (R42, R151, R268, R275, R290, R292). -/
def State.loadProgram (s : State) (k slot : Nat) (p : ProgImage) : State :=
  let p := { p with timetables := p.timetables.map fun (t : Timetable) => t.inSlot slot }
  let version := gVersion (p.groups.headD [])
  let s := s.unload k slot
  let s := p.tiles.foldl (fun (s : State) t => s.loadTile slot version p t) s
  let s := p.slots.foldl (fun (s : State) d => s.loadSlot k d) s
  let s := p.groups.foldl (fun (s : State) d =>
    let s := if gRowWords d && !gOwner d then s.hbmZero (gRowWord d) (4 * gRows d) else s
    ({ s with regs := s.regs.loadGroup k d } : State).putGroup k (gNum d) { prog := slot, desc := d }) s
  let x := s.sectN k
  let s := s.setSectN k { x with
    programs := Sparse.set none x.programs slot (some p), fresh := true, discarded := false
    postmark := if p.groups.isEmpty then x.postmark else version
    loaded := some (if p.groups.isEmpty then x.postmark else version) }
  s.versionTables k slot p

/-! ### Restores (R464, R475) -/

/-- Writes the areas of a program's groups that a chunk holds one after another. -/
def State.restoreAreas (s : State) (areas : List (Nat × Nat)) (bs : List Byte) : State :=
  if bs.isEmpty then s
  else (areas.zip (pieces (areas.map (·.2)) bs)).foldl (fun (s : State) e => if e.1.2 = 0 then s else s.hbmWrite e.1.1 e.2) s

/-- The registers, counters, stamps and factors of one group from a context image. -/
def State.restoreGroup (s : State) (k slot : Nat) (b : List Byte) (c : CtxGroup) : State :=
  match (s.sectN k).group c.group with
  | none => s
  | some v =>
    let sel := grpSel k c.group
    let f := (s.regs.put (regKey oGrpCtl sel) c.ctl).put (regKey oGrpKron sel) c.kron
    let f := (c.hp.zipIdx).foldl (fun f e => f.put (regKey (oGrpHp e.2) sel) e.1) f
    let s : State := { s with regs := f }
    let fs := factorsArea v.desc
    let s := match c.factorsOff with
      | some o => if fs.2 = 0 then s else s.hbmWrite fs.1 ((b.drop o).take fs.2)
      | none => s
    let s := s.putGroup k c.group { v with steps := c.steps, fsteps := c.fsteps, valid := c.factorsValid }
    s.mapTiles k fun _ t => { t with ranges := t.ranges.map fun r =>
      if r.prog = slot ∧ r.group = c.group then { r with stamp := if r.slotB then c.stampB else c.stampA } else r }

/-- The step state of a slot, its copies in the tiles gathered in the section's lowest tile: what stands in which copy nothing tells (R152, R461, log 218). -/
def State.putStepAcc (s : State) (k i : Nat) (a : StepAcc) : State :=
  let s := s.mapTiles k fun _ t => if t.acc.any (fun e => e.1 == i) then { t with acc := t.acc.filter fun e => e.1 != i } else t
  match s.ltns k with
  | [] => s
  | n :: _ => if a = {} then s else s.setTileN n { s.tileN n with acc := Sparse.set {} (s.tileN n).acc i a }

/-- One slot from a SLOTS record, every item from its field; staged values stay staged (R461). -/
def State.restoreSlot (s : State) (k i : Nat) (b : List Byte) : State :=
  let kc := regKey (oSect k + sSlotCfg) i
  let kf := regKey (oSect k + sSlotFixed) i
  let f := (s.regs.put kc (BitVec.ofNat 32 (fieldAt b 0 2))).put kf (BitVec.ofNat 32 (fieldAt b 8 4))
  let f := if bitOf (fieldAt b 3 1) 1 then f.stage kc (BitVec.ofNat 32 (fieldAt b 174 2)) else f
  let f := if bitOf (fieldAt b 3 1) 2 then f.stage kf (BitVec.ofNat 32 (fieldAt b 176 4)) else f
  (({ s with regs := f } : State).setSectN k ((s.sectN k).setSlot i (slotOfImage b))).putStepAcc k i (stepOfImage b)

/-- The entries of a SETUP chunk that belong to the section's own scope (R475). -/
def RegFile.restoreSetup (f : RegFile) (k : Nat) (es : List (Nat × Nat × Word × Word)) : RegFile :=
  es.foldl (fun f e =>
    let key := regKey e.1 e.2.1
    if inScope (.sect k) key then
      let f := f.put key e.2.2.1
      if e.2.2.1 = e.2.2.2 then f else f.stage key e.2.2.2
    else f) f

/-- The granules of one tile from a context image: map and contents, then the PROG of the slot in each timetable header, which the contents hold as they were saved (R42). -/
def State.restoreTile (s : State) (slot : Nat) (p : ProgImage) (b : List Byte) (c : CtxTile) : State :=
  let gs := c.granules.map (·.1)
  let s := c.granules.foldl (fun (s : State) g => s.declareGranule c.ltn slot g.1 g.2) s
  let s := (gs.zipIdx).foldl (fun (s : State) e => s.loadWrite c.ltn gs (65536 * e.1) ((b.drop (c.dataOff + 65536 * e.2)).take 65536)) s
  (p.tileTables c.ltn).foldl (fun (s : State) x => s.loadWrite c.ltn gs x.2.headerOff (leBytes 2 (x.1.inSlot slot).id)) s

/-- The save sets of a context image go to their homes (R42, R460). -/
def State.restoreSaves (s : State) (k : Nat) (p : ProgImage) (bs : List Byte) : State :=
  if bs.isEmpty then s
  else
    let ns := s.ltns k
    (ns.zip (pieces (ns.map fun n => (p.tile n).saveLen) bs)).foldl (fun (s : State) e =>
      let t := p.tile e.1
      if t.saveLen = 0 then s else s.loadWrite e.1 (t.granules.map (·.1)) t.saveHome e.2) s

/-- A raw restore that is accepted (R464): every chunk, in ascending type. -/
def State.restore (s : State) (k slot : Nat) (img : ImageData) : State :=
  let b := img.bytes
  let p := img.prog
  let pm := fieldAt b 28 4
  let trailer := setupTrailer b
  let s := img.ctx.tiles.foldl (fun (s : State) t => s.restoreTile slot p b t) s
  let s := s.restoreSaves k p (chunkBytes b 3)
  let s := ((slotRecs b).zipIdx).foldl (fun (s : State) e => s.restoreSlot k e.2 e.1) s
  let s := s.restoreAreas (p.groups.map masterArea) (chunkBytes b 6)
  let s := s.restoreAreas (p.groups.map stateArea) (chunkBytes b 7)
  let s := s.restoreAreas (p.groups.map rowWordArea) (chunkBytes b 8)
  let s := img.ctx.groups.foldl (fun (s : State) g => s.restoreGroup k slot b g) s
  let s := s.mapTiles k fun _ t => { t with ranges := t.ranges.map fun r =>
    if r.prog = slot then { r with st := if r.stamp = pm then .current else .old, before := 0, rows := [] } else r }
  let s : State := { s with regs := s.regs.restoreSetup k (setupEntriesOf b) }
  let x := s.sectN k
  let x := { x with postmark := pm, fresh := true, loaded := some pm, saved := slot :: x.saved }
  let s := s.setSectN k (if trailer.isEmpty then x else { x with head := fieldAt trailer 0 8, row := fieldAt trailer 8 4, rowStart := fieldAt trailer 8 4 })
  s.versionTables k slot p

/-- An accepted LOAD (R42, R464). -/
def State.loadImage (s : State) (k slot : Nat) (img : ImageData) : State :=
  let s := s.loadProgram k slot img.prog
  if imContext img.bytes then s.restore k slot img else s

/-! ### Entry of a sequence (R73, R79) -/

/-- The sequence of the accepted segment begins in every tile (R73). -/
def State.enterRun (s : State) (k : Nat) (r : StepRun) : State :=
  let x := s.sectN k
  let p := (x.program).getD {}
  let ss := match p.timetable r.tt with
    | some t => t.ssCount r.code r.segCount
    | none => 0
  let entry := ((p.entries[r.code + 1]?).map (·.1)).getD 0
  let s := s.enterTiles k entry (segWord r) r.tt (stPostmark r.desc) ss r.values
  s.setSectN k { s.sectN k with run := some { r with began := true, seqSs := 0 } }

/-! ### Switching (R43) -/

/-- Step 1: the save set of a tile goes to its home through D-L (R42, R201, R213). -/
def State.saveTile (s : State) (t : ImageTile) : State :=
  let bytes := t.saveSet.flatMap fun e => s.padBytes t.ltn e.1 e.2
  (t.saveSet.foldl (fun (s : State) e => s.padTouch t.ltn e.1 e.2) s).outsideWrite t.ltn t.saveHome bytes 1 t.ltn none

/-- A port class of an image: 0 M, 1 V, 2 D. -/
def classOf (c : Nat) : PortClass := if c = 1 then .v else if c = 2 then .d else .m

/-- Writes the pieces of a set, whose bytes follow one another, into a scratchpad. -/
def Scratchpad.writeSet : Scratchpad → List (Nat × Nat) → List Byte → Scratchpad
  | m, [], _ => m
  | m, e :: es, bs => Scratchpad.writeSet (m.write e.1 (bs.take e.2)) es (bs.drop e.2)

/-- Step 2 in one tile: classes and modes, valid flags cleared, then through D-L the load set from where the LOAD put it and the save set of a program switched out before (R194, R203, R209, R216). -/
def State.loadSets (s : State) (t : ImageTile) (saved : Bool) : State :=
  if s.fencedLtn t.ltn then s
  else
    let pieces := t.loadSet.map fun e => (e.1, e.2.length)
    let size := fun (ps : List (Nat × Nat)) => (ps.map (·.2)).foldl (· + ·) 0
    let set := s.storeBytes t.ltn t.loadHome (size pieces)
    let back := if saved then s.storeBytes t.ltn t.saveHome (size t.saveSet) else []
    let s := if pieces.isEmpty then s else s.storeTouch t.ltn t.loadHome (size pieces) 1 t.ltn
    let s := if saved && !t.saveSet.isEmpty then s.storeTouch t.ltn t.saveHome (size t.saveSet) 1 t.ltn else s
    let x := s.tileN t.ltn
    let sp := { x.sp.clear with
      cls := Vector.ofFn fun (i : Fin 16) => classOf (t.bankClass.getD i.val 0)
      wmode := Vector.ofFn fun (i : Fin 16) => t.bankW.getD i.val false }
    let sp := sp.writeSet pieces set
    s.setTileN t.ltn { x with sp := if saved then sp.writeSet t.saveSet back else sp }

/-- Step 2 of a switch in the sorting offices: each cluster's route, circular and node tables come from its tile stores, read in whole rows as every tile-store read is (R43, R205, R209, R214, R233). -/
def State.loadOffices (s : State) (k : Nat) (p : ProgImage) : State :=
  let get := fun (e : OfficeEntry) => { e with bytes := s.storeBytes e.ltn e.off e.bytes.length }
  let t := ((p.officeEntries.map fun e => (e.ltn, e.off / 64)).eraseDups).foldl (fun (u : State) e => u.storeTouch e.1 (64 * e.2) 64 1 e.1) s
  (t.setSectN k { t.sectN k with offices := { routes := p.routes.map get, circulars := p.circulars.map get, nodes := p.nodes.map get } }).clearNodes k

/-- The switch to a program slot up to its section barrier: save sets, load sets and tables; the tiles then stand at the barrier of step 3 (R43). No bank is in transition here, since a TPWR has completed before the closing SYNC (R31, R213). -/
def State.switchTo (s : State) (k slot : Nat) : State :=
  let x := s.sectN k
  let s := match x.program with
    | some p => p.tiles.foldl (fun (s : State) t => s.saveTile t) s
    | none => s
  let saved := if x.progValid && !x.saved.contains x.prog then x.prog :: x.saved else x.saved
  let p := (Sparse.get none x.programs slot).getD {}
  let s := ((s.ltns k).foldl (fun (s : State) n => s.loadSets (p.tile n) (saved.contains slot)) s).loadOffices k p
  s.setSectN k { (s.sectN k).adopt slot p.groups with
    phase := .switching, atSwitch := true, prog := slot, progValid := true, saved := saved, bseq := 0, exchange := none }

end Sys2Proof.Machine
end

