-- ==== Sys2Proof/Machine/Store.lean ====
section
/-! DEFINITION. Store.lean: the counter store: copies, values, write sequences (R407, R408). -/

namespace Sys2Proof.Machine

/-- A copy is valid when its CRC is correct (R407). -/
def CsCopy.valid (c : CsCopy) : Bool := BitVec.ofNat 32 c.crc == crc32 (leBytes 8 c.value ++ leBytes 4 c.gen)

/-- A copy with its CRC. -/
def csCopy (value gen : Nat) : CsCopy :=
  { value := value, gen := gen, crc := (crc32 (leBytes 8 value ++ leBytes 4 gen)).toNat }

/-- Copy c of item i. -/
def storeCopy (v : Vector CsCopy 36) (i c : Nat) : CsCopy := v.toList.getD (2 * i + c) { value := 0, gen := 0, crc := 0 }

/-- The copy that holds an item's current value: the valid copy with the higher GEN, copy 0 where both have the same (R407). -/
def currentCopy (v : Vector CsCopy 36) (i : Nat) : Option Nat :=
  match (storeCopy v i 0).valid, (storeCopy v i 1).valid with
  | true, true => some (if (storeCopy v i 0).gen < (storeCopy v i 1).gen then 1 else 0)
  | true, false => some 0
  | false, true => some 1
  | false, false => none

/-- VALUE of an item, 0 where neither copy is valid. -/
def itemValue (v : Vector CsCopy 36) (i : Nat) : Nat :=
  match currentCopy v i with
  | some c => (storeCopy v i c).value
  | none => 0

/-- The target of a write sequence: an invalid copy if there is one, else the copy with the lower GEN, copy 1 where both have the same (R408). -/
def targetCopy (v : Vector CsCopy 36) (i : Nat) : Nat :=
  match currentCopy v i with
  | some 0 => 1
  | _ => 0

/-- GEN of an item. -/
def itemGen (v : Vector CsCopy 36) (i : Nat) : Nat :=
  match currentCopy v i with
  | some c => (storeCopy v i c).gen
  | none => 0

/-- Steps 2 and 3 of a write sequence (R408); GEN wraps modulo 2^32. -/
def writeItem (v : Vector CsCopy 36) (i value : Nat) : Vector CsCopy 36 :=
  v.setIfInBounds (2 * i + targetCopy v i) (csCopy value ((itemGen v i + 1) % 2 ^ 32))

/-- V_HU of the hold-up check: 3.0 V (R408). -/
def holdupMv : Nat := 3000

/-- V_HU is measured (R408, R415). -/
def State.measureVhu (s : State) (mv : Nat) : State := { s with boot := { s.boot with vhu := mv, vhuMeasured := true } }

/-- One write sequence: V_HU is measured; answers whether the item was written (R408). -/
def State.writeSequence (s : State) (i value mv : Nat) : State × Bool :=
  let s := s.measureVhu mv
  if mv < holdupMv then (s, false) else ({ s with store := writeItem s.store i value }, true)

/-- MINVER of a counter (R407). -/
def State.minver (s : State) (c : Nat) : Nat := itemValue s.store (2 + c) % 2 ^ 32

/-- The write sequences of a commit, one for each counter, until one finds HOLDUP_LOW; answers the mask of raised counters and whether all ran (R410). -/
def State.runCommit (s : State) : List (Nat × Nat) → List Nat → Nat → State × Nat × Bool
  | [], _, mask => (s, mask, true)
  | (c, v) :: rest, mvs, mask =>
    let t := s.writeSequence (2 + c) v (mvs.headD s.boot.vhu)
    if t.2 then State.runCommit t.1 rest mvs.tail (mask + 2 ^ c) else (t.1, mask, false)

/-- The counter store that a reset or the loss of power leaves: of a commit in progress the sequences that have run or are running complete, and no further one starts (R408, R431, R435, log 182). -/
def State.cutStore (s : State) : Vector CsCopy 36 :=
  match s.boot.commit with
  | some (cs, _) => (s.runCommit (cs.take (Config.sequencesRun cs)) [] 0).1.store
  | none => s.store

end Sys2Proof.Machine
end

