-- ==== Sys2Proof/Machine/Peek.lean ====
section
/-! DEFINITION. Peek.lean: what a read of a setup register returns (R11, R222, R252, R307, R333, R339, R347, R390, R393, R412-R415, R427, R466-R475). -/

namespace Sys2Proof.Machine

/-- Whether the device is READY (R393). -/
def State.ready (s : State) : Bool := s.boot.phase == .ready

/-- The selector value that an access to a register uses. -/
def State.selOf (s : State) (r : RegSpec) : Nat :=
  match r.sel with
  | .none => 0
  | .slot k => s.reg (oSect k + sSlotSel)
  | .group => s.reg oGrpSel
  | .smap => s.reg oSmapSel

/-! ### Counters -/

/-- Where the count that an RC register returns is held: a key of the counters, or counter i of a tile. -/
inductive CounterAt where
  | key (k : Nat)
  | tile (ltn : Nat) (i : Nat)
  deriving DecidableEq, Repr

/-- The count that an RC register returns. -/
def State.counterAt (s : State) (off : Nat) : CounterAt :=
  if oIngestCnt 0 ≤ off ∧ off ≤ oIngestCnt 4 then .key (regKey off (s.reg oIngestSel))
  else if oGrpCnt 0 ≤ off ∧ off ≤ oGrpCnt 3 then .key (regKey off (s.reg oGrpSel))
  else if oMemCnt 0 ≤ off ∧ off ≤ oMemCnt 5 then .tile (s.reg oMemSel) ((off - oMemCnt 0) / 4)
  else if oNetCnt 0 ≤ off ∧ off ≤ oNetCnt 4 then .key (regKey off (s.reg oNetSel))
  else .key (regKey off 0)

/-- Its value. -/
def State.counter (s : State) (c : CounterAt) : Nat :=
  match c with
  | .key k => (Sparse.get 0 s.regs.counters k).toNat
  | .tile n i => ((s.tileN n).memCnt.toList.getD i 0).toNat

/-- The read clears it (R11). -/
def State.clearCounter (s : State) (c : CounterAt) : State :=
  match c with
  | .key k => { s with regs := { s.regs with counters := Sparse.set 0 s.regs.counters k 0 } }
  | .tile n i => s.setTileN n { s.tileN n with memCnt := (s.tileN n).memCnt.setIfInBounds i 0 }

/-! ### RO fields -/

/-- RO fields of GLB, BOOT, CLK and PWR. -/
def State.roLow (s : State) (off : Nat) : Nat :=
  let b := s.boot
  let p := s.phys
  if off = oGlbStatus then boolNat s.ready + 2 * boolNat s.repair.failed + 4 * boolNat b.dbgOpen
  else if off = oGlbSeal then 2 * boolNat (s.glbPend || s.glbNext)
  else if off = oTstampLo then s.tstamp % 2 ^ 32
  else if off = oBootStatus then
    b.phase.code + 8 * boolNat (b.vhuMeasured && decide (b.vhu < holdupMv)) + (if b.phase = .failed then 16 * b.err + 4096 * b.item else 0)
  else if off = oBootCmd then 2 * boolNat b.commit.isSome
  else if off = oEpochLo then b.epoch % 2 ^ 32
  else if off = oLeaf then itemValue s.store 0
  else if off = oMinver then s.minver (s.reg oMinverSel)
  else if off = oVhu then min b.vhu 4095
  else if off = oClkStatus then
    boolNat p.boscReady + 2 * boolNat p.refclk + 4 * boolNat (p.loops.toList.all (·.ready)) + 32 * boolNat (p.loops.toList.any fun l => l.source == .bosc)
  else if off = oPwrStatus then p.opW + 4 * p.opE + 16 * boolNat p.thermtrip + 32 * boolNat p.avsOk
  else if off = oGlbId then 0x00010D01
  else 0

/-- RO fields of the SECT registers of section k. -/
def State.roSect (s : State) (k o : Nat) : Nat :=
  let x := s.sectN k
  let i := s.reg (oSect k + sSlotSel)
  if o = sState then x.phase.code + 8 * x.prog + 512 * boolNat x.progValid
  else if o = sSeal then 2 * boolNat (s.sealPending k)
  else if o = sPostmark then x.postmark
  else if o = sSlotState then (x.slot i).count + 64 * boolNat (x.slot i).held + 128 * boolNat (x.slot i).clamped
  else if o = sSlotScale then (x.slot i).scale.toNat
  else 0

/-- Lanes as the WIDTH code of XLINK_STATUS (R390). -/
def widthCode (lanes : Nat) : Nat :=
  match ((List.range 4).filter (bitOf lanes)).length with
  | 0 => 0
  | 1 => 1
  | 2 => 2
  | _ => 3

/-- RO and link fields of the XLINK registers of link l. -/
def State.roLink (s : State) (l o : Nat) : Nat :=
  let x := s.linkN l
  if o = 0 then boolNat x.isOpen + 2 * boolNat x.retrainBit
  else if o = 4 then x.phase.code + 8 * widthCode x.lanes + 32 * x.lanes
  else if o = 8 then x.peerChip + 65536 * x.peerLink
  else 0

/-- RO fields of INGEST, UPD, FAULT, TELEM and DBG. -/
def State.roHigh (s : State) (off : Nat) : Nat :=
  let r := s.repair
  let c := s.reg oSmapSel
  let grp := (s.sectN (s.reg oGrpSel % 16)).group (s.reg oGrpSel / 16)
  if oQBase 0 ≤ off ∧ off < oQBase 16 then
    (if off % 16 = 8 then (s.sectN ((off - oQBase 0) / 16)).head % 2 ^ 32 else 0)
  else if off = oGrpState then (match grp with
    | some g => boolNat (factorsServe (s.grpCtl (s.reg oGrpSel % 16) (s.reg oGrpSel / 16)) g) + 2 * boolNat g.fallback
    | none => 0)
  else if off = oGrpSteps then (match grp with
    | some g => g.steps
    | none => 0)
  else if off = oFaultChip then boolNat r.failed + 2 * r.cause + 16 * r.loc
  else if off = oCand then (match r.cands[s.reg oCandSel]? with
    | some e => e.1 + 2 ^ 12 * e.2.1 + 2 ^ 20 * e.2.2 + 2 ^ 31
    | none => 0)
  else if off = oCandCnt then r.cands.length
  else if off = oFencedLo then ((List.range 32).map fun n => 2 ^ n * boolNat (r.isFenced c n)).foldl (· + ·) 0
  else if off = oPprCmd then boolNat r.ppr.isSome
  else if off = oCapCtl then 32 * boolNat r.capActive
  else if off = oTemp then s.phys.temps.toList.getD (s.reg oTempSel) 0
  else if off = oRail then
    (let x := s.phys.rails.toList.getD (s.reg oRailSel) {}
     x.mv + 2 ^ 12 * x.amp + 2 ^ 24 * x.c)
  else if off = oHbm then
    Sparse.get 0 s.phys.ecs (s.reg oHbmSel) + 2 ^ 24 * s.phys.hbmTemp.toList.getD (s.reg oHbmSel % 8) 0
  else if off = oDbgCtl then boolNat s.boot.dbgOpen
  else 0

/-- RO fields of the RING registers. -/
def State.roRing (s : State) (r o : Nat) : Nat :=
  if o = 0x10 then (s.ring r).head else if o = 0x14 then (s.ring r).tail else 0

/-- RING_DONE[k] (R347). -/
def State.ringDone (s : State) (k : Nat) : Nat := (s.ring (48 + k)).seq % 2 ^ 32

/-- RO fields of a register. -/
def State.roFields (s : State) (off : Nat) : Nat :=
  if off < 0x40000 then s.roLow off
  else if off < oRing 67 then s.roRing ((off - oRing 0) / 0x20) (off % 0x20)
  else if off < oSect 0 then s.ringDone ((off - oRingDone 0) / 4)
  else if off < oXlink 0 then s.roSect ((off - oSect 0) / 0x100) (off % 0x100)
  else if off < oSnapRxBase then s.roLink ((off - oXlink 0) / 0x400) (off % 0x400)
  else s.roHigh off

/-- HI word of an RO LO/HI pair (R472): the offset of its LO word. -/
def loOfHi (off : Nat) : Option Nat :=
  if off = oTstampHi then some oTstampLo
  else if off = oEpochHi then some oEpochLo
  else if off = oFencedHi then some oFencedLo
  else if oQBase 0 ≤ off ∧ off < oQBase 16 ∧ off % 16 = 12 then some (off - 4)
  else none

/-- The HI word that a read of a LO word latches. -/
def State.hiOfLo (s : State) (off : Nat) : Option Nat :=
  if off = oTstampLo then some (s.tstamp / 2 ^ 32)
  else if off = oEpochLo then some (s.boot.epoch / 2 ^ 32)
  else if off = oFencedLo then
    some (boolNat (s.repair.isFenced (s.reg oSmapSel) 32) + 2 * boolNat (s.repair.degraded.contains (s.reg oSmapSel)))
  else if oQBase 0 ≤ off ∧ off < oQBase 16 ∧ off % 16 = 8 then some ((s.sectN ((off - oQBase 0) / 16)).head / 2 ^ 32)
  else none

/-- Whether an offset is that of RING_CTL of a ring. -/
def isRingCtl (off : Nat) : Bool := decide (oRing 0 ≤ off) && decide (off < oRing 67) && off % 0x20 == 0xC

/-- What a read of an assigned register returns (R11, R471-R473): RW and W1C fields in effect, ST fields as written last, RO fields and counters. -/
def State.peek (s : State) (off : Nat) (r : RegSpec) : Nat :=
  let k := regKey off (s.selOf r)
  if r.rc then s.counter (s.counterAt off)
  else match loOfHi off with
    | some lo => (Sparse.get 0 s.regs.latches lo).toNat
    | none =>
      let w := (s.regs.get k).toNat &&& (r.rw ||| r.w1c)
      let w := if isRingCtl off && bitOf w 1 then w - w % 2 else w
      w ||| ((s.regs.seen k).toNat &&& r.st) ||| s.roFields off

end Sys2Proof.Machine
end

