-- ==== Sys2Proof/Machine/Context.lean ====
section
/-! DEFINITION. Context.lean: the register image, the trailers, the setup digest and the context image that a SAVE writes (R460, R461, R474-R476). -/

namespace Sys2Proof.Machine

/-! ### The register image (R474) -/

/-- Mask of the RW and ST fields of a register. -/
def imageMask (off : Nat) (r : RegSpec) : Nat :=
  (r.rw ||| r.st) ||| (if oXlink 0 ≤ off ∧ off < oXlink 32 ∧ off % 0x400 = 0 then 3 else if off = oDbgCtl then 1 else 0)

/-- Selectors, which the image leaves out. -/
def isSelector (off : Nat) : Bool :=
  [oIngestSel, oGrpSel, oCandSel, oSmapSel, oMemSel, oNetSel, oTempSel, oRailSel, oHbmSel].contains off
  || (decide (oSect 0 ≤ off) && decide (off < oSect 16) && off % 0x100 == sSlotSel)

/-- Other registers that the image leaves out; the BOOT block is left out with them. -/
def isLeftOut (off : Nat) : Bool :=
  [oGlbSeal, oGlbReset, oFence, oPprLo, oPprHi, oPprCmd].contains off || (decide (0x10000 ≤ off) && decide (off < 0x20000))
  || (decide (oSect 0 ≤ off) && decide (off < oSect 16) && (off % 0x100 == sSeal || off % 0x100 == sReset))

/-- Selector values of a register. -/
def selValues (r : RegSpec) : List Nat :=
  match r.sel with
  | .none => [0]
  | .slot _ => List.range 1024
  | .group => List.range 16384
  | .smap => List.range 64

/-- Value in effect and value a read returns, as the image holds them, under a selector value. -/
def State.imageValue (s : State) (off : Nat) (r : RegSpec) (sel : Nat) : Word × Word :=
  let k := regKey off sel
  let m := imageMask off r
  let plain := s.peek off { r with sel := .none, st := 0, rc := false } &&& m
  if r.st = 0 then (BitVec.ofNat 32 plain, BitVec.ofNat 32 plain)
  else (s.regs.get k &&& BitVec.ofNat 32 r.st, s.regs.seen k &&& BitVec.ofNat 32 r.st)

/-- Whether a register has a field that the image takes: UPD_GRP_HP[6] and [7] are of type ST like the rest of their table, and only 0 passes their check (R307). -/
def hasEntry (off : Nat) (r : RegSpec) : Bool := imageMask off r != 0 || off == oGrpHp 6 || off == oGrpHp 7

/-- Entries of the register image among the given offsets: OFFSET, SELECT, VALUE, STAGED. -/
def State.imageEntries (s : State) (offs : List Nat) : List (Nat × Nat × Word × Word) :=
  offs.flatMap fun off => match regSpec off with
    | some r =>
      if !hasEntry off r || isSelector off || isLeftOut off then []
      else (selValues r).map fun sel => (off, sel, s.imageValue off r sel)
    | none => []

/-- An entry's 16 bytes. -/
def imageBytes (es : List (Nat × Nat × Word × Word)) : List Byte :=
  es.flatMap fun e => leBytes 4 e.1 ++ leBytes 4 e.2.1 ++ leBytes 4 e.2.2.1.toNat ++ leBytes 4 e.2.2.2.toNat

/-- Offsets from a base up, n words. -/
def words (base n : Nat) : List Nat := (List.range n).map fun i => base + 4 * i

/-- Every offset of BAR0 that a table of R467-R468 assigns, ascending. -/
def assignedOffs : List Nat :=
  words 0 8 ++ words 0x10000 14 ++ words 0x20000 2 ++ words 0x30000 3 ++ words 0x40000 (8 * 67) ++ words 0x41000 16
  ++ (List.range 16).flatMap (fun k => words (oSect k) 21) ++ (List.range 32).flatMap (fun l => words (oXlink l) 9) ++ words oSnapRxBase 2
  ++ words 0xC0000 9 ++ words (oQBase 0) 64 ++ words 0xE0000 20 ++ words (oHbmPart 0) 5 ++ words 0x100000 37 ++ words 0x120000 42 ++ words oDbgCtl 1

/-- The trailer of a section (R475). -/
def State.trailer (s : State) (k : Nat) : List Byte :=
  let x := s.sectN k
  leBytes 8 x.head ++ leBytes 4 x.row ++ leBytes 4 ((x.table.map (·.epoch)).getD 0) ++ leBytes 8 ((x.table.map (·.addr)).getD 0) ++ fillBytes 40 0

/-- The register image of section k, without the SECT_SLOT registers (R475). -/
def State.setupEntries (s : State) (k : Nat) : List (Nat × Nat × Word × Word) :=
  s.imageEntries ((words (oSect k) 16) ++ [oQBase k, oQSize k])

/-- SETUP_DIGEST (R476). -/
def State.setupDigest (s : State) : List Byte :=
  shake256 (imageBytes (s.imageEntries assignedOffs) ++ (List.range 16).flatMap s.trailer)

/-! ### Context images (R460) -/

/-- The save set of a tile: in the scratchpad while its program is in execution, else in its home (R42). -/
def State.saveSetOf (s : State) (k slot : Nat) (t : ImageTile) : List (Nat × List Byte) :=
  let x := s.sectN k
  if x.progValid && x.prog == slot then t.saveSet.map fun e => (e.1, s.padBytes t.ltn e.1 e.2)
  else (t.saveSet.foldl (fun (a : List (Nat × List Byte) × Nat) e => (a.1 ++ [(e.1, s.storeBytes t.ltn a.2 e.2)], a.2 + e.2)) ([], t.saveHome)).1

/-- One tile's part of a TILE_DATA chunk: its granule map, then each owned granule. -/
def State.tileData (s : State) (slot n : Nat) : List Byte :=
  let mine := (s.tileN n).ts.granules.filter fun g => g.2.owner == some slot
  Config.granuleMap (mine.map fun g => (g.1, g.2.wcode)) ++ mine.flatMap fun g => s.storeBytes n (65536 * g.1) 65536

/-- What the reads of a SAVE leave behind in a tile (R201, R209, R214). -/
def State.saveTouchTile (s : State) (k slot : Nat) (t : ImageTile) : State :=
  let x := s.sectN k
  let s := (((s.tileN t.ltn).ts.granules.filter fun g => g.2.owner == some slot)).foldl (fun (s : State) g => s.storeTouch t.ltn (65536 * g.1) 65536 1 t.ltn) s
  if x.progValid && x.prog == slot then t.saveSet.foldl (fun (s : State) e => s.padTouch t.ltn e.1 e.2) s
  else if t.saveSet.isEmpty then s else s.storeTouch t.ltn t.saveHome t.saveLen 1 t.ltn

/-- What the reads of a SAVE leave behind in the tiles of a section. -/
def State.saveTouch (s : State) (k slot : Nat) (p : ProgImage) : State :=
  (s.ltns k).foldl (fun (s : State) n => s.saveTouchTile k slot (p.tile n)) s

/-- The lowest unit that HBM cannot correct among what a SAVE reads of a program's groups (R441). -/
def State.saveBad (s : State) (p : ProgImage) : Option Nat :=
  p.groups.findSome? fun d =>
    if gOwner d then none
    else [masterArea d, stateArea d, rowWordArea d].findSome? fun a => s.hbmBadUnit a.1 a.2

/-- One group's part of a GROUPS chunk. -/
def State.saveCtxGroup (s : State) (k slot : Nat) (d : List Byte) : CtxGroup :=
  let g := gNum d
  let sel := grpSel k g
  let v := ((s.sectN k).group g).getD { prog := slot, desc := d }
  { group := g, ctl := s.regs.get (regKey oGrpCtl sel), kron := s.regs.get (regKey oGrpKron sel), hp := (List.range 8).map (s.grpHp k g)
    steps := v.steps, fsteps := v.fsteps, stampA := s.slotStamp k slot g false, stampB := s.slotStamp k slot g true, factorsValid := v.valid }

/-- The bytes of an area of HBM. -/
def State.areaBytes (s : State) (a : Nat × Nat) : List Byte := s.hbm.readBytes a.1 a.2

/-- The chunks 1-10 of the context image of a program slot (R460); STATE carries each STATE area whole, and FACTORS the factors of each group that allows KRON (R492). -/
def State.ctxChunks (s : State) (k slot : Nat) (p : ProgImage) : List (List Byte) :=
  let ns := s.ltns k
  let gs := p.groups.map (s.saveCtxGroup k slot)
  [p.chunk, ns.flatMap (s.tileData slot), ns.flatMap fun n => (s.saveSetOf k slot (p.tile n)).flatMap (·.2), (List.range 1024).flatMap (s.slotImage k),
   Config.groupsChunk gs, p.groups.flatMap fun d => s.areaBytes (masterArea d), p.groups.flatMap fun d => s.areaBytes (stateArea d),
   p.groups.flatMap fun d => s.areaBytes (rowWordArea d),
   (p.groups.zip gs).flatMap fun e => if (factorsArea e.1).2 = 0 then [] else Config.factorsChunk e.2.factorsValid (s.areaBytes (factorsArea e.1)),
   imageBytes (s.setupEntries k) ++ s.trailer k]

/-- Stamp of the CURRENT slot of a program's groups. -/
def State.currentStamp (s : State) (k slot : Nat) : Nat :=
  ((((s.ltns k).flatMap fun n => (s.tileN n).ranges).find? fun r => r.prog == slot && r.st == .current).map (·.stamp)).getD (s.sectN k).postmark

/-- The context image of a program slot (R460): every chunk in ascending type, each at a multiple of 64. -/
def State.saveImage (s : State) (k slot : Nat) (p : ProgImage) : List Byte :=
  let laid := layOut 576 (s.ctxChunks k slot p)
  let dir := (laid.zipIdx).flatMap fun e => leBytes 2 (e.2 + 1) ++ fillBytes 6 0 ++ leBytes 8 e.1.1 ++ leBytes 8 e.1.2.length ++ fillBytes 8 0
  let data := laid.flatMap fun e => padTo (roundUp e.2.length 64) e.2
  let head := leBytes 4 0x49565748 ++ leBytes 2 1 ++ [2, 0] ++ leBytes 8 (576 + data.length) ++ leBytes 2 10 ++ leBytes 2 64 ++ leBytes 2 48
    ++ leBytes 2 (spanChips p.span) ++ leBytes 4 (32 * (s.clusters k).length) ++ leBytes 4 (s.currentStamp k slot) ++ leBytes 8 (s.sectMask k)
    ++ fillBytes 24 0 ++ s.fold k
  let tail := fillBytes 128 0 ++ dir ++ data
  head ++ imageDigest (head ++ fillBytes 32 0 ++ tail) ++ tail

end Sys2Proof.Machine
end

