-- ==== Sys2Proof/Machine/Descriptors.lean ====
section
/-! DEFINITION. Descriptors.lean: the descriptors of job rings: when each is processed, its refusals, its effect and its records; the entry of a segment's sequence; background LOAD and SAVE; FENCE and BARRIER; ring errors (R37, R39-R43, R45-R47, R52-R53, R57-R67, R157, R262-R263, R299, R325-R326, R344-R352, R358, R376, R451, R453, R456, R460-R464). -/

namespace Sys2Proof.Machine

/-! ### Format (R6, R344, R345) -/

/-- Whether a TYPE is reserved. -/
def typeReserved (t : Nat) : Bool := t == 0 || decide (9 < t)

/-- Bytes lo up to hi - 1 of a descriptor as checks that they are 0. -/
def zeroBytes (d : List Byte) (lo hi : Nat) : List (Nat × Bool) := (List.range (hi - lo)).map fun i => (lo + i, fieldAt d (lo + i) 1 == 0)

/-- The checks of the fields that a type has, as (byte offset, holds). -/
def fieldChecks (d : List Byte) : List (Nat × Bool) :=
  let prog := (8, fieldAt d 8 1 / 64 == 0) :: zeroBytes d 9 16
  let length := (24, fieldAt d 24 8 % 64 == 0 && decide (fieldAt d 24 8 ≤ 2 ^ 40))
  match descType d with
  | 1 =>
    let n := stSegCount d
    let snap := stSnap d
    [(10, fieldAt d 10 1 / 4 == 0), (11, if stCode d = 1 then decide (2 ≤ n) && decide (n ≤ 16) else n == 0), (20, snap / 4 == 0),
     (24, stReport d % 64 == 0), (32, !(bitOf snap 0 && !bitOf snap 1) || stSnapAddr d % 64 == 0)] ++ zeroBytes d 48 64
  | 2 => (8, fieldAt d 8 1 / 64 == 0) :: zeroBytes d 9 64
  | 3 => prog ++ [(16, fieldAt d 16 8 % 64 == 0 && !bitOf (fieldAt d 16 8) 63), length] ++ zeroBytes d 32 64
  | 4 => prog ++ [(16, !bitOf (fieldAt d 16 8) 63), length] ++ zeroBytes d 32 64
  | 5 => zeroBytes d 8 16 ++ zeroBytes d 28 64
  | 7 => (8, bitsOf (fieldAt d 8 1) 6 4 == 0) :: zeroBytes d 9 12 ++ zeroBytes d 16 64
  | _ => zeroBytes d 8 64

/-- The first byte offset at which a descriptor breaks its format. -/
def formatBad (d : List Byte) : Option Nat :=
  (((0, !typeReserved (descType d)) :: (1, fieldAt d 1 1 / 2 == 0) :: (2, fieldAt d 2 1 / 16 == 0) :: (3, fieldAt d 3 1 == 0) :: fieldChecks d).find?
    fun e => !e.2).map (·.1)

/-- The refusals that every descriptor of job ring k has: its format, then its section (R39). -/
def commonRefusal (k : Nat) (d : List Byte) : Option Refused :=
  match formatBad d with
  | some o => some (csRefused, o)
  | none => if fieldAt d 2 1 % 16 = k then none else some (csMismatch, 0)

/-! ### When a descriptor is processed (R346, R347, R358, R451) -/

/-- Whether a descriptor whose record is still to come, other than a background LOAD or SAVE, is in execution. -/
def Section.inExecution (x : Section) : Bool := x.run.isSome || x.evalWait.isSome || x.switching.isSome || x.barrier.isSome

/-- Completion records of a section still to come. -/
def Section.recordsDue (x : Section) : Nat := boolNat x.inExecution + x.nops.length + boolNat x.bg.isSome

/-- Whether the completion ring of job ring k has an entry free for one more record (R358). -/
def State.recordRoom (s : State) (k : Nat) : Bool :=
  let r := s.ring (48 + k)
  s.ringOn (48 + k) && r.held.isEmpty && decide ((s.sectN k).recordsDue < r.free)

/-- Whether a section between the segments of a chain waits for the next one (R61). -/
def Section.betweenSegments (x : Section) : Bool := x.chain.isSome && x.run.isNone && x.phase == .running

/-- Whether a section has completed a step and has not yet come to the next descriptor of its ring: it stays RUNNING until that proves to be no STEP (R40, R346, log 43). -/
def Section.between (x : Section) : Bool := x.phase == .running && x.run.isNone && x.chain.isNone && x.evalWait.isNone

/-- The next descriptor is no STEP that follows: the section becomes IDLE. -/
def State.settle (s : State) (k : Nat) : State :=
  if (s.sectN k).between then (s.setSectN k { s.sectN k with phase := .idle }).settleSeal k else s

/-- Whether job ring k may take the next descriptor, of so many entries; always tells that its type is processed in any state other than FAULTED. -/
def State.mayTake (s : State) (k entries : Nat) (always : Bool) : Bool :=
  let x := s.sectN k
  s.ringOn k && decide (entries ≤ (s.ring k).occupancy) && x.fence.isNone && x.phase != .faulted && s.recordRoom k
  && (always || x.betweenSegments || x.between || (x.phase == .idle && !x.inExecution))

/-- The DESCRIPTOR record of the postbook (R453 type 2); second is the second unit of a LOAD. -/
def State.descRecord (s : State) (k index : Nat) (bytes second : List Byte) : State :=
  s.postbook 2 k 0 false
    (padTo 64 (leBytes 1 k ++ leBytes 1 (descType bytes) ++ leBytes 2 0 ++ leBytes 4 index ++ leBytes 4 (descTag bytes) ++ leBytes 4 0 ++ shake256 bytes)
      ++ second)

/-- A version range left open returns to OLD with the stamp it had before (R61, R290). -/
def VRange.revert (r : VRange) : VRange := if r.st = .open then { r with st := .old, stamp := r.before, rows := [] } else r

/-- Every open range of a section returns to OLD. -/
def State.revertOpen (s : State) (k : Nat) : State :=
  s.mapTiles k fun _ t => if t.ranges.isEmpty then t else { t with ranges := t.ranges.map VRange.revert }

/-- A chain is aborted: the section returns to IDLE with versions and update state as before the HEAD (R61). No slice of it has been treated, and those that wait are discarded (R63, R295). -/
def State.abortChain (s : State) (k : Nat) : State :=
  let s := (s.mapTiles k fun _ t => t.dropStep).revertOpen k
  let s := ({ s with slices := s.slices.map fun (q : List SliceMsg) => q.filter fun m => m.sect != k } : State).clearNodes k
  let s := s.setSectN k { (s.sectN k).quiesce with phase := .idle }
  s.settleSeal k

/-- The descriptor at the head leaves job ring k, refused: its record, and the chain that it aborts (R61, R352). -/
def State.refuse (s : State) (k : Nat) (d : List Byte) (index : Nat) (r : Refused) : State :=
  let chain := (s.sectN k).betweenSegments && descType d != 3 && descType d != 9
  let c := descDone d index r.1 r.2
  let c := if descType d = 1 then { c with segment := stCode d, postmark := stPostmark d } else c
  let s := s.complete k c
  if chain then s.abortChain k else if descType d = 3 ∨ descType d = 9 then s else s.settle k

/-- Processing of a one-entry descriptor of a type other than STEP, LOAD and NOP: f has its effect. A descriptor of a reserved TYPE is refused whichever command brings it. Between the segments of a chain such a descriptor is SEGMENT_ORDER (R61), whether or not it also breaks its format (R6) or names another section (R39): which status the spec would give there it does not say (log 210). -/
def State.process (s : State) (k type : Nat) (d : List Byte) (f : State → Nat → State) : State :=
  if (descType d != type && !typeReserved (descType d)) || !s.mayTake k 1 false then s
  else
    let index := (s.ring k).head
    let s := ((s.settle k).advanceHead k 1).descRecord k index d []
    if (s.sectN k).betweenSegments then s.refuse k d index (csOrder, 0)
    else match commonRefusal k d with
      | some r => s.refuse k d index r
      | none => f s index

/-- Whether the program of a slot is resident and no LOAD into the slot is in progress (R42). -/
def Section.resident (x : Section) (slot : Nat) : Option ProgImage :=
  let loading := match x.bg with
    | some (.load d) => fieldAt d.desc 8 1 % 64 == slot
    | _ => false
  if loading then none else Sparse.get none x.programs slot

/-! ### STEP (R45, R57-R67, R157, R262, R263, R345, R376) -/

/-- Whether a selected mask copy of table t is legal for every group that names it (R263). -/
def State.maskTableOk (s : State) (p : ProgImage) (t : Nat) (sel : Nat) : Bool :=
  match p.maskCopy t (bitOf sel t) with
  | none => true
  | some a =>
    let units := fieldAt (s.updBytes a 4) 0 4
    let gran := fieldAt (s.updBytes (a + 4) 1) 0 1
    s.maskOk a (if gran = 0 then units else 48 * units)
    && p.groups.all fun d => !(gMaskEn d && gMask d == t) || s.maskOk a (gRows d)

/-- MASK_SEL of a value area, for a program that declares mask tables (R262). -/
def maskSelOf (p : ProgImage) (values : List Byte) : Nat := if p.masks.isEmpty then 0 else fieldAt values 0 8

/-- A segment of a chain, checked against it (R61, R262). -/
def Section.nextSegment (x : Section) (c : Chain) (d values : List Byte) (index : Nat) : Sum Refused StepRun :=
  let code := stCode d
  let want := if c.nextSeg + 1 < c.segCount then 2 else 3
  let p := (x.program).getD {}
  if code ≠ want ∨ stTt d ≠ stTt c.desc ∨ stPostmark d ≠ stPostmark c.desc ∨ maskSelOf p values ≠ maskSelOf p c.values then .inl (csOrder, 0)
  else .inr
    { desc := d, values := values, index := index, tt := c.tt, named := c.named, probe := c.probe, code := code, segIndex := c.nextSeg
      segCount := c.segCount, stepSs := c.stepSs, overruns := c.overruns, late := c.late, epoch := stEpoch c.desc, maskSel := maskSelOf p c.values
      lockedPosted := c.lockedPosted }

/-- The evaluation slot of section k that carries a postmark (R66). -/
def Section.evalSlot (x : Section) (p : Nat) : Option Bool :=
  if p = 0 then none else if x.evalA = p then some false else if x.evalB = p then some true else none

/-- Whether the postmark of a WHOLE or HEAD is in order (R57, R66). -/
def State.postmarkRefused (s : State) (k p : Nat) : Option Refused :=
  let x := s.sectN k
  if s.evalOn k then (if (x.evalSlot p).isSome then none else some (csVersion, 0))
  else if p = 0 ∨ 2 ^ 31 ≤ p then some (csPostmark, 0)
  else if x.fresh then (if postLater (x.loaded.getD x.postmark) p then none else some (csPostmark, 0))
  else if p = postSucc x.postmark then none else some (csPostmark, 0)

/-- A WHOLE or HEAD checked against its section, in the order of log 14, up to its masks: the program and the run. -/
def State.firstChecks (s : State) (k : Nat) (d values : List Byte) (index : Nat) : Sum Refused (ProgImage × StepRun) :=
  let x := s.sectN k
  let code := stCode d
  let tt := stTt d
  if 2 ≤ code then .inl (csOrder, 0)
  else match x.resident (tt / 1024) with
    | none => .inl (csAbsent, 0)
    | some p =>
      let named := bitOf tt 6
      let probe := named || s.needsProbe k p
      let ran := if probe ∧ !named then tt + 64 else tt
      match p.timetable (if named then tt - 64 else tt), p.timetable ran with
      | some t, some _ =>
        let n := stSegCount d
        if tt % 64 ≠ 0 then .inl (csTimetable, 0)
        else if code = 1 ∧ (t.maxSeg < n ∨ p.carryBytes < n * t.carrySize) then .inl (csSegments, t.maxSeg)
        else match s.postmarkRefused k (stPostmark d) with
          | some r => .inl r
          | none =>
            .inr (p,
              { desc := d, values := values, index := index, tt := ran, named := named, probe := probe, code := code, segIndex := 0
                segCount := if code = 1 then n else 1, epoch := stEpoch d, maskSel := maskSelOf p values })
      | _, _ => .inl (csTimetable, 0)

/-- A WHOLE or HEAD checked against its section, its masks last (R263). -/
def State.firstSegment (s : State) (k : Nat) (d values : List Byte) (index : Nat) : Sum Refused StepRun :=
  match s.firstChecks k d values index with
  | .inl r => .inl r
  | .inr (p, r) => if !p.masks.all (fun m => s.maskTableOk p m.1 r.maskSel) then .inl (csMask, 0) else .inr r

/-- The mask copies that the check of a STEP reads: those that a WHOLE or HEAD selects which nothing else refuses (R263). -/
def State.maskReads (s : State) (k : Nat) (d values : List Byte) (index : Nat) : List HbmArea :=
  if (commonRefusal k d).isSome || (s.sectN k).chain.isSome then []
  else match s.firstChecks k d values index with
    | .inl _ => []
    | .inr (p, r) => p.masks.filterMap fun m => (p.maskCopy m.1 (bitOf r.maskSel m.1)).map s.maskArea

/-- The update die whose HBM holds an address. -/
def hbmDie (a : Nat) : Nat := (a - hbmBase) / 0x2000000000 % 4

/-- Checks the links that a span table uses; posts LINK_UNREADY and PEER_MISMATCH (R376); nothing is checked in replay (R457). -/
def State.checkLinks (s : State) (k : Nat) (sp : List Byte) : State × Bool :=
  if s.replaying k then (s, true)
  else ((List.range 32).filter (spanUsed sp)).foldl (fun (a : State × Bool) l =>
    let x := s.linkN l
    if x.phase ≠ .active then (a.1.event 0x0705 k (items [l, x.phase.code]), false)
    else if x.peerChip ≠ spanPeerChip sp l ∨ x.peerLink ≠ spanPeerLink sp l then
      (a.1.event 0x0704 k (items [l, x.peerChip, x.peerLink, spanPeerChip sp l]), false)
    else a) (s, true)

/-- Capture starts with an accepted step (R456). -/
def State.startCapture (s : State) (k postmark : Nat) : State :=
  let ctl := s.reg oCapCtl
  let start := s.reg oCapStart
  let r := s.repair
  if bitOf ctl 4 && bitsOf ctl 3 0 == k && !r.capActive && !r.capDone && (start == postmark || postLater start postmark) then
    { s with repair := { r with capActive := true, capSteps := max 1 (s.reg oCapSteps), capUsed := 0 } }
  else s

/-- An accepted step starts: its program is switched in where another one is in execution (R43). -/
def State.startStep (s : State) (k : Nat) (r : StepRun) : State :=
  let x := s.sectN k
  let slot := r.tt / 1024
  let s := s.setSectN k { x with run := some r, evalWait := none, phase := .running }
  if x.progValid && x.prog == slot then s else s.switchTo k slot

/-- Whether an evaluation copy is filling the slot that a STEP of section k reads (R299). -/
def Section.evalFilling (x : Section) (p : Nat) : Bool :=
  match x.evalCopy with
  | some c => c.postmark == p
  | none => false

/-- An accepted WHOLE, HEAD, MIDDLE or TAIL. An evaluation STEP waits for the copy of its version (R299). A LOAD after a first segment has been accepted renews the exception of R57. -/
def State.acceptStep (s : State) (k : Nat) (r : StepRun) : State :=
  let x := s.sectN k
  let s := if r.segIndex = 0 then (s.setSectN k { x with loaded := none }).startCapture k (stPostmark r.desc) else s
  if r.segIndex = 0 ∧ s.evalOn k ∧ x.evalFilling (stPostmark r.desc) then s.setSectN k { s.sectN k with evalWait := some r } else s.startStep k r

/-- What a STEP comes to. -/
def State.judgeStep (s : State) (k : Nat) (d values : List Byte) (index : Nat) : Sum Refused StepRun :=
  match commonRefusal k d with
  | some r => .inl r
  | none => match (s.sectN k).chain with
    | some c => (s.sectN k).nextSegment c d values index
    | none => s.firstSegment k d values index

/-- A descriptor that the section has faulted over while it was processed (R349): ABORTED. -/
def State.abortDesc (s : State) (k : Nat) (d : List Byte) (index : Nat) : State :=
  let c := descDone d index 0x0E 0
  s.complete k (if descType d = 1 then { c with segment := stCode d, postmark := stPostmark d } else c)

/-- STEP: the descriptor at the head of job ring k and its value area are processed (R345, R346). The update dies read the selected masks for the check: one that lies outside UPDATE is a dead letter (R302), and one that HBM cannot correct faults the section, whose STEP is ABORTED (R349, R441, log 215). -/
def State.takeStep (s : State) (k : Nat) (d values : List Byte) : State :=
  let index := (s.ring k).head
  let s := s.advanceHead k 2
  let no := fun (s : State) r => (s.descRecord k index (d ++ values) []).refuse k d index r
  let reads := s.maskReads k d values index
  let s := (reads.filter fun a => !s.updReach a.1 a.2.1).foldl (fun (s : State) a => s.deadLetter 9 2 false a.1 (hbmDie a.1) a.2.1) s
  match s.updBad reads with
  | some u => (((s.descRecord k index (d ++ values) []).hbmUncorr k u).faultSect k 0x0A07).abortDesc k d index
  | none =>
  match s.judgeStep k d values index with
  | .inl r => no s r
  | .inr r =>
    let p := ((s.sectN k).resident (r.tt / 1024)).getD {}
    let t := if r.segIndex = 0 then s.checkLinks k p.span else (s, true)
    if t.2 then (t.1.acceptStep k r).descRecord k index (d ++ values) [] else no t.1 (csTimetable, 0)

/-- STEP (R345, R346): both entries announced, the section ready for it, the postbook ring enabled for a WHOLE or HEAD (R341, R451). -/
def execStep (k : SectId) (d values : List Byte) (s : State) : Host.Outcome State Fault Refusal :=
  let n := k.toNat
  .next (if typeReserved (descType d) then s.process n 1 d (fun s _ => s)
    else if descType d ≠ 1 ∨ !s.mayTake n 2 false ∨ (stCode d ≤ 1 ∧ !s.ringOn 66) then s
    else s.takeStep n d values)

/-- The accepted segment of a code begins its sequence (R73), once its program is in execution. -/
def State.beginSegment (s : State) (k code : Nat) : State :=
  let x := s.sectN k
  match x.run with
  | some r => if r.code = code ∧ !r.began ∧ x.phase = .running then s.enterRun k r else s
  | none => s

/-- WHOLE (R46, R73). -/
def execWhole (k : SectId) (s : State) : Host.Outcome State Fault Refusal := .next (s.beginSegment k.toNat 0)

/-- HEAD (R61, R73). -/
def execHead (k : SectId) (s : State) : Host.Outcome State Fault Refusal := .next (s.beginSegment k.toNat 1)

/-- MIDDLE (R61, R73). -/
def execMiddle (k : SectId) (s : State) : Host.Outcome State Fault Refusal := .next (s.beginSegment k.toNat 2)

/-- TAIL (R61, R73). -/
def execTail (k : SectId) (s : State) : Host.Outcome State Fault Refusal := .next (s.beginSegment k.toNat 3)

/-! ### SWITCH, LOAD, SAVE -/

/-- SWITCH (R42, R43). -/
def execSwitch (k : SectId) (d : List Byte) (s : State) : Host.Outcome State Fault Refusal :=
  let n := k.toNat
  .next (s.process n 2 d fun s index =>
    let slot := fieldAt d 8 1 % 64
    match (s.sectN n).resident slot with
    | none => s.refuse n d index (csAbsent, 0)
    | some _ => (s.setSectN n { s.sectN n with switching := some { desc := d, index := index } }).switchTo n slot)

/-- LOAD: processed in any state other than FAULTED while no LOAD or SAVE of the section runs (R42, R346). The DESCRIPTOR record of one that starts is written when its image has been read. -/
def execLoad (k : SectId) (d : List Byte) (s : State) : Host.Outcome State Fault Refusal :=
  let n := k.toNat
  .next (if typeReserved (descType d) then s.process n 3 d (fun s _ => s)
    else if descType d ≠ 3 ∨ !s.mayTake n 1 true ∨ (s.sectN n).bg.isSome then s
    else
      let index := (s.ring n).head
      let s := (s.settle n).advanceHead n 1
      let x := s.sectN n
      let no := fun r => (s.descRecord n index d (fillBytes 64 0)).refuse n d index r
      match commonRefusal n d with
      | some r => no r
      | none =>
        if x.progValid ∧ x.prog = fieldAt d 8 1 % 64 then no (csBusy, 0)
        else s.setSectN n { x with bg := some (.load { desc := d, index := index }) })

/-- GEOMETRY_MISMATCH of an image that is refused for its geometry or its digest (R463). -/
def State.geometryEvent (s : State) (k slot : Nat) (img : ImageData) : State :=
  if (headerBad img.bytes).isNone then
    match s.geometryBad k img.prog img.bytes with
    | some o => s.event 0x0A06 k (items [slot, o])
    | none => s
  else s

/-- A LOAD ends (R350, R460-R464): its records, and what an accepted image sets. -/
def State.endLoad (s : State) (k : Nat) (d : DescRun) (result : LoadResult) : State :=
  let slot := fieldAt d.desc 8 1 % 64
  match result with
  | .readFailed => (s.descRecord k d.index d.desc (fillBytes 64 0)).complete k (descDone d.desc d.index csReadError 0)
  | .image img =>
    let s := s.descRecord k d.index d.desc (padTo 64 (padTo 32 (img.bytes.drop 96)))
    match s.loadRefused k d.desc img with
    | some r => (s.geometryEvent k slot img).complete k (descDone d.desc d.index r.1 r.2)
    | none => (s.loadImage k slot img).complete k (descDone d.desc d.index 0 0)

/-- LOAD_DONE (R464). -/
def execLoadDone (k : SectId) (result : LoadResult) (s : State) : Host.Outcome State Fault Refusal :=
  let n := k.toNat
  .next (match (s.sectN n).bg with
    | some (.load d) => (s.setSectN n { s.sectN n with bg := none }).endLoad n d result
    | _ => s)

/-- SAVE: the image is read when the descriptor is processed (R345, R464). One that meets data HBM cannot correct faults the section and is ABORTED (R349, R441). -/
def execSave (k : SectId) (d : List Byte) (s : State) : Host.Outcome State Fault Refusal :=
  let n := k.toNat
  .next (if (s.sectN n).bg.isSome then s
    else s.process n 4 d fun s index =>
      let slot := fieldAt d 8 1 % 64
      match (s.sectN n).resident slot with
      | none => s.refuse n d index (csAbsent, 0)
      | some p =>
        match s.saveBad p with
        | some u => ((s.hbmUncorr n u).faultSect n 0x0A07).abortDesc n d index
        | none =>
          let image := s.saveImage n slot p
          if fieldAt d 24 8 < image.length then s.refuse n d index (csSpace, ceilDiv image.length 65536)
          else (s.saveTouch n slot p).setSectN n { s.sectN n with bg := some (.save { desc := d, index := index } image) })

/-- SAVE_DONE: the image is written to DST, then the record (R346, R357). -/
def execSaveDone (k : SectId) (s : State) : Host.Outcome State Fault Refusal :=
  let n := k.toNat
  .next (match (s.sectN n).bg with
    | some (.save d image) =>
      ((s.setSectN n { s.sectN n with bg := none }).hostWrite (fieldAt d.desc 16 8) image).complete n (descDone d.desc d.index 0 0)
    | _ => s)

/-! ### INGEST, SEAL, FENCE, BARRIER, NOP -/

/-- Whether a shuffle table's header keeps R326 and agrees with EPOCH; qt is the section's queue length. -/
def shuffleHeaderOk (h : List Byte) (epoch qt : Nat) : Bool :=
  let w := fieldAt h 8 4
  let rows := fieldAt h 12 4
  fieldAt h 0 4 == epoch && fieldAt h 4 1 / 64 == 0 && fieldAt h 5 3 == 0 && decide (1 ≤ w) && decide (w ≤ qt) && decide (1 ≤ rows) && decide (rows ≤ 2 ^ 24)
  && fieldAt h 16 8 == 64 + rows * roundUp (4 * w) 64 && allZero ((h.drop 24).take 40)

/-- INGEST: installs a shuffle table (R325, R326, R345); a header that HBM cannot correct is reported and breaks R326 (R441). -/
def execIngest (k : SectId) (d : List Byte) (s : State) : Host.Outcome State Fault Refusal :=
  let n := k.toNat
  .next (s.process n 5 d fun s index =>
    let a := fieldAt d 16 8
    let h := s.hbm.readBytes a 64
    if s.inPart 1 a 64 && shuffleHeaderOk h (fieldAt d 24 4) (s.queueQt n) && s.inPart 1 a (fieldAt h 16 8) && (s.hbmBadUnit a 64).isNone then
      let t : ShuffleTable :=
        { addr := a, epoch := fieldAt h 0 4, prog := fieldAt h 4 1 % 64, window := fieldAt h 8 4, rows := fieldAt h 12 4 }
      (s.setSectN n { s.sectN n with table := some t, row := 0, rowStart := 0 }).complete n (descDone d index 0 0)
    else
      let s := match s.hbmBadUnit a 64 with
        | some u => s.hbmUncorr n u
        | none => s
      (s.event 0x0505 n []).refuse n d index (csShuffle, 0))

/-- SEAL: captured and applied at once, the section being IDLE (R52, R53). -/
def execSeal (k : SectId) (d : List Byte) (s : State) : Host.Outcome State Fault Refusal :=
  let n := k.toNat
  .next (s.process n 6 d fun s index =>
    let t := ({ s with regs := s.regs.capture (.sect n) } : State).applySect n true
    t.1.complete n { descDone d index 0 0 with flags := 2 * boolNat t.2 })

/-- FENCE: one that names its own ring is refused, else it waits (R347). -/
def execFence (k : SectId) (d : List Byte) (s : State) : Host.Outcome State Fault Refusal :=
  let n := k.toNat
  .next (s.process n 7 d fun s index =>
    if bitOf (fieldAt d 8 1) 7 ∧ fieldAt d 8 1 % 16 = n then s.refuse n d index (csRefused, 8)
    else s.setSectN n { s.sectN n with fence := some { desc := d, index := index } })

/-- Whether the conditions of a waiting FENCE of section k hold (R347). -/
def State.fenceMet (s : State) (k : Nat) (d : List Byte) : Bool :=
  let x := s.sectN k
  let done := s.ringDone (fieldAt d 8 1 % 16)
  x.bg.isNone && x.snap.isNone && (!bitOf (fieldAt d 8 1) 7 || decide ((done + 2 ^ 32 - fieldAt d 12 4) % 2 ^ 32 < 2 ^ 31))

/-- FENCE_COMPLETE (R347). -/
def execFenceComplete (k : SectId) (s : State) : Host.Outcome State Fault Refusal :=
  let n := k.toNat
  .next (match (s.sectN n).fence with
    | some d =>
      if s.fenceMet n d.desc then (s.setSectN n { s.sectN n with fence := none }).done n (descDone d.desc d.index 0 0) else s
    | none => s)

/-- BARRIER: the section waits at one barrier (R348, R376, R444, R451). -/
def execBarrier (k : SectId) (d : List Byte) (s : State) : Host.Outcome State Fault Refusal :=
  let n := k.toNat
  .next (if !s.ringOn 66 then s
    else s.process n 8 d fun s index =>
      if (s.sectN n).discarded then s.refuse n d index (csAbsent, 0)
      else
        let t := s.checkLinks n (s.sectN n).spanTable
        if t.2 then t.1.setSectN n { t.1.sectN n with barrier := some { desc := d, index := index } } else t.1.refuse n d index (csTimetable, 0))

/-- The record of a NOP follows that of the descriptor in execution (R346). -/
def State.endNop (s : State) (k : Nat) (c : Completion) : State :=
  let x := s.sectN k
  if x.inExecution then s.setSectN k { x with nops := x.nops ++ [c] } else s.complete k c

/-- NOP: completes at once, in any state other than FAULTED (R344, R346). -/
def execNop (k : SectId) (d : List Byte) (s : State) : Host.Outcome State Fault Refusal :=
  let n := k.toNat
  .next (if typeReserved (descType d) then s.process n 9 d (fun s _ => s)
    else if descType d ≠ 9 ∨ !s.mayTake n 1 true then s
    else
      let index := (s.ring n).head
      let s := ((s.settle n).advanceHead n 1).descRecord n index d []
      match commonRefusal n d with
      | some r => s.endNop n (descDone d index r.1 r.2)
      | none => s.endNop n (descDone d index 0 0))

/-! ### Ring errors (R350) -/

/-- RING_ERROR: the fetch of the descriptor at the head of a host-produced ring fails: the ring stops with ERR, and a job ring posts the descriptor's record. -/
def execRingError (r : BitVec 7) (s : State) : Host.Outcome State Fault Refusal :=
  let n := r.toNat
  let x := s.ring n
  let busy := decide (n < 16) && ((s.sectN n).inExecution || (s.sectN n).fence.isSome || (s.sectN n).phase == .faulted)
  .next (if 48 ≤ n ∨ !s.ringOn n ∨ x.occupancy = 0 ∨ busy then s
    else
      let s := s.setReg (oRing n + 0xC) (s.ringCtl n ||| 2)
      let s := s.event 0x0602 noSect (items [n, x.head])
      if n < 16 then (s.complete n { tag := 0, index := x.head, type := 0, status := csReadError }).settle n else s)

end Sys2Proof.Machine
end

