-- ==== Sys2Proof/Machine/Versions.lean ====
section
/-! DEFINITION. Versions.lean: the version copy, the evaluation copies and snapshots after a step boundary (R65, R66, R296, R297, R299, R300, R385). -/

namespace Sys2Proof.Machine

/-! ### Shipping (R300, R385) -/

/-- The lowest-numbered ACTIVE link whose peer is a chip. -/
def State.linkTo (s : State) (chip : Nat) : Option Nat :=
  (List.range 32).find? fun l => (s.linkN l).phase == .active && (s.linkN l).peerChip == chip

/-- The LVC6 frames of a snapshot (R366). -/
def snapFrames (bs : List Byte) : List Frame :=
  let flits := ceilDiv bs.length 64
  let n := ceilDiv flits 4
  (List.range n).map fun i =>
    { header := 6 + 2 ^ 5 * boolNat (i + 1 == n) + 2 ^ 6 * (min 4 (flits - 4 * i) - 1) + 2 ^ 8 * (4 * i), data := padTo 256 (bs.drop (256 * i)) }

/-- The snapshot of section k starts to be shipped (R300, R385). -/
def State.ship (s : State) (k : Nat) (sn : Snapshot) (bs : List Byte) : State :=
  let x := s.sectN k
  match sn.host with
  | some _ => s.setSectN k { x with snap := some { sn with shipping := some bs } }
  | none => match s.linkTo sn.peer with
    | none => (s.setSectN k { x with snap := none }).event 0x0705 k (items [0xFF, 0])
    | some l =>
      let y := s.linkN l
      let s := s.setSectN k { x with snap := some { sn with link := l, last := y.lasts + 1, shipping := some bs } }
      s.setLinkN l { (snapFrames bs).foldl (fun (y : Link) f => y.enqueue 6 f) y with lasts := y.lasts + 1 }

/-! ### Evaluation copies (R299) -/

/-- The evaluation slot that a new copy into section e goes to: that of an unfinished copy, else the one that its step in progress does not read, else the one with the earlier stamp. -/
def Section.evalTarget (x : Section) : Bool :=
  match x.evalCopy, x.stepValues with
  | some c, _ => c.slotB
  | none, some v => (x.evalSlot v.2) == some false
  | none, none => !postLater x.evalA x.evalB && x.evalA != 0

/-- The stamp of an evaluation slot. -/
def Section.evalStamp (x : Section) (slotB : Bool) : Nat := if slotB then x.evalB else x.evalA

/-- A waiting evaluation STEP that named a superseded postmark is refused with VERSION_ABSENT; nothing is in execution then, and the section is IDLE (R40). -/
def State.refuseWaiting (s : State) (e old : Nat) : State :=
  let x := s.sectN e
  match x.evalWait with
  | some r =>
    if stPostmark r.desc = old then
      ((s.setSectN e { x with evalWait := none }).done e { descDone r.desc r.index csVersion 0 with segment := r.code, postmark := old }).settle e
    else s
  | none => s

/-- An evaluation copy into section e starts: its slot takes the version's postmark. -/
def State.startEvalCopy (s : State) (e postmark : Nat) (bs : List Byte) : State :=
  let b := (s.sectN e).evalTarget
  let s := s.refuseWaiting e ((s.sectN e).evalStamp b)
  let x := s.sectN e
  let x := if b then { x with evalB := postmark } else { x with evalA := postmark }
  s.setSectN e { x with evalCopy := some { slotB := b, postmark := postmark, bytes := bs } }

/-- Writes the version copy into its area, which lies in the SNAPSHOT partition (R296). A write outside it is dropped, and as it comes from D-H queues it raises HBM_PARTITION, in the section's lowest tile (R302, log 178). -/
def State.writeCopyArea (s : State) (k : Nat) (v : VersionCopy) : State :=
  if s.inPart 3 v.area v.bytes.length then s.hbmWrite v.area v.bytes
  else
    let n := (s.ltns k).headD 0
    (s.faultTile n fEngine 0x0403).deadLetter 9 1 true v.area n v.bytes.length

/-- What shipping and evaluation copies read of a version-copy area; outside SNAPSHOT the read is dropped (R302, log 168), and data that HBM cannot correct are not delivered (R441). -/
def State.copyArea (s : State) (a n : Nat) : List Byte :=
  if s.inPart 3 a n && (s.hbmBadUnit a n).isNone then s.hbm.readBytes a n else (List.range n).map fun i => Config.hbmDropped (a + i)

/-- What the read of an area for shipping leaves behind: a dead letter of the PCIe controller or of the link outside SNAPSHOT (R302), the event of R441 (log 216). -/
def State.shipTouch (s : State) (k a n : Nat) (sn : Snapshot) : State :=
  if !s.inPart 3 a n then
    match sn.host with
    | some _ => s.deadLetter 9 0 false a Config.requesterId n
    | none => s.deadLetter 9 4 false a (sn.peer + 65536 * (s.linkTo sn.peer).getD 0) n
  else match s.hbmBadUnit a n with
    | some u => s.hbmUncorr k u
    | none => s

/-- What the read of an area by the D-H queues of evaluation section e leaves behind: outside SNAPSHOT a dead letter and HBM_PARTITION in its lowest tile (R302, log 178); data that HBM cannot correct put the section in FAULTED (R441). -/
def State.evalTouch (s : State) (e a n : Nat) : State :=
  let t := (s.ltns e).headD 0
  if !s.inPart 3 a n then (s.faultTile t fEngine 0x0403).deadLetter 9 1 false a t n
  else match s.hbmBadUnit a n with
    | some u => (s.hbmUncorr e u).faultSect e 0x0A07
    | none => s

/-- Evaluation section e reads an area to take the version that it holds; data that HBM cannot correct are not delivered (R299, R302, R441). -/
def State.feedEval (s : State) (e a postmark : Nat) (bs : List Byte) : State :=
  let t := s.evalTouch e a bs.length
  if s.inPart 3 a bs.length && (s.hbmBadUnit a bs.length).isSome then t else t.startEvalCopy e postmark bs

/-- VERSION_COPY_DONE: the area holds the version; shipping and the evaluation copies start (R296, R299, R300). -/
def execVersionCopyDone (k : SectId) (s : State) : Host.Outcome State Fault Refusal :=
  let n := k.toNat
  .next (match (s.sectN n).copy with
    | none => s
    | some v =>
      let s := (s.setSectN n { s.sectN n with copy := none }).writeCopyArea n v
      let bs := s.copyArea v.area v.bytes.length
      let s := match (s.sectN n).snap with
        | some sn => if sn.shipping.isNone then (s.shipTouch n v.area v.bytes.length sn).ship n sn bs else s
        | none => s
      (s.evalSections n).foldl (fun (s : State) e => s.feedEval e v.area v.postmark bs) s)

/-- The bytes of a group in a version-copy area, by its record (R296). -/
def groupOfCopy (bs : List Byte) (g : Nat) : List Byte :=
  match (List.range (fieldAt bs 6 2)).find? fun i => fieldAt bs (64 + 32 * i) 2 == g with
  | some i => (bs.drop (fieldAt bs (64 + 32 * i + 16) 8)).take (fieldAt bs (64 + 32 * i + 24) 8)
  | none => []

/-- Writes the pieces that an evaluation image declares into its tiles (R299). -/
def State.writeEval (s : State) (p : ProgImage) (c : EvalCopy) : State :=
  p.evalPieces.foldl (fun (s : State) e =>
    s.outsideWrite e.ltn (if c.slotB then e.offB else e.offA) (((groupOfCopy c.bytes e.group).drop e.srcOff).take e.len) 1 e.ltn none) s

/-- EVAL_COPY_DONE: the copy is complete; the STEP that waited for it starts (R299). -/
def execEvalCopyDone (k : SectId) (s : State) : Host.Outcome State Fault Refusal :=
  let n := k.toNat
  .next (match (s.sectN n).evalCopy with
    | none => s
    | some c =>
      let s := ((s.sectN n).programs.filterMap (·.2)).foldl (fun (s : State) p => s.writeEval p c) s
      let s := s.setSectN n { s.sectN n with evalCopy := none }
      match (s.sectN n).evalWait with
      | some r => if stPostmark r.desc = c.postmark then s.startStep n r else s
      | none => s)

/-! ### SNAP_DONE (R300, R385) -/

/-- LAST frames of LVC6 that a link holds and the partner has not acknowledged. -/
def Link.lastsHeld (x : Link) : Nat :=
  let last := fun f : Frame => fhLvc f.header == 6 && bitOf f.header 5
  ((x.txq.toList.getD 6 []).filter last).length + ((x.replay.map fun f => (f.frames.filter last).length).foldl (· + ·) 0)

/-- Whether the flight with the n-th LAST frame has yet to be acknowledged (R385): a link's LVC6 frames go in order. -/
def Link.snapPending (x : Link) (n : Nat) : Bool := decide (x.lasts < n + x.lastsHeld)

/-- SNAP_DONE: the last byte has been written, or the flight with the LAST frame acknowledged. -/
def execSnapDone (k : SectId) (s : State) : Host.Outcome State Fault Refusal :=
  let n := k.toNat
  let x := s.sectN n
  .next (match x.snap with
    | none => s
    | some sn => match sn.shipping with
      | none => s
      | some bs =>
        let done := (s.setSectN n { x with snap := none })
        match sn.host with
        | some a => (done.hostWrite a bs).event 0x0409 n (items [sn.postmark])
        | none => if (s.linkN sn.link).snapPending sn.last then s else done.event 0x0409 n (items [sn.postmark]))

end Sys2Proof.Machine
end

