-- ==== Sys2Proof/Machine/Power.lean ====
section
/-! DEFINITION. Power.lean: resets, reference clock, boot oscillator, island loops, AVSBus readings, temperature and THERMTRIP_N (R391, R417-R439, R484, R485, R489). -/

namespace Sys2Proof.Machine

/-! ### Loops and rails -/

/-- Both VCORE rails have reached the boot voltage under Dyndirix's control (R429). -/
def Phys.bootVolts (p : Phys) : Bool := p.powered && !p.perst && p.boscReady && p.avs.all fun w => w.purpose != 0 && w.purpose != 4

/-- The boot controller switches each island whose loop is ready to LOOP, a cluster island once the VCORE rails have reached the boot voltage (R424, R429). -/
def Phys.settle (p : Phys) : Phys :=
  { p with loops := Vector.ofFn fun (i : Fin 101) =>
      let l := p.loops.get i
      if l.ready && (decide (64 ≤ i.val) || p.bootVolts) then { l with source := .loop } else l }

/-- settle, unless the host has selected BOSC (R424). -/
def State.settleClocks (s : State) : State := if bitOf (s.reg oClkSrc) 0 then { s with phys := s.phys.settle } else s

/-- The AVSBus controller writes the boot voltage to both VCORE rails and reads them back from then on (R429). -/
def Phys.startAvs (p : Phys) (now : Nat) : Phys :=
  if p.powered && !p.perst && p.boscReady then
    { (p.command now 0 750).command now 1 750 with avsRun := true, avs := [{ rail := 0, target := 750, purpose := 0 }, { rail := 1, target := 750, purpose := 0 }] }
  else p

/-- Loop of an island. -/
def Phys.loop (p : Phys) (i : Nat) : Loop := p.loops.toList.getD i {}

/-- Replaces a loop. -/
def Phys.setLoop (p : Phys) (i : Nat) (l : Loop) : Phys := { p with loops := p.loops.setIfInBounds i l }

/-! ### Resets (R391, R433-R435) -/

/-- Clocks, power and pins after a reset that reaches the boot controller; keep tells that the loops stay locked. The timestamp starts again, and a ramp goes on from where it is (R485). -/
def Phys.afterReset (p : Phys) (now : Nat) (keep : Bool) : Phys :=
  { powered := p.powered, vioOnly := p.vioOnly, tdo := if keep then p.tdo else none, perst := p.perst, boscReady := p.boscReady, refclk := p.refclk, windows := p.windows, lostAt := p.lostAt.map fun _ => 0
    thermtrip := p.thermtrip, smbus := keep && p.smbus, pufReads := p.pufReads
    rails := p.rails.map fun (r : Rail) => { commanded := r.commanded, rate := r.rate, origin := r.momentary now : Rail }
    loops := if keep then p.loops.map fun (l : Loop) => { l with source := .bosc } else Vector.replicate 101 {}
    opW := if keep then p.opW else 0, opE := if keep then p.opE else 0 }

/-- A reset that reaches the boot controller: the counter store alone is kept (R391). What has been sent to the host stays sent. -/
def State.bootReset (s : State) (keep : Bool) (pcie : Pcie) : State :=
  ({ store := s.cutStore, posted := s.posted, pending := s.pending, pcie := pcie, phys := (s.phys.afterReset s.tstamp keep).startAvs 0 } : State).settleClocks

/-- COLD_RESET: the supplies come up under R430, PERST# asserted (R433, R479). THERMTRIP_N is released by the removal of VIO18 alone (R489). -/
def execColdReset (s : State) : Host.Outcome State Fault Refusal :=
  .next { store := s.cutStore, posted := s.posted, pending := s.pending, phys := { powered := true, thermtrip := s.phys.thermtrip, pufReads := s.phys.pufReads } }

/-- POWER_DOWN: the supplies leave their ranges: the counter store alone survives, and THERMTRIP_N is held while VIO18 stays in range (R431, R432, R489, R490). VIO18 and VHU are the last to leave: the first such command takes the other rails, the next one these two (log 221). -/
def execPowerDown (s : State) : Host.Outcome State Fault Refusal :=
  let first := s.phys.powered
  .next { store := s.cutStore, posted := s.posted, pending := s.pending, phys := { vioOnly := first, thermtrip := first && s.phys.thermtrip, pufReads := s.phys.pufReads } }

/-- PERST: PERST# is asserted (R433). -/
def execPerst (s : State) : Host.Outcome State Fault Refusal :=
  .next (({ s with phys := { s.phys with perst := true } } : State).bootReset false {})

/-- PERST_DEASSERT: loops and AVSBus controller start (R429, R436). -/
def execPerstDeassert (s : State) : Host.Outcome State Fault Refusal :=
  .next (if s.phys.powered && s.phys.perst then { s with phys := ({ s.phys with perst := false } : Phys).startAvs s.tstamp } else s)

/-- HOT_RESET: PCIe hot reset, link disable or link down (R433). -/
def execHotReset (s : State) : Host.Outcome State Fault Refusal := .next (s.bootReset true {})

/-- FLR: the link is kept, the function's configuration space is reset (R433). -/
def execFlr (s : State) : Host.Outcome State Fault Refusal := .next (s.bootReset true { trained := s.pcie.trained, width := s.pcie.width, rate := s.pcie.rate })

/-- A write of GLB_RESET: KEY = 0xD1 and DEVICE = 1 reset the device (R433). -/
def State.writeGlbReset (s : State) (v : Nat) : State := if bitOf v 0 && bitsOf v 15 8 == 0xD1 then s.bootReset true s.pcie else s

/-- DEVICE_RESET: a write of GLB_RESET with KEY = 0xD1 and DEVICE = 1 in service, or a return from D3hot (R392, R433). -/
def execDeviceReset (value : Word) (fromD3 : Bool) (s : State) : Host.Outcome State Fault Refusal :=
  .next (if fromD3 then s.bootReset true s.pcie else if s.ready then s.writeGlbReset value.toNat else s)

/-! ### BOSC and REFCLK (R418-R420, R425) -/

/-- BOSC_READY: the start counter expires (R419). -/
def execBoscReady (s : State) : Host.Outcome State Fault Refusal :=
  .next (if s.phys.powered && !s.phys.boscReady then { s with phys := ({ s.phys with boscReady := true } : Phys).startAvs s.tstamp } else s)

/-- REFCLK is judged lost: every loop coasts (R425). -/
def State.refclkLost (s : State) : State :=
  let p := { s.phys with
    refclk := false, windows := 0, lostAt := some s.tstamp
    loops := s.phys.loops.map fun (l : Loop) => { l with ready := false, coasting := true } }
  (({ s with phys := p } : State).setReg oClkStatus (s.reg oClkStatus ||| 8)).event 0x0901 noSect []

/-- REFCLK is judged present: CLK_RESTORED with the duration of the loss, if there was one (R425). -/
def State.refclkPresent (s : State) : State :=
  let t : State := { s with phys := { s.phys with refclk := true, lostAt := none } }
  match s.phys.lostAt with
  | some a => t.event 0x0902 noSect (items [(s.tstamp + 2 ^ 64 - a) % 2 ^ 64])
  | none => t

/-- REFCLK_WINDOW: a window of 65,536 BOSC cycles with so many REFCLK edges (R418). -/
def execRefclkWindow (edges : Nat) (s : State) : Host.Outcome State Fault Refusal :=
  let p := s.phys
  .next (if !(p.powered && p.boscReady) then s
    else if 12000 ≤ edges ∧ edges ≤ 23000 then
      let n := min 4 (p.windows + 1)
      let s : State := { s with phys := { p with windows := n } }
      if n = 4 ∧ !p.refclk then s.refclkPresent else s
    else if p.refclk then s.refclkLost
    else { s with phys := { p with windows := 0 } })

/-- CLK_LOST: 64 BOSC cycles pass without a REFCLK edge (R418, R425). -/
def execClkLost (s : State) : Host.Outcome State Fault Refusal :=
  let p := s.phys
  .next (if !(p.powered && p.boscReady) then s else if p.refclk then s.refclkLost else { s with phys := { p with windows := 0 } })

/-- BOSC_TRIM: the trim is adjusted unless the count lies within 262,144 +- 1 % (R420). -/
def execBoscTrim (count : Nat) (s : State) : Host.Outcome State Fault Refusal :=
  let p := s.phys
  .next (if p.powered && p.boscReady && p.refclk && !(decide (99 * 262144 ≤ 100 * count) && decide (100 * count ≤ 101 * 262144)) then
      { s with phys := { p with boscTrim := Config.boscTrim p.boscTrim count } }
    else s)

/-! ### Loops (R423, R424) -/

/-- LOOP_READY: the lock detector of an island finds 4,096 cycles in band (R423). -/
def execLoopReady (island : BitVec 7) (s : State) : Host.Outcome State Fault Refusal :=
  let p := s.phys
  .next (if p.powered && !p.perst && p.refclk then
      ({ s with phys := p.setLoop island.toNat { p.loop island.toNat with ready := true, coasting := false } } : State).settleClocks
    else s)

/-- LOOP_UNLOCK: a locked loop leaves its band while REFCLK is present (R423). -/
def execLoopUnlock (island : BitVec 7) (s : State) : Host.Outcome State Fault Refusal :=
  let p := s.phys
  let l := p.loop island.toNat
  .next (if p.refclk && l.ready then
      ({ s with phys := p.setLoop island.toNat { l with ready := false, coasting := true } } : State).event 0x0904 noSect (items [island.toNat])
    else s)

/-! ### AVSBus (R427-R429, R484) -/

/-- Whether a reading lies within 10 mV of a target. -/
def avsNear (mv target : Nat) : Bool := decide (mv ≤ target + 10) && decide (target ≤ mv + 10)

/-- The staging area of the boot: the UPDATE partition of update die NW, at the die's base; overwritten with zeros, it lists nothing (R395). -/
def State.clearStage (s : State) : State :=
  { s with
    hbm := s.hbm.filter fun c => !(decide (hbmBase ≤ c.1) && decide (c.1 < hbmBase + s.boot.staged))
    boot := { s.boot with staged := 0 } }

/-- The boot ends in FAILED, the staging area cleared (R395, R397); ERR AVS answers for the rails that have failed so far (R429). -/
def State.bootFail (s : State) (err item : Nat) : State :=
  let s := s.clearStage
  { s with boot := { s.boot with phase := .failed, err := err, item := item, holdup := none, avsFailed := if err = 0x0D then [] else s.boot.avsFailed } }

/-- Takes a wait off the list. -/
def Phys.dropWait (p : Phys) (w : AvsWait) : Phys := { p with avs := p.avs.filter fun x => x != w }

/-- A rail has reached the boot voltage: OP 0 follows once both have (R429, R435). -/
def State.bootReached (s : State) (w : AvsWait) : State :=
  let p := (s.phys.dropWait w).reached w.rail
  let p := if p.bootVolts then { p with opW := 0, opE := 0 } else p
  ({ s with phys := p } : State).settleClocks

/-- A reading at the boot voltage (R429): after 100 us the rail has failed, and what it reads from then on is no reading that the boot waits for, but the islands still wait for it (log 222). -/
def State.bootReading (s : State) (w : AvsWait) (inWindow expired : Bool) : State :=
  if inWindow then s.bootReached w
  else if expired then
    { s with
      phys := { s.phys with avs := s.phys.avs.map fun x => if x = w then { w with purpose := 4 } else x }
      boot := { s.boot with avsFailed := if s.boot.avsFailed.contains w.rail then s.boot.avsFailed else s.boot.avsFailed ++ [w.rail] } }
  else s

/-- A late reading of the boot voltage of a rail that had failed to reach it (R429). -/
def State.lateReading (s : State) (rail mv : Nat) : State :=
  match s.phys.avs.find? fun w => w.rail == rail && w.purpose == 4 with
  | some w => if avsNear mv w.target then s.bootReached w else s
  | none => s

/-- A reading at the TRIMS voltage (R429). -/
def State.trimReading (s : State) (w : AvsWait) (inWindow expired : Bool) : State :=
  if inWindow then { s with phys := (s.phys.dropWait w).reached w.rail }
  else if expired then
    let s : State := { s with phys := (s.phys.dropWait w).command s.tstamp w.rail 750 }
    if s.boot.phase = .starting then s.bootFail 0x0D w.rail else s
  else s

/-- A reading at a voltage that a device seal raises (R427). -/
def State.raiseReading (s : State) (w : AvsWait) (inWindow expired : Bool) (status : Nat) : State :=
  if inWindow then { s with phys := { (s.phys.dropWait w).reached w.rail with avs := (s.phys.dropWait w).avs ++ [{ w with purpose := 3 }] } }
  else if expired then (s.refuseDevice oPwrOp).event 0x0906 noSect (items [w.rail, status])
  else s

/-- AVS_READBACK: a reading of a VCORE rail whose commanded voltage Dyndirix reads back (R427, R429). -/
def execAvsReadback (rail : BitVec 1) (mv : Nat) (status : BitVec 16) (expired : Bool) (s : State) : Host.Outcome State Fault Refusal :=
  .next (match s.phys.avs.find? fun w => w.rail == rail.toNat && decide (w.purpose < 3) with
    | none => s.lateReading rail.toNat mv
    | some w =>
      let s : State := ({ s with phys := { s.phys with avsOk := true } } : State).lateReading rail.toNat mv
      let near := avsNear mv w.target
      match w.purpose with
      | 0 => s.bootReading w near expired
      | 1 => s.trimReading w near expired
      | _ => s.raiseReading w near expired status.toNat)

/-- Whether a reading in mV lies in a rail's range (R484): of a VCORE rail, the value commanded at that moment, 25 mV either way. -/
def Phys.inRange (p : Phys) (now r mv : Nat) : Bool :=
  match r with
  | 2 => decide (728 ≤ mv) && decide (mv ≤ 772)
  | 3 => decide (728 ≤ mv) && decide (mv ≤ 772)
  | 4 => decide (882 ≤ mv) && decide (mv ≤ 918)
  | _ => decide (mv ≤ (p.rail r).momentary now + 25) && decide ((p.rail r).momentary now ≤ mv + 25)

/-- RAIL_MONITOR: the 1 ms reading of one of the five rails of R428: the TELEM block, RAIL_RANGE once per excursion, AVS_FAULT (R429). -/
def execRailMonitor (rail : BitVec 3) (answered : Bool) (mv amp c : Nat) (status : BitVec 16) (s : State) : Host.Outcome State Fault Refusal :=
  let p := s.phys
  let r := rail.toNat
  .next (if !(p.powered && !p.perst && p.boscReady) || decide (4 < r) then s
    else
      let s : State := { s with phys := { p with avsOk := answered } }
      let s := if answered then
          let out := !p.inRange s.tstamp r mv
          let x := { p.rail r with mv := min mv 4095, amp := min amp 4095, c := min c 255, posted := out }
          let s : State := { s with phys := { s.phys with rails := s.phys.rails.setIfInBounds r x } }
          if out && !(p.rail r).posted then s.event 0x0907 noSect (items [r, mv]) else s
        else s
      if !answered || Config.avsFault status then s.event 0x0906 noSect (items [r, status.toNat]) else s)

/-! ### Temperature (R304, R437, R438, R489) -/

/-- THERMTRIP_N is asserted once (R438). -/
def State.trip (s : State) (sensor : Nat) : State :=
  if s.phys.thermtrip then s
  else ({ s with phys := { s.phys with thermtrip := true } } : State).event 0x0909 noSect (items [sensor])

/-- TEMP_WARN, once until every reading has fallen 2 degrees below the threshold (R437). -/
def State.tempWarn (s : State) (rs : List Nat) : State :=
  let t := s.reg oPwrTwarn % 128
  match rs.zipIdx.find? fun e => decide (t < e.1) with
  | some e =>
    if s.phys.warned then s
    else ({ s with phys := { s.phys with warned := true } } : State).event 0x0908 noSect (items [e.2, e.1])
  | none => if rs.all fun r => decide (r + 2 ≤ t) then { s with phys := { s.phys with warned := false } } else s

/-- TEMP_SAMPLE: the 1 ms readings of the 76 sensors, saturated at 255 (R437, R438). -/
def execTempSample (readings : List Nat) (s : State) : Host.Outcome State Fault Refusal :=
  let rs := readings.map (min 255)
  .next (if !(s.phys.powered && s.phys.boscReady) then s
    else
      let s : State := { s with phys := { s.phys with temps := Vector.ofFn fun (i : Fin 76) => rs.getD i.val 0 } }
      let s := s.tempWarn rs
      match (rs.take 64).zipIdx.find? fun e => decide (115 ≤ e.1) with
      | some e => s.trip e.2
      | none => s)

/-- THERMTRIP_N: a compute-die sensor reads 115 degrees or more, in whatever state the device is, as long as VIO18 is in range (R438, R489, R490). -/
def execThermtripN (sensor : BitVec 6) (c : Nat) (s : State) : Host.Outcome State Fault Refusal :=
  .next (if (s.phys.powered || s.phys.vioOnly) && decide (115 ≤ c) then s.trip sensor.toNat else s)

/-- HBM_TEMP_SAMPLE: the 1 ms readings of the stacks, which the refresh rate follows (R304). -/
def execHbmTempSample (readings : List Nat) (s : State) : Host.Outcome State Fault Refusal :=
  .next (if !(s.phys.powered && s.phys.boscReady) then s else { s with phys := { s.phys with hbmTemp := Vector.ofFn fun (i : Fin 8) => min 255 (readings.getD i.val 0) } })

/-- HBM_ECS: the 1 s reading of the ECS counts; a rise posts HBM_ECS (R304). -/
def execHbmEcs (counts : List Nat) (s : State) : Host.Outcome State Fault Refusal :=
  let cs := counts.map (min 0xFFFFFF)
  .next (if !(s.phys.powered && s.phys.boscReady) then s
    else
      let rise := cs.zipIdx.any fun e => decide (Sparse.get 0 s.phys.ecs e.2 < e.1)
      let s : State := { s with phys := { s.phys with ecs := Sparse.run 0 0 cs } }
      if rise then s.event 0x040A noSect [] else s)

/-! ### SMBus (R415, R482) -/

/-- SMBUS_READY: PERST# + 10 ms. -/
def execSmbusReady (s : State) : Host.Outcome State Fault Refusal :=
  .next (if s.phys.powered && !s.phys.perst && s.phys.boscReady then { s with phys := { s.phys with smbus := true } } else s)

end Sys2Proof.Machine
end

