-- ==== Sys2Proof/Machine/Links.lean ====
section
/-! DEFINITION. Links.lean: Xagon links: flights, retry, lanes and widths, opening and closing, barrier frames and snapshots received (R359-R376, R381-R390). -/

namespace Sys2Proof.Machine

/-! ### Widths (R370, R449) -/

/-- The lowest-numbered lane of a mask, as a mask. -/
def lowLane (m : Nat) : Nat :=
  match (List.range 4).find? (bitOf m) with
  | some n => 2 ^ n
  | none => 0

/-- Two lanes, or the lowest-numbered good lane, of the lanes in m: the pair {0, 1} or {2, 3} (R370). -/
def pairOf (m : Nat) : Nat := if m &&& 3 = 3 then 3 else if m &&& 12 = 12 then 12 else lowLane m

/-- The widest width that WIDTH_MAX allows of the lanes that are good. -/
def widestLanes (code good : Nat) : Nat :=
  match code with
  | 1 => pairOf good
  | 2 => lowLane good
  | _ => if good = 15 then 15 else pairOf good

/-- Number of lanes of a mask. -/
def laneCount (m : Nat) : Nat := weight 4 m

/-- The next smaller width of a link whose good lanes are given (R370): a link of one lane moves to the lowest good lane, and one that has no good lane keeps its lanes. -/
def smallerLanes (lanes good : Nat) : Nat :=
  let m := if laneCount lanes = 4 then pairOf good else lowLane good
  if m = 0 then lanes else m

/-- The active lane that carries symbol i of a codeword, of the active lanes in ascending order (R360). -/
def laneOfSymbol (lanes i : Nat) : Option Nat := ((List.range 4).filter (bitOf lanes))[i % laneCount lanes]?

/-- Lane n of one end is lane 3 - n of the other (R360). -/
def mirrored (m : Nat) : Nat := (m % 2) * 8 + (m / 2 % 2) * 4 + (m / 4 % 2) * 2 + m / 8 % 2

/-- Lanes of a link that have not failed and are not excluded. -/
def Link.good (x : Link) : Nat := 15 &&& (0xF ^^^ (x.badLanes ||| x.excluded))

/-- The lanes of a mask that the link may use: those the repair map excludes are never used, and of the rest the widest width that R370 forms (R449). -/
def Link.allowed (x : Link) (m : Nat) : Nat := if m &&& x.excluded = 0 then m else pairOf (m &&& (0xF ^^^ x.excluded))

/-- XLINK_CTL fields of link l. -/
def State.linkCtl (s : State) (l : Nat) : Nat := s.reg (oXlink l)
def State.autoDegrade (s : State) (l : Nat) : Bool := bitOf (s.linkCtl l) 4

/-- A lane mask that the partner reports, in this end's lanes: XLINK_CTL.REVERSE maps them (R360, log 179). -/
def State.ownLanes (s : State) (l m : Nat) : Nat := if bitOf (s.linkCtl l) 5 then mirrored m else m

/-- Adds to a counter of link l: 0 CORR, 1 UNCORR, 2 CRC, 3 RETRY, 4 WIDTH (R390). -/
def State.linkCount (s : State) (l i n : Nat) : State := s.count (oXlink l + 0x10 + 4 * i) 0 n

/-! ### Flights (R361-R363, R367-R369) -/

/-- The order in which LVCs fill frame slots (R367). -/
def lvcOrder : List Nat := [7, 5, 0, 1, 2, 3, 4, 6]

/-- The LVCs that a chip's links carry: a failed chip's only link control and LVC5 (R446). -/
def State.sendOrder (s : State) : List Nat := if s.repair.failed then [7, 5] else lvcOrder

/-- An empty frame slot (R366). -/
def nullFrame : Frame := { header := 7, data := fillBytes 256 0 }

/-- Whether the first frame of an LVC may leave: LVC7 needs no credit. -/
def Link.maySend (x : Link) (v : Nat) : Bool := !(x.txq.toList.getD v []).isEmpty && (v == 7 || decide (0 < x.credits.toList.getD v 0))

/-- The frame that fills the next slot, in the order given. -/
def Link.takeFrame (x : Link) (order : List Nat) : Link × Frame :=
  match order.find? x.maySend with
  | some v =>
    match x.txq.toList.getD v [] with
    | f :: rest =>
      ({ x with txq := x.txq.setIfInBounds v rest, credits := if v = 7 then x.credits else x.credits.setIfInBounds v (x.credits.toList.getD v 0 - 1) }, f)
    | [] => (x, nullFrame)
  | none => (x, nullFrame)

/-- The CREDIT byte of the next flight: one LVC in rotation, up to 31 frames (R362, R367). -/
def Link.takeCredit (x : Link) : Link × Nat :=
  match (List.range 8).find? fun i => decide (0 < x.toReturn.toList.getD ((x.lastReturn + 1 + i) % 8) 0) with
  | some i =>
    let v := (x.lastReturn + 1 + i) % 8
    let n := min 31 (x.toReturn.toList.getD v 0)
    ({ x with toReturn := x.toReturn.setIfInBounds v (x.toReturn.toList.getD v 0 - n), lastReturn := v }, v + 8 * n)
  | none => (x, 0)

/-- The 800 bytes of a flight with the current ACK and NAK (R362). -/
def Link.flightBytes (x : Link) (f : Flight) : List Byte :=
  let head := f.frames.flatMap (fun g => leBytes 8 g.header) ++ leBytes 3 (f.fseq + 2 ^ 10 * ((x.fseqRx + 1023) % 1024) + 2 ^ 20 * boolNat x.nakSend) ++ leBytes 1 f.credit
  let data := f.frames.flatMap (fun g => padTo 256 g.data)
  head ++ leBytes 4 (crc32 (head ++ data)).toNat ++ data

/-- The blocks of a flight: a control block, type bit 1, and 24 data blocks, type bit 0 (R361). -/
def flightBlocks (b : List Byte) : List (Bool × List Byte) := (List.range 25).map fun i => (i == 0, (b.drop (32 * i)).take 32)

/-- The flight that begins at the first control block of a sequence of blocks, by the type bits (R361). -/
def flightOf (bs : List (Bool × List Byte)) : List Byte := ((bs.dropWhile fun e => !e.1).take 25).flatMap (·.2)

/-- Whether a flight stands in a sequence of blocks: from its first control block on, one control block and 24 data blocks of 32 bytes each (R361). -/
def flightFound (bs : List (Bool × List Byte)) : Bool :=
  let f := (bs.dropWhile fun e => !e.1).take 25
  f.length == 25 && (f.drop 1).all (fun e => !e.1) && f.all fun e => e.2.length == 32

/-- A new flight. -/
def Link.newFlight (x : Link) (order : List Nat) : Link :=
  if 256 ≤ x.replay.length then
    { x with sent := flightBlocks <| x.flightBytes { fseq := (Config.nullFlightSeq x.fseqTx).toNat, frames := [nullFrame, nullFrame, nullFrame], credit := 0 } }
  else
    let a := x.takeFrame order
    let b := a.1.takeFrame order
    let c := b.1.takeFrame order
    let d := c.1.takeCredit
    let f : Flight := { fseq := x.fseqTx, frames := [a.2, b.2, c.2], credit := d.2 }
    { d.1 with replay := d.1.replay ++ [f], fseqTx := (x.fseqTx + 1) % 1024, sent := flightBlocks (d.1.flightBytes f) }

/-- A LINK_STATE frame that requests lanes (R366). -/
def linkStateFrame (chip link lanes : Nat) : Frame :=
  { header := 7 + 8, data := padTo 256 (leBytes 2 chip ++ leBytes 1 link ++ leBytes 1 (laneCount lanes) ++ leBytes 1 lanes) }

/-- A retrain begins: credits and replay buffer are kept (R371). -/
def Link.retrainTo (x : Link) (lanes : Nat) : Link := { x with phase := .retraining, wantLanes := lanes }

/-- This end asks for a retrain by a LINK_STATE frame and retrains (R370). -/
def State.startRetrain (s : State) (l lanes : Nat) : State :=
  let x := s.linkN l
  if x.phase = .active then
    s.setLinkN l (((x.enqueue 7 (linkStateFrame (s.reg oChipId) l lanes)).newFlight s.sendOrder).retrainTo lanes)
  else s

/-- A cause of R370: the link retrains at a smaller width. -/
def State.degrade (s : State) (l : Nat) : State :=
  let x := s.linkN l
  if s.autoDegrade l then s.startRetrain l (smallerLanes x.lanes x.good) else s

/-- A resend begins (R368). -/
def Link.beginResend (x : Link) : Link := { x with resend := x.replay.length }

/-- FLIGHT_SEND: the next flight of a resend, else a new one (R361, R367-R369). -/
def execFlightSend (l : LinkId) (s : State) : Host.Outcome State Fault Refusal :=
  let n := l.toNat
  let x := s.linkN n
  .next (if x.phase ≠ .active then s
    else match x.replay[x.replay.length - x.resend]?, x.resend with
      | some f, r + 1 =>
        let first := r + 1 == x.replay.length
        let y := { x with resend := r, resends := x.resends + boolNat first, sent := flightBlocks (x.flightBytes f) }
        let s := (s.setLinkN n y).linkCount n 3 1
        if first && y.resends == 8 then s.degrade n else s
      | _, _ => s.setLinkN n (x.newFlight s.sendOrder))

/-- RESEND_TIMEOUT: 2 us after the resend began the expected flight has not been accepted, whether or not the resend still runs (R368). -/
def execResendTimeout (l : LinkId) (s : State) : Host.Outcome State Fault Refusal :=
  let n := l.toNat
  let x := s.linkN n
  .next (if x.phase = .active ∧ x.nakSeen ∧ !x.replay.isEmpty then s.setLinkN n x.beginResend else s)

/-! ### Frames of LVC5 (R381-R384) -/

/-- One credit of an LVC goes back to the partner. -/
def State.returnCredit (s : State) (l v : Nat) : State :=
  let y := s.linkN l
  s.setLinkN l { y with toReturn := y.toReturn.setIfInBounds v (y.toReturn.toList.getD v 0 + 1) }

/-- INDEX and BSEQ of a barrier frame. -/
def bfIndex (h : Nat) : Nat := bitsOf h 23 8
def bfBseq (h : Nat) : Nat := bitsOf h 55 24

/-- RECORD of the barrier that section k stands at. -/
def State.barrierRecord (s : State) (k : Nat) : Nat :=
  match s.barrierIndex k with
  | some i => index16 i
  | none => (s.sectN k).exchange.getD 0

/-- A barrier frame reaches the section of its link. -/
def State.barrierFrame (s : State) (k l : Nat) (f : Frame) : State :=
  let x := s.sectN k
  let sp := x.spanTable
  let child := bitOf (spanChildren sp) l
  let parent := decide (spanParent sp < 32) && spanParent sp == l
  if !s.joined k || x.phase == .off || x.phase == .faulted || !(child || parent) then s
  else match fhKind f.header with
    | 0 =>
      if child then s.setSectN k { x with span := { x.span with arrived := x.span.arrived ++ [(l, bfIndex f.header, bfBseq f.header)] } } else s
    | 1 => if parent then s.setSectN k { x with span := { x.span with released := true } } else s
    | 2 =>
      let chip := fieldAt f.data 0 2
      let code := fieldAt f.data 2 2
      (s.event 0x0707 k (items [chip, code])).faultSectFrom k code chip (some l)
    | _ =>
      if child then s.setSectN k { x with span := { x.span with childState := x.span.childState ++ stateOfFrame f } }
      else
        let s := s.captureFrame k l (s.barrierRecord k) f
        let y := s.sectN k
        s.setSectN k { y with span := { y.span with rootState := y.span.rootState ++ stateOfFrame f } }

/-- A frame of LVC5 is consumed and its credit returned. -/
def State.lvc5 (s : State) (l : Nat) (f : Frame) : State :=
  let s := s.returnCredit l 5
  match s.linkSect l with
  | some k => s.barrierFrame k l f
  | none => s

/-! ### Frames of LVC6 (R386) -/

/-- A snapshot frame is refused. -/
def State.snapRefused (s : State) (chip offset n : Nat) : Bool :=
  let other := match s.snapRx with
    | some r => r.1 != chip
    | none => false
  !bitOf (s.reg oSnapRxBase) 24 || decide (65536 * s.reg oSnapRxLen < offset + n) || other

/-- Writes the bytes of a snapshot frame, which lie in the SNAPSHOT partition (R302). -/
def State.snapWrite (s : State) (a origin : Nat) (bs : List Byte) : State :=
  if s.inPart 3 a bs.length then s.hbmWrite a bs else s.deadLetter 9 4 true a origin bs.length

/-- A frame of LVC6: written into the receive area; SNAP_RX_DONE after the LAST one. A failed chip discards it (R446). -/
def State.lvc6 (s : State) (l : Nat) (f : Frame) : State :=
  let s := s.returnCredit l 6
  let h := f.header
  let chip := (s.linkN l).peerChip
  let offset := 64 * bitsOf h 41 8
  let n := 64 * (bitsOf h 7 6 + 1)
  let last := bitOf h 5
  let base := 65536 * bitsOf (s.reg oSnapRxBase) 23 0
  let origin := chip + 65536 * l
  if s.repair.failed then s
  else if s.snapRefused chip offset n then
    let s := s.deadLetter 0x21 4 true (base + offset) origin n
    if last && (s.snapRx.map (·.1)) == some chip then { s with snapRx := none } else s
  else
    let got := n + (if offset = 0 then 0 else (s.snapRx.map (·.2)).getD 0)
    let open_ := offset == 0 || s.snapRx.isSome
    let s := s.snapWrite (base + offset) origin (f.data.take n)
    if last then ({ s with snapRx := none } : State).event 0x0709 noSect (items [chip, s.hbm.readLe base 4, got])
    else if open_ then { s with snapRx := some (chip, got) } else s

/-! ### Receipt (R363, R368) -/

/-- A LINK_STATE frame: the first one since the link opened is the partner's greeting (R375); a later one asks for a retrain, which this end begins as well, also at its present lanes, never on a lane that its repair map excludes (R370, R449, log 180). -/
def State.lvc7 (s : State) (l : Nat) (f : Frame) : State :=
  let x := s.linkN l
  let want := x.allowed (s.ownLanes l (fieldAt f.data 4 1 % 16))
  if fhKind f.header ≠ 1 then s
  else if !x.greeted then s.setLinkN l { x with greeted := true }
  else if x.phase = .active ∧ want ≠ 0 then s.setLinkN l (x.retrainTo want) else s

/-- One frame of an accepted flight is delivered. -/
def State.deliver (s : State) (l : Nat) (f : Frame) : State :=
  match fhLvc f.header with
  | 5 => s.lvc5 l f
  | 6 => s.lvc6 l f
  | 7 => s.lvc7 l f
  | v =>
    let x := s.linkN l
    (s.setLinkN l { x with rxq := x.rxq.setIfInBounds v (x.rxq.toList.getD v [] ++ [f]) }).drainLink l

/-- Frame n of a flight. -/
def flightFrame (b : List Byte) (n : Nat) : Frame := { header := fieldAt b (8 * n) 8, data := (b.drop (32 + 256 * n)).take 256 }

/-- The SEQ word, CREDIT and CRC of a flight, and whether its CRC is correct. -/
def flSeq (b : List Byte) : Nat := fieldAt b 24 3
def flCredit (b : List Byte) : Nat := fieldAt b 27 1
def flightCrcOk (b : List Byte) : Bool := BitVec.ofNat 32 (fieldAt b 28 4) == crc32 (b.take 28 ++ b.drop 32)

/-- An ACK releases the flights that it covers. -/
def Link.acknowledge (x : Link) (ack : Nat) : Link :=
  match x.replay.findIdx? fun f => f.fseq == ack with
  | some i =>
    let r := x.replay.drop (i + 1)
    { x with replay := r, resend := min x.resend r.length, resends := 0 }
  | none => x

/-- NAK: the first one of an episode begins a resend. -/
def Link.takeNak (x : Link) (nak : Bool) : Link :=
  if !nak then { x with nakSeen := false }
  else if x.nakSeen then x
  else { x.beginResend with nakSeen := true }

/-- CREDIT: frames returned for an LVC. -/
def Link.addCredit (x : Link) (c : Nat) : Link :=
  let v := c % 8
  { x with credits := x.credits.setIfInBounds v (x.credits.toList.getD v 0 + c / 8) }

/-- Whether a link accepts a flight. -/
def Link.accepts (x : Link) (b : List Byte) (uncorrectable : Nat) : Bool :=
  uncorrectable == 0 && flightCrcOk b && bitsOf (flSeq b) 9 0 == x.fseqRx

/-- A flight arrives on an ACTIVE link with the corrected symbols and uncorrectable codewords of what it overlaps (R363, R368). -/
def State.receiveFlight (s : State) (n : Nat) (flight : List Byte) (corrected uncorrectable : Nat) : State :=
  let x := s.linkN n
  let s := ((s.linkCount n 0 corrected).linkCount n 1 uncorrectable).linkCount n 2 (boolNat (!flightCrcOk flight))
  if !x.accepts flight uncorrectable then s.setLinkN n { x with nakSend := true }
  else
    let s := s.setLinkN n { x with fseqRx := (x.fseqRx + 1) % 1024, nakSend := false }
    let s := (List.range 3).foldl (fun (s : State) i => s.deliver n (flightFrame flight i)) s
    s.setLinkN n ((((s.linkN n).addCredit (flCredit flight)).acknowledge (bitsOf (flSeq flight) 19 10)).takeNak (bitOf (flSeq flight) 20))

/-- FLIGHT_RECEIVE: the receiver finds the flight's boundaries from the type bits of the blocks that arrive (R361, R363). Blocks in which no flight stands are received as no flight (log 223). -/
def execFlightReceive (l : LinkId) (blocks : List (Bool × List Byte)) (corrected uncorrectable : Nat) (s : State) : Host.Outcome State Fault Refusal :=
  let n := l.toNat
  .next (if (s.linkN n).phase ≠ .active then s
    else if flightFound blocks then s.receiveFlight n (flightOf blocks) corrected uncorrectable
    else ((s.linkCount n 0 corrected).linkCount n 1 uncorrectable).setLinkN n { s.linkN n with nakSend := true })

/-! ### Lanes and retraining (R370-R372) -/

/-- LANE_LOSS: a lane loses signal or codeword lock. -/
def execLaneLoss (l : LinkId) (lane : BitVec 2) (s : State) : Host.Outcome State Fault Refusal :=
  let n := l.toNat
  let x := s.linkN n
  .next (if x.phase = .active ∧ bitOf x.lanes lane.toNat then
      let s := s.setLinkN n { x with badLanes := x.badLanes ||| 2 ^ lane.toNat }
      if s.autoDegrade n then s.degrade n else s.startRetrain n x.lanes
    else s)

/-- LANE_MONITOR: corrected symbols of a lane in 1 ms. -/
def execLaneMonitor (l : LinkId) (lane : BitVec 2) (symbols : Nat) (s : State) : Host.Outcome State Fault Refusal :=
  let n := l.toNat
  let x := s.linkN n
  .next (if x.phase = .active ∧ bitOf x.lanes lane.toNat ∧ bitsOf (s.linkCtl n) 23 8 < symbols ∧ s.autoDegrade n then
      (s.setLinkN n { x with badLanes := x.badLanes ||| 2 ^ lane.toNat }).degrade n
    else s)

/-- LINK_DEGRADED: a retrain completes; each sender resends from the partner's last ACK; a smaller width is counted and posted (R371). -/
def execLinkDegraded (l : LinkId) (s : State) : Host.Outcome State Fault Refusal :=
  let n := l.toNat
  let x := s.linkN n
  .next (if x.phase = .retraining ∧ x.wantLanes ≠ 0 then
      let y := { x with phase := .active, lanes := x.wantLanes, retrainBit := false, resends := 0 }
      let s := s.setLinkN n { y.beginResend with nakSeen := true }
      if laneCount x.wantLanes < laneCount x.lanes then
        (s.linkCount n 4 1).event 0x0702 noSect (items [n, laneCount x.wantLanes, x.wantLanes])
      else s
    else s)

/-- A link loses everything it holds; what the registers report of the partner and the lanes that the repair map excludes stay (R372, R374, R390). -/
def Link.cleared (x : Link) (phase : LinkPhase) (isOpen : Bool) : Link :=
  { phase := phase, isOpen := isOpen, excluded := x.excluded, peerChip := x.peerChip, peerLink := x.peerLink }

/-- Sections whose span table uses a link enter FAULTED, and a snapshot that was being shipped on it ends (R372, R374). -/
def State.linkGone (s : State) (l code : Nat) : State :=
  (List.range 16).foldl (fun (s : State) k =>
    let x := s.sectN k
    let lost := match x.snap with
      | some sn => sn.host.isNone && sn.shipping.isSome && sn.link == l
      | none => false
    let s := if lost then s.setSectN k { x with snap := none } else s
    if spanUsed x.spanTable l then s.faultSect k code else s) s

/-- LINK_DOWN: a retrain has not completed within 10 ms (R372). -/
def execLinkDown (l : LinkId) (s : State) : Host.Outcome State Fault Refusal :=
  let n := l.toNat
  let x := s.linkN n
  .next (if x.phase = .retraining then
      ((s.setLinkN n (x.cleared .failed x.isOpen)).event 0x0703 noSect (items [n])).linkGone n 0x0703
    else s)

/-- LINK_UP: training completes, this end sends its LINK_STATE frame and the partner's names the partner (R375). -/
def execLinkUp (l : LinkId) (chip : BitVec 16) (link : LinkId) (s : State) : Host.Outcome State Fault Refusal :=
  let n := l.toNat
  let x := s.linkN n
  .next (if x.phase = .training then
      let y := { x with phase := .active, lanes := x.wantLanes, peerChip := chip.toNat, peerLink := link.toNat }
      (s.setLinkN n (y.enqueue 7 (linkStateFrame (s.reg oChipId) n x.wantLanes))).event 0x0701 noSect
        (items [n, laneCount x.wantLanes, chip.toNat, link.toNat])
    else s)

/-! ### XLINK_CTL (R374, R390) -/

/-- Whether LINK_OPEN = 1 of an IDLE link is refused: the firmware is not verified or the chip ID is not set (R374). -/
def State.openRefused (s : State) : Bool := !s.boot.verified || s.reg oChipId == 0xFFFF

/-- An IDLE link begins training (R374). -/
def State.openLink (s : State) (l : Nat) : State :=
  let x := s.linkN l
  s.setLinkN l { x.cleared .training true with wantLanes := widestLanes (bitsOf (s.linkCtl l) 3 2) (15 &&& (0xF ^^^ x.excluded)) }

/-- LINK_OPEN = 0: the link returns to IDLE at once (R374). -/
def State.closeLink (s : State) (l : Nat) : State :=
  let x := s.linkN l
  (s.setLinkN l (x.cleared .idle false)).linkGone l Config.closeAbortCode.toNat

/-- RETRAIN = 1: at the widest width that WIDTH_MAX allows (R390). -/
def State.hostRetrain (s : State) (l : Nat) : State :=
  let x := s.linkN l
  if x.phase = .active then
    let s := s.setLinkN l { x with retrainBit := true, badLanes := 0 }
    s.startRetrain l (widestLanes (bitsOf (s.linkCtl l) 3 2) (15 &&& (0xF ^^^ x.excluded)))
  else s

/-- What XLINK_CTL holds after a write: REVERSE changes only while the link is IDLE. -/
def State.linkCtlWritten (s : State) (l v : Nat) : Nat :=
  if (s.linkN l).phase = .idle then v &&& 0x00FFFF3C else (v &&& 0x00FFFF1C) ||| (s.linkCtl l &&& 0x20)

/-- A write of XLINK_CTL of link l; one that would open an IDLE link is ignored whole where it is refused (R374). -/
def State.writeXlinkCtl (s : State) (l v : Nat) : State :=
  let x := s.linkN l
  let opens := bitOf v 0 && x.phase == .idle
  if opens && s.openRefused then s.setReg (oXlink l + 4) (s.reg (oXlink l + 4) ||| 0x200)
  else
    let s := s.setReg (oXlink l) (s.linkCtlWritten l v)
    let s := if opens then s.openLink l else if !bitOf v 0 && x.isOpen then s.closeLink l else s
    if bitOf v 1 then s.hostRetrain l else s

/-- LINK_OPEN: a write of XLINK_CTL with LINK_OPEN = 1. -/
def execLinkOpen (l : LinkId) (value : Word) (s : State) : Host.Outcome State Fault Refusal :=
  .next (if s.ready && bitOf value.toNat 0 then s.writeXlinkCtl l.toNat value.toNat else s)

/-- LINK_CLOSE: a write of XLINK_CTL with LINK_OPEN = 0. -/
def execLinkClose (l : LinkId) (value : Word) (s : State) : Host.Outcome State Fault Refusal :=
  .next (if s.ready && !bitOf value.toNat 0 then s.writeXlinkCtl l.toNat value.toNat else s)

/-- RETRAIN: a write of XLINK_CTL with RETRAIN = 1. -/
def execRetrain (l : LinkId) (value : Word) (s : State) : Host.Outcome State Fault Refusal :=
  .next (if s.ready && bitOf value.toNat 1 then s.writeXlinkCtl l.toNat value.toNat else s)

end Sys2Proof.Machine
end

