-- ==== Sys2Proof/Machine/Repair.lean ====
section
/-! DEFINITION. Repair.lean: fencing, chip failure, post-package repair of HBM rows (R442, R444-R448, R466). -/

namespace Sys2Proof.Machine

/-! ### Fencing (R442-R444) -/

/-- The section byte of a cluster: 0xFF where no section holds it. -/
def State.sectByte (s : State) (cluster : Nat) : Nat := (s.sectOf cluster).getD noSect

/-- The logical tile of a physical tile, packed as in R353; none when its slot is unmapped. -/
def State.ltnOf (s : State) (phys : Nat) : Option Nat :=
  let c := phys / 64
  (((s.slotMap c).zipIdx).find? fun e => e.1 == phys % 64).map fun e => 32 * c + e.2

/-- Every bank OFF, its contents lost (R211, R442). -/
def Tile.allOff (t : Tile) : Tile :=
  { t with ts := { t.ts with bytes := [], flips := [], held := [], banks := t.ts.banks.map fun (b : TsBank) => { b with st := .off, target := none } } }

/-- The unfenced slots of a cluster. -/
def Repair.usable (r : Repair) (cluster : Nat) : Nat := ((List.range 33).filter fun n => !r.isFenced cluster n).length

/-- A cluster with fewer than 32 unfenced slots becomes DEGRADED (R444). -/
def State.markDegraded (s : State) (cluster : Nat) : State :=
  if s.repair.usable cluster < 32 ∧ !s.repair.degraded.contains cluster then
    ({ s with repair := { s.repair with degraded := s.repair.degraded ++ [cluster] } } : State).event 0x0A04 (s.sectByte cluster) (items [cluster])
  else s

/-- The fence of a physical tile (R442). -/
def State.fenceTile (s : State) (phys : Nat) : State :=
  let c := phys / 64
  let ltn := s.ltnOf phys
  let s : State := { s with repair := { s.repair with fenced := s.repair.fenced ++ [phys] } }
  let s := match ltn with
    | some n => s.setTileN n (s.tileN n).allOff
    | none => { s with spares := Sparse.set {} s.spares phys (Sparse.get ({} : Tile) s.spares phys).allOff }
  s.markDegraded c

/-- Whether a cluster belongs to a section that is RUNNING, SWITCHING or HELD. -/
def State.clusterBusy (s : State) (cluster : Nat) : Bool :=
  match s.sectOf cluster with
  | some k => (s.sectN k).phase == .running || (s.sectN k).phase == .switching || (s.sectN k).phase == .held
  | none => false

/-- Why a fence is refused (R442). -/
def State.fenceRefused (s : State) (phys : Nat) : Option Nat :=
  if s.clusterBusy (phys / 64) then some 1 else if s.repair.fenced.contains phys then some 2 else none

/-- A write of FAULT_FENCE (R442, R444). -/
def State.writeFence (s : State) (v : Nat) : State :=
  let phys := v % 4096
  if 32 < phys % 64 then s
  else
    let c := phys / 64
    let b := s.sectByte c
    match s.fenceRefused phys with
    | some r => s.event 0x0A03 b (items [phys, r])
    | none =>
      let ltn := s.ltnOf phys
      let n := ltn.getD 0xFFFF
      let s := ((s.fenceTile phys).event 0x0A02 b (items [phys, n])).postbook 6 b 0 false (padTo 64 (leBytes 2 phys ++ leBytes 2 n))
      match ltn, s.sectOf c with
      | some _, some k => s.discardPrograms k
      | _, _ => s

/-- FAULT_FENCE (R442). -/
def execFaultFence (value : Word) (s : State) : Host.Outcome State Fault Refusal := .next (if s.ready then s.writeFence value.toNat else s)

/-! ### Chip failure (R445, R446) -/

/-- CHIP_FAILED: a shared unit fails: every section stops, every span is told (R446). -/
def execChipFailed (cause : BitVec 3) (loc : BitVec 12) (s : State) : Host.Outcome State Fault Refusal :=
  .next (if cause = 0 ∨ 5 < cause.toNat then s else s.failChip cause.toNat loc.toNat)

/-! ### Post-package repair (R448) -/

/-- Die channel, 0-63, that serves an offset of a die whose channel counts are given (R302). -/
def dieChannel : List Nat → Nat → Nat → Nat
  | [], _, _ => 0
  | n :: ns, before, o =>
    if o < n * channelBytes then let i := before + o / 256 % n; i / 2 + 32 * (i % 2)
    else dieChannel ns (before + n) (o - n * channelBytes)

/-- Stack and channel of a device address in HBM (R301). -/
def State.hbmPlace (s : State) (a : Nat) : Nat × Nat :=
  let d := (a - hbmBase) / 0x2000000000
  let c := dieChannel (s.hbmParts d) 0 ((a - hbmBase) % 0x2000000000)
  (2 * d + c / 32, c % 32)

/-- Whether a device address lies in HBM (R10). -/
def inHbm (a : Nat) : Bool := decide (hbmBase ≤ a) && decide (a < hbmBase + hbmSize)

/-- The row address that FAULT_PPR_LO and FAULT_PPR_HI hold. -/
def State.pprAddr (s : State) : Nat := s.reg oPprLo + 2 ^ 32 * s.reg oPprHi

/-- Whether something is in progress that a repair would disturb (R448). -/
def State.pprBusy (s : State) : Bool :=
  s.sects.toList.any (fun x => x.phase == .running || x.phase == .switching || x.phase == .held || x.bg.isSome || x.copy.isSome || x.snap.isSome)
  || s.ingestBusy || s.snapRx.isSome || s.repair.capActive

/-- Why a repair is refused: 1 BUSY, 3 ADDRESS, 2 EXHAUSTED. -/
def State.pprRefused (s : State) (a : Nat) (spare : Bool) : Option Nat :=
  if s.pprBusy then some 1 else if !inHbm a then some 3 else if !spare then some 2 else none

/-- A write of FAULT_PPR_CMD with GO = 1; one while a repair is in progress starts none. -/
def State.writePpr (s : State) (v : Nat) (spare : Bool) : State :=
  let s := s.setReg oPprCmd (v &&& 2)
  let a := s.pprAddr
  let place := if inHbm a then s.hbmPlace a else Config.noHbmPlace a
  if s.repair.ppr.isSome then s
  else match s.pprRefused a spare with
    | some r => s.event 0x0A09 noSect (items [place.1, place.2, r])
    | none => { s with repair := { s.repair with ppr := some (a, bitOf v 1) } }

/-- PPR_GO (R448). -/
def execPprGo (value : Word) (spare : Bool) (s : State) : Host.Outcome State Fault Refusal :=
  .next (if s.ready && bitOf value.toNat 0 then s.writePpr value.toNat spare else s)

/-- The uncorrectable units in the row of an address. -/
def State.rowBad (s : State) (a : Nat) : List Nat :=
  let parts := s.hbmParts ((a - hbmBase) / 0x2000000000)
  s.hbmBad.filter fun u => Config.hbmRow parts u == Config.hbmRow parts (a / 64)

/-- PPR_DONE: the units are written back, uncorrectable ones as zeros (R448). -/
def execPprDone (s : State) : Host.Outcome State Fault Refusal :=
  .next (match s.repair.ppr with
    | none => s
    | some (a, hard) =>
      let bad := s.rowBad a
      let p := s.hbmPlace a
      let s := bad.foldl (fun (s : State) u => s.hbmWrite (64 * u) (fillBytes 64 0)) s
      ({ s with repair := { s.repair with ppr := none } } : State).event 0x0A08 noSect (items [p.1, p.2, boolNat hard, bad.length]))

end Sys2Proof.Machine
end

