-- ==== Sys2Proof/Machine/Xmss.lean ====
section
/-! DEFINITION. Xmss.lean: the hash-based signatures of RFC 8391 with SHAKE256, n = 32 and w = 16, for the parameter sets of R402 (R401, R402, R406, R411; PRESUMED, RFC 8391 and NIST SP 800-208, log 181). -/

namespace Sys2Proof.Machine

/-! ### Hash functions and addresses -/

/-- An n-byte big-endian integer. -/
def beBytes (n v : Nat) : List Byte := (leBytes n v).reverse
def beNat (bs : List Byte) : Nat := leNat bs.reverse

/-- A hash address: layer, tree, type (0 one-time signature, 1 L-tree, 2 hash tree), the three words of the type, and the last word that tells key from masks. -/
structure Adrs where
  layer : Nat
  tree : Nat
  type : Nat := 0
  a : Nat := 0
  b : Nat := 0
  c : Nat := 0
  deriving DecidableEq, Repr

/-- The 32 bytes of an address. -/
def Adrs.bytes (x : Adrs) (mask : Nat) : List Byte :=
  beBytes 4 x.layer ++ beBytes 8 x.tree ++ beBytes 4 x.type ++ beBytes 4 x.a ++ beBytes 4 x.b ++ beBytes 4 x.c ++ beBytes 4 mask

/-- The keyed hashes: 0 F, 1 H, 2 H_msg, 3 PRF, 4 PRF_keygen. -/
def xmssHash (d : Nat) (key m : List Byte) : List Byte := shake256 (beBytes 32 d ++ key ++ m)

/-- PRF of the public seed at an address. -/
def xmssPrf (seed : List Byte) (x : Adrs) (mask : Nat) : List Byte := xmssHash 3 seed (x.bytes mask)

/-- Bytewise exclusive or. -/
def xorBytes (x y : List Byte) : List Byte := List.zipWith (· ^^^ ·) x y

/-- The parent of two nodes. -/
def randHash (seed : List Byte) (x : Adrs) (l r : List Byte) : List Byte :=
  xmssHash 1 (xmssPrf seed x 0) (xorBytes l (xmssPrf seed x 1) ++ xorBytes r (xmssPrf seed x 2))

/-! ### One-time signatures -/

/-- n steps of a chain from step i on. -/
def wotsChain (seed : List Byte) (x : Adrs) (i n : Nat) (v : List Byte) : List Byte :=
  (List.range n).foldl (fun v j =>
    let y := { x with c := i + j }
    xmssHash 0 (xmssPrf seed y 0) (xorBytes v (xmssPrf seed y 1))) v

/-- The 64 digits of a 32-byte message and the 3 of its checksum. -/
def wotsDigits (m : List Byte) : List Nat :=
  let d := m.flatMap fun b => [b.toNat / 16, b.toNat % 16]
  let c := 16 * (d.map fun x => 15 - x).foldl (· + ·) 0
  d ++ [c / 4096 % 16, c / 256 % 16, c / 16 % 16]

/-- The secret value of chain i of a one-time key. -/
def wotsSecret (sk seed : List Byte) (x : Adrs) (i : Nat) : List Byte := xmssHash 4 sk (seed ++ ({ x with b := i } : Adrs).bytes 0)

/-- A one-time signature of a message. -/
def wotsSign (sk seed : List Byte) (x : Adrs) (m : List Byte) : List (List Byte) :=
  (wotsDigits m).zipIdx.map fun e => wotsChain seed { x with b := e.2 } 0 e.1 (wotsSecret sk seed x e.2)

/-- The public values of a one-time key, from a signature of a message. -/
def wotsPublic (seed : List Byte) (x : Adrs) (m : List Byte) (sig : List (List Byte)) : List (List Byte) :=
  ((wotsDigits m).zip sig).zipIdx.map fun e => wotsChain seed { x with b := e.2 } e.1.1 (15 - e.1.1) e.1.2

/-- One level of an L-tree, from node i on. -/
def ltreeLevel (seed : List Byte) (x : Adrs) : Nat → List (List Byte) → List (List Byte)
  | i, l :: r :: rest => randHash seed { x with c := i } l r :: ltreeLevel seed x (i + 1) rest
  | _, ns => ns

/-- The leaf that the 67 public values of a one-time key make. -/
def ltree (seed : List Byte) (x : Adrs) (pk : List (List Byte)) : List Byte :=
  ((List.range 7).foldl (fun ns h => ltreeLevel seed { x with type := 1, b := h } 0 ns) pk).headD []

/-! ### Trees -/

/-- Leaf i of a tree of the secret key. -/
def xmssLeaf (sk seed : List Byte) (layer tree i : Nat) : List Byte :=
  let x : Adrs := { layer := layer, tree := tree, a := i }
  ltree seed x ((List.range 67).map fun j => wotsChain seed { x with b := j } 0 15 (wotsSecret sk seed x j))

/-- Node j at a height of a tree of the secret key. -/
def xmssNode (sk seed : List Byte) (layer tree : Nat) : Nat → Nat → List Byte
  | 0, j => xmssLeaf sk seed layer tree j
  | h + 1, j => randHash seed { layer := layer, tree := tree, type := 2, b := h, c := j } (xmssNode sk seed layer tree h (2 * j)) (xmssNode sk seed layer tree h (2 * j + 1))

/-- The root that a one-time signature with leaf i and its authentication path give. -/
def rootFromSig (seed : List Byte) (layer tree i : Nat) (m : List Byte) (sig auth : List (List Byte)) : List Byte :=
  let x : Adrs := { layer := layer, tree := tree, a := i }
  auth.zipIdx.foldl (fun node e =>
    let y : Adrs := { layer := layer, tree := tree, type := 2, b := e.2, c := i / 2 ^ (e.2 + 1) }
    if i / 2 ^ e.2 % 2 = 0 then randHash seed y node e.1 else randHash seed y e.1 node) (ltree seed x (wotsPublic seed x m sig))

/-! ### Parameter sets (R402) -/

/-- A parameter set: height, layers, bytes of the index in a signature. -/
structure XmssSet where
  h : Nat
  d : Nat
  index : Nat
  deriving DecidableEq, Repr

/-- Height of one tree. -/
def XmssSet.tree (p : XmssSet) : Nat := p.h / p.d

/-- Bytes of a signature. -/
def XmssSet.bytes (p : XmssSet) : Nat := p.index + 32 + p.d * 2144 + 32 * p.h

/-- The sets of R402 under the OIDs that SP 800-208 gives them. -/
def xmssSets : List (Nat × XmssSet) :=
  [(0x10, ⟨10, 1, 4⟩), (0x11, ⟨16, 1, 4⟩), (0x12, ⟨20, 1, 4⟩),
   (0x29, ⟨20, 2, 3⟩), (0x2A, ⟨20, 4, 3⟩), (0x2B, ⟨40, 2, 5⟩), (0x2C, ⟨40, 4, 5⟩), (0x2D, ⟨40, 8, 5⟩),
   (0x2E, ⟨60, 3, 8⟩), (0x2F, ⟨60, 6, 8⟩), (0x30, ⟨60, 12, 8⟩)]

/-- The set of the identity key (R411). -/
def identitySet : XmssSet := ⟨20, 2, 3⟩

/-- Its OID. -/
def identityOid : Nat := 0x29

/-- A public key: OID, root, public seed. -/
def pkOid (pk : List Byte) : Nat := beNat (pk.take 4)
def pkRoot (pk : List Byte) : List Byte := (pk.drop 4).take 32
def pkSeed (pk : List Byte) : List Byte := (pk.drop 36).take 32

/-- The set that a key's OID names; none where it is no set of R402. -/
def xmssSet (pk : List Byte) : Option XmssSet := (xmssSets.find? fun e => e.1 == pkOid pk).map (·.2)

/-- Bytes of a signature under a key. -/
def signatureBytes (pk : List Byte) : Nat := ((xmssSet pk).map XmssSet.bytes).getD 0

/-- n values of 32 bytes. -/
def values32 (n : Nat) (bs : List Byte) : List (List Byte) := (List.range n).map fun i => (bs.drop (32 * i)).take 32

/-- The message digest that the lowest layer signs. -/
def xmssDigest (root r : List Byte) (i : Nat) (m : List Byte) : List Byte := xmssHash 2 (r ++ root ++ beBytes 32 i) m

/-- Verification under a set: the layers from the lowest one up lead to the root. -/
def XmssSet.verify (p : XmssSet) (root seed m sig : List Byte) : Bool :=
  let i := beNat (sig.take p.index)
  let r := (sig.drop p.index).take 32
  let size := 2144 + 32 * p.tree
  let top := (List.range p.d).foldl (fun node j =>
    let part := sig.drop (p.index + 32 + size * j)
    rootFromSig seed j (i / 2 ^ (p.tree * (j + 1))) (i / 2 ^ (p.tree * j) % 2 ^ p.tree) node (values32 67 part) (values32 p.tree (part.drop 2144))) (xmssDigest root r i m)
  sig.length == p.bytes && top == root

/-- Whether a signature of a message verifies under a key (R401, R404). -/
def xmssVerify (pk m sig : List Byte) : Bool :=
  match xmssSet pk with
  | some p => p.verify (pkRoot pk) (pkSeed pk) m sig
  | none => false

/-- The root of a secret key: the root of the one tree of its top layer (R406). -/
def XmssSet.root (p : XmssSet) (sk seed : List Byte) : List Byte := xmssNode sk seed (p.d - 1) 0 p.tree 0

/-- The signature of a message with leaf i; its first bytes are i (R411, R412). -/
def XmssSet.sign (p : XmssSet) (sk prf seed root : List Byte) (i : Nat) (m : List Byte) : List Byte :=
  let r := xmssHash 3 prf (beBytes 32 i)
  let layers := (List.range p.d).foldl (fun (e : List Byte × List Byte) j =>
    let tree := i / 2 ^ (p.tree * (j + 1))
    let leaf := i / 2 ^ (p.tree * j) % 2 ^ p.tree
    let sig := wotsSign sk seed { layer := j, tree := tree, a := leaf } e.1
    let auth := (List.range p.tree).map fun k => xmssNode sk seed j tree k (leaf / 2 ^ k ^^^ 1)
    (xmssNode sk seed j tree p.tree 0, e.2 ++ sig.flatten ++ auth.flatten)) (xmssDigest root r i m, [])
  beBytes p.index i ++ r ++ layers.2

end Sys2Proof.Machine
end

