-- ==== Sys2Proof/Machine/Boot.lean ====
section
/-! DEFINITION. Boot.lean: the letterbox, the checks of bundle and record, STARTING, COMMIT, franking and the DOE mailbox (R391-R416, R429, R443, R449, R450, R476). -/

namespace Sys2Proof.Machine

/-! ### Letterbox (R393, R394) -/

/-- Bytes of the PUF array (R406). -/
def pufBytes : Nat := 16384

/-- The PUF array is powered and its start-up state is held (R406). -/
def State.powerPuf (s : State) : State :=
  { s with boot := { s.boot with puf := padTo pufBytes (Config.pufStartup s.phys.pufReads) }, phys := { s.phys with pufReads := s.phys.pufReads + 1 } }

/-- LETTERBOX_READY: PERST# + 20 ms, or 20 ms after a reset: the PUF start-up values are held (R394, R396, R434). -/
def execLetterboxReady (s : State) : Host.Outcome State Fault Refusal :=
  .next (if s.phys.powered && !s.phys.perst && s.phys.boscReady && s.boot.phase == .reset then
      let s := s.powerPuf
      { s with boot := { s.boot with phase := .waiting } }
    else s)

/-- GO in WAITING or FAILED: the addresses and lengths are taken; in any other state it is ignored (R394). -/
def State.bootGo (s : State) : State :=
  if s.boot.phase = .waiting ∨ s.boot.phase = .failed then
    { s with boot := { s.boot with
      phase := .fetching, err := 0, item := 0, holdup := none
      bundleAddr := s.reg oBundleLo + 2 ^ 32 * s.reg oBundleHi, bundleLen := s.reg oBundleLen
      recordAddr := s.reg oRecordLo + 2 ^ 32 * s.reg oRecordHi, recordLen := s.reg oRecordLen } }
  else s

/-- GO (R394). -/
def execGo (s : State) : Host.Outcome State Fault Refusal := .next s.bootGo

/-! ### Manifest and record (R398-R405, R449, R450) -/

/-- Section entry i of a manifest (R399). -/
def mfEntry (m : List Byte) (i : Nat) : List Byte := (m.drop (256 + 32 * i)).take 32
def meType (e : List Byte) : Nat := fieldAt e 0 2
def meOffset (e : List Byte) : Nat := fieldAt e 4 4
def meLength (e : List Byte) : Nat := fieldAt e 8 4
def meVersion (e : List Byte) : Nat := fieldAt e 12 4
def meCounter (e : List Byte) : Nat := fieldAt e 16 1

/-- The section entries. -/
def mfEntries (m : List Byte) : List (List Byte) := (List.range 6).map (mfEntry m)

/-- Blocks of the body. -/
def mfBlocks (m : List Byte) : Nat := fieldAt m 8 4

/-- ROOT_PK of a manifest or a record body. -/
def rootPk (m : List Byte) : List Byte := (m.drop 64).take 68

/-- Whether a COUNTER field names a counter that a manifest may name. -/
def counterOk (c : Nat) : Bool := decide (c ≤ 14) || c == 0xFF

/-- The first byte offset at which checks fail, divided by 4 and saturated (R397). -/
def formatItem (cs : List (Nat × Bool)) : Option Nat := (cs.find? fun e => !e.2).map fun e => min 255 (e.1 / 4)

/-- Checks of bytes lo to hi - 1 being 0. -/
def zeroRun (b : List Byte) (lo hi : Nat) : Nat × Bool := (lo, allZero ((b.drop lo).take (hi - lo)))

/-- The checks of the manifest block's fields (R398, R399). -/
def manifestChecks (block : List Byte) (len : Nat) : List (Nat × Bool) :=
  [(0, fieldAt block 0 4 == 0x42565748), (4, fieldAt block 4 2 == 1), (6, fieldAt block 6 2 == 6),
   (8, decide (1 ≤ mfBlocks block) && decide (mfBlocks block ≤ 4096) && mfBlocks block + 1 == len), (16, counterOk (fieldAt block 16 1)),
   zeroRun block 17 24, zeroRun block 132 256]
  ++ (List.range 6).flatMap (fun i =>
    let e := mfEntry block i
    let o := 256 + 32 * i
    [(o, decide (1 ≤ meType e) && decide (meType e ≤ 6)), zeroRun block (o + 2) (o + 4), (o + 4, meOffset e % 64 == 0), (o + 8, decide (1 ≤ meLength e)),
     (o + 16, counterOk (meCounter e)), zeroRun block (o + 17) (o + 32)])
  ++ [zeroRun block 448 1024, zeroRun block 10917 65536]

/-- The first section entry whose type repeats, that overlaps an earlier one or that leaves the body (R397). -/
def sectionBad (m : List Byte) : Option Nat :=
  let es := mfEntries m
  (List.range 6).find? fun i =>
    let e := mfEntry m i
    decide (mfBlocks m * 65536 < meOffset e + meLength e)
    || (es.take i).any fun f => meType f == meType e || overlaps (meOffset f) (meLength f) (meOffset e) (meLength e)

/-- Bytes of a record's body: what its length leaves beside the signature (R403). -/
def recordBodyLen (pk : List Byte) (len : Nat) : Nat := len - signatureBytes pk

/-- Entry i of a record body. -/
def rcEntry (b : List Byte) (i : Nat) : List Byte := (b.drop (192 + 16 * i)).take 16

/-- Entry i of a repair map, and its fields (R449). -/
def rmEntry (m : List Byte) (i : Nat) : List Byte := (m.drop (16 + 8 * i)).take 8
def rmKind (e : List Byte) : Nat := fieldAt e 0 1
def rmLoc (e : List Byte) : Nat := fieldAt e 2 2
def rmData (e : List Byte) : Nat := fieldAt e 4 4

/-- The entries of a repair map. -/
def rmEntries (m : List Byte) : List (List Byte) := (List.range (min (fieldAt m 0 4) (m.length / 8))).map (rmEntry m)

/-- Whether a physical tile exists. -/
def physOk (p : Nat) : Bool := decide (p % 64 ≤ 32) && decide (p < 4096)

/-- Whether an entry of a repair map keeps R449 and R450. -/
def rmOk (e : List Byte) : Bool :=
  fieldAt e 1 1 == 0 &&
  match rmKind e with
  | 1 => physOk (rmLoc e) && rmData e == 0
  | 2 => physOk (rmLoc e) && decide (bitsOf (rmData e) 18 4 < 24576) && rmData e < 2 ^ 19
  | 3 => decide (rmLoc e < 32) && decide (rmData e < 15)
  | _ => false

/-- The lanes of a link that the XLANE entries among some exclude together (R449). -/
def rmLanes (es : List (List Byte)) (l : Nat) : Nat := (es.filter fun e => rmKind e == 3 && rmLoc e == l).foldl (fun m e => m ||| rmData e) 0

/-- The checks of a repair map: its length, its entries, one TILE entry for each cluster, not all four lanes of a link excluded (R450). -/
def repairMapChecks (m : List Byte) : List (Nat × Bool) :=
  let es := rmEntries m
  let tiles := fun n => ((es.take n).filter fun e => rmKind e == 1).map fun e => rmLoc e / 64
  [(0, 16 + 8 * fieldAt m 0 4 == m.length), zeroRun m 4 16]
  ++ es.zipIdx.map fun e => (16 + 8 * e.2, rmOk e.1 && !(rmKind e.1 == 1 && (tiles e.2).contains (rmLoc e.1 / 64))
    && !(rmKind e.1 == 3 && rmLanes (es.take (e.2 + 1)) (rmLoc e.1) == 15))

/-- The checks of a certificate's fields (R405). -/
def certChecks (c serial : List Byte) : List (Nat × Bool) :=
  [(0, c.length == 10021 && fieldAt c 0 4 == 0x43565748), (4, fieldAt c 4 2 == 1), zeroRun c 6 8, (8, (c.drop 8).take 16 == serial), zeroRun c 92 128]

/-- The checks of a record body (R403, R405, R449, R450). -/
def recordChecks (b : List Byte) : List (Nat × Bool) :=
  [(0, fieldAt b 0 4 == 0x44565748), (4, fieldAt b 4 2 == 1), (6, fieldAt b 6 2 == 4), zeroRun b 28 32, zeroRun b 132 192]
  ++ (List.range 4).flatMap (fun i =>
    let e := rcEntry b i
    let o := 192 + 16 * i
    [(o, decide (1 ≤ fieldAt e 0 2) && decide (fieldAt e 0 2 ≤ 4) && ((List.range i).all fun j => fieldAt (rcEntry b j) 0 2 != fieldAt e 0 2)),
     zeroRun b (o + 2) (o + 4), (o + 4, fieldAt e 4 4 % 64 == 0 && decide (fieldAt e 4 4 + fieldAt e 8 4 ≤ b.length)), zeroRun b (o + 12) (o + 16)])
  ++ repairMapChecks (recordItem b 1) ++ certChecks (recordItem b 4) ((b.drop 8).take 16)

/-! ### The secret and the identity key (R406) -/

/-- K of a record body. -/
def State.bootSecret (s : State) (b : List Byte) : List Byte := Config.pufSecret s.boot.puf (recordItem b 3)

/-- ID_PK of a record body. -/
def idPk (b : List Byte) : List Byte := ((recordItem b 4).drop 24).take 68

/-- The key that Dyndirix derives with a public seed: its OID, root and seed. -/
def State.derivedPk (s : State) (b seed : List Byte) : List Byte := beBytes 4 identityOid ++ identitySet.root (shake256 (3 :: s.bootSecret b)) seed ++ seed

/-- The key derived equals ID_PK, an XMSSMT-SHAKE256_20/2_256 key (R405, R406). -/
def State.identityOk (s : State) (b : List Byte) : Bool := s.derivedPk b (pkSeed (idPk b)) == idPk b

/-! ### The checks in order (R396, R397) -/

/-- What the boot has fetched. -/
structure Fetched where
  manifest : List Byte
  block : List Byte
  body : List Byte
  record : List Byte
  recordSig : List Byte
  deriving DecidableEq, Repr

/-- Splits bundle and record, each fetched with the length that GO took (R394, R398, R403). -/
def Boot.splitFetch (b : Boot) (bundle record : List Byte) : Fetched :=
  let block := padTo 65536 bundle
  let n := recordBodyLen (rootPk block) b.recordLen
  let r := padTo b.recordLen record
  { manifest := block.take 1024, block := block, body := padTo (65536 * (b.bundleLen - 1)) (bundle.drop 65536), record := r.take n, recordSig := r.drop n }

/-- The signature of a manifest: as many of the 9,893 bytes at offset 1,024 as the key's set takes (R398, R402, log 183). -/
def Fetched.manifestSig (f : Fetched) : List Byte := ((f.block.drop 1024).take 9893).take (signatureBytes (rootPk f.manifest))

/-- The first item of the counter store with no valid copy. -/
def storeBad (v : Vector CsCopy 36) : Option Nat := (List.range 18).find? fun i => (currentCopy v i).isNone

/-- Whether VERSION falls below its counter (R410). -/
def State.rolledBack (s : State) (counter version : Nat) : Bool := counter != 0xFF && decide (version < s.minver counter)

/-- The rails that failed to reach the boot voltage: ERR AVS (R429). -/
def State.avsErrors (s : State) : List (Option (Nat × Nat)) := [s.boot.avsFailed.min?.map fun rail => (0x0D, rail)]

/-- The checks of manifest block and counter store (R396-R401, R407, R410). -/
def State.manifestErrors (s : State) (f : Fetched) : List (Option (Nat × Nat)) :=
  let m := f.manifest
  [ if shake256 (rootPk m) != Config.romKeyHash then some (0x03, 0) else none,
    if !xmssVerify (rootPk m) m f.manifestSig then some (0x04, 0) else none,
    (formatItem (manifestChecks f.block s.boot.bundleLen)).map fun i => (0x02, i),
    (sectionBad m).map fun i => (0x0B, i),
    (storeBad s.store).map fun i => (0x0A, i),
    if s.rolledBack (fieldAt m 16 1) (fieldAt m 12 4) then some (0x06, fieldAt m 16 1) else none ]

/-- The checks of the record (R403-R406, R410). -/
def State.recordErrors (s : State) (f : Fetched) : List (Option (Nat × Nat)) :=
  let r := f.record
  let pk := rootPk f.manifest
  [ if r.length % 64 != 0 || r.isEmpty then some (0x02, 0) else none,
    if !xmssVerify pk r f.recordSig then some (0x07, 0) else none,
    (formatItem (recordChecks r)).map fun i => (0x02, i),
    if rootPk r != pk then some (0x03, 1) else none,
    if shake256 (2 :: s.bootSecret r) != (r.drop 32).take 32 then some (0x08, 0) else none,
    if s.rolledBack 15 (fieldAt r 24 4) then some (0x06, 15) else none ]

/-- The checks of the body (R400, R410). -/
def State.bodyErrors (s : State) (f : Fetched) : List (Option (Nat × Nat)) :=
  [ if treeRoot (mfBlocks f.manifest) f.body != (f.manifest.drop 32).take 32 then some (0x05, 0) else none,
    ((mfEntries f.manifest).find? fun e => s.rolledBack (meCounter e) (meVersion e)).map fun e => (0x06, meCounter e) ]

/-- The first check that fails, as ERR and ITEM. -/
def State.bootError (s : State) (f : Fetched) : Option (Nat × Nat) :=
  (s.avsErrors ++ s.manifestErrors f ++ s.recordErrors f ++ s.bodyErrors f).findSome? id

/-- What ends a boot whose fetch ends so: the checks of what was fetched come before the read that failed (R396, R397, log 136). -/
def State.fetchError (s : State) (r : FetchResult) : Option (Nat × Nat) :=
  match r with
  | .noManifest => (s.avsErrors ++ [some (0x01, 0)]).findSome? id
  | .noRecord b => (s.avsErrors ++ s.manifestErrors (s.boot.splitFetch b []) ++ [some (0x01, 1)]).findSome? id
  | .noBody b r =>
    let f := s.boot.splitFetch b r
    (s.avsErrors ++ s.manifestErrors f ++ s.recordErrors f ++ [some (0x01, 2)]).findSome? id
  | .fetched b r => s.bootError (s.boot.splitFetch b r)

/-- The body is staged at the base of update die NW (R395). -/
def State.stage (s : State) (body : List Byte) : State :=
  { s with hbm := s.hbm.writeBytes hbmBase body, boot := { s.boot with staged := body.length } }

/-- The bytes of the staged sections. -/
def State.stagedSections (s : State) : List (List Byte) :=
  (mfEntries s.boot.manifest).map fun e => s.hbm.readBytes (hbmBase + meOffset e) (meLength e)

/-- The verified copy is kept and measured (R395, R412). -/
def State.keepFetched (s : State) (f : Fetched) : State :=
  { s with boot := { s.boot with
    manifest := f.manifest, record := f.record
    digests := (mfEntries f.manifest).map fun e => shake256 ((f.body.drop (meOffset e)).take (meLength e))
    badCopies := (List.range 18).filter fun i => !((storeCopy s.store i 0).valid && (storeCopy s.store i 1).valid) } }

/-! ### STARTING (R396, R409, R429, R443, R449) -/

/-- The slot map that the repair map leaves a cluster: a fenced slot's logical number goes to slot 32 (R443). -/
def RegFile.mapSpare (f : RegFile) (phys : Nat) : RegFile :=
  let c := phys / 64
  let p := phys % 64
  if p = 32 then f
  else
    let k := regKey (oSmap (p / 4)) c
    f.put k (BitVec.ofNat 32 ((f.get k).toNat + (32 - p) * 256 ^ (p % 4)))

/-- A TILE entry: the tile is fenced and the spare takes its number. -/
def State.applyTile (s : State) (phys : Nat) : State :=
  let s : State := { s with repair := { s.repair with fenced := s.repair.fenced ++ [phys] }, regs := s.regs.mapSpare phys }
  { s with spares := Sparse.set {} s.spares phys (({} : Tile).allOff) }

/-- The repair map is applied; a TS_ROW entry changes nothing that software can see. A chip that has failed stays failed until a reset (R446). -/
def State.applyRepairMap (s : State) (m : List Byte) : State :=
  let s : State := { s with links := s.links.map (fun (x : Link) => { x with excluded := 0 }), repair := { failed := s.repair.failed, cause := s.repair.cause, loc := s.repair.loc }, spares := [], regs := { s.regs with eff := s.regs.eff.filter fun e => decide (e.1 < regKey (oSmap 0) 0) || decide (regKey (oSmap 8) 0 ≤ e.1) } }
  (rmEntries m).foldl (fun (s : State) e =>
    match rmKind e with
    | 1 => s.applyTile (rmLoc e)
    | 3 => s.setLinkN (rmLoc e) { s.linkN (rmLoc e) with excluded := (s.linkN (rmLoc e)).excluded ||| rmData e }
    | _ => s) s

/-- The OP 0 voltages of TRIMS are commanded and read back, no longer the boot voltage (R429, log 222). -/
def State.applyTrims (s : State) : State :=
  let s : State := { s with phys := { s.phys with avs := (s.phys.avs.filter fun w => w.purpose != 1).map fun w => if w.purpose = 0 then { w with purpose := 4 } else w } }
  [false, true].foldl (fun (s : State) east =>
    let mv := s.opVoltage east 0
    let p := s.phys.command s.tstamp (boolNat east) mv
    { s with phys := { p with avs := p.avs ++ [{ rail := boolNat east, target := mv, purpose := 1 }] } }) s

/-- STARTING: the boot epoch has been written; the sections are placed from the staged copy (R395). -/
def State.enterStarting (s : State) : State :=
  let s : State := { s with boot := { s.boot with phase := .starting, epoch := itemValue s.store 1, holdup := none, verified := true, placed := s.stagedSections } }
  (s.applyRepairMap (recordItem s.boot.record 1)).applyTrims

/-- The write of EPOCH: STARTING, or a recheck in 1 ms (R408, R409). -/
def State.writeEpoch (s : State) (mv rechecks : Nat) : State :=
  let t := s.writeSequence 1 ((itemValue s.store 1 + 1) % 2 ^ 64) mv
  if t.2 then t.1.enterStarting
  else if 200 ≤ rechecks then t.1.bootFail 0x09 0
  else { t.1 with boot := { t.1.boot with holdup := some rechecks } }

/-- FETCH_DONE: bundle and record have been fetched and are checked (R396, R397). -/
def execFetchDone (result : FetchResult) (mv : Nat) (s : State) : Host.Outcome State Fault Refusal :=
  .next (if s.boot.phase ≠ .fetching ∨ s.boot.holdup.isSome then s
    else match s.fetchError result, result with
      | some e, _ => s.bootFail e.1 e.2
      | none, .fetched bundle record =>
        let f := s.boot.splitFetch bundle record
        ((s.stage f.body).keepFetched f).writeEpoch mv 0
      | none, _ => s)

/-- HOLDUP_RECHECK: 1 ms after the hold-up check failed (R409). -/
def execHoldupRecheck (mv : Nat) (s : State) : Host.Outcome State Fault Refusal :=
  .next (match s.boot.phase, s.boot.holdup with
    | .fetching, some n => s.writeEpoch mv (n + 1)
    | _, _ => s)

/-- CAUSE and LOC of a training failure, and the update die that ITEM names (R397, R445). -/
def TrainingFault.cause : TrainingFault → Nat × Nat × Nat
  | .ucie d => (2, d.toNat, d.toNat)
  | .hbm k => (4, k.toNat, k.toNat / 2)

/-- STARTING_DONE: training, fill and key derivation end, once the TRIMS voltages have been read back, and the staging area is cleared; a training failure fails the chip (R395-R397, R406, R429). -/
def execStartingDone (trainingFailed : Option TrainingFault) (s : State) : Host.Outcome State Fault Refusal :=
  .next (if s.boot.phase ≠ .starting then s
    else match trainingFailed with
      | some d => (s.failChip (TrainingFault.cause d).1 (TrainingFault.cause d).2.1).bootFail 0x0C (TrainingFault.cause d).2.2
      | none =>
        if s.phys.avs.any fun w => w.purpose == 1 then s
        else if !s.identityOk s.boot.record then s.bootFail 0x08 1
        else
          let s := s.clearStage
          { s with boot := { s.boot with phase := .ready } })

/-! ### The counter store in service (R407-R410, R415) -/

/-- The counters that the running bundle and record name, with the VERSION of each item that names them (R410). -/
def Boot.named (b : Boot) : List (Nat × Nat) :=
  ((fieldAt b.manifest 16 1, fieldAt b.manifest 12 4) :: (mfEntries b.manifest).map fun e => (meCounter e, meVersion e)).filter (fun e => e.1 != 0xFF)
  ++ [(15, fieldAt b.record 24 4)]

/-- The smallest VERSION among the items that name a counter. -/
def Boot.smallest (b : Boot) (c : Nat) : Option Nat := ((b.named.filter fun e => e.1 == c).map (·.2)).min?

/-- The counters to be raised, ascending, with their new values. -/
def State.raisable (s : State) : List (Nat × Nat) :=
  (List.range 16).filterMap fun c => match s.boot.smallest c with
    | some v => if s.minver c < v then some (c, v) else none
    | none => none

/-- A write of 1 to BOOT_CMD.COMMIT in READY (R410). -/
def State.startCommit (s : State) : State :=
  if s.ready ∧ s.boot.commit.isNone then { s with boot := { s.boot with commit := some (s.raisable, 0) } } else s

/-- COMMIT (R410). -/
def execCommit (s : State) : Host.Outcome State Fault Refusal := .next s.startCommit

/-- The sequences of a commit in progress run, with the measurements of V_HU before each, and its end is posted (R408, R410). -/
def State.finishCommit (s : State) (mvs : List Nat) : State :=
  match s.boot.commit with
  | none => s
  | some (cs, mask) =>
    let t := ({ s with boot := { s.boot with commit := none } } : State).runCommit cs mvs mask
    if t.2.2 then t.1.event 0x0804 noSect (items [t.2.1]) else t.1.event 0x0801 noSect (items [2, t.1.boot.vhu])

/-- COMMIT_DONE: the sequences run, V_HU being measured before each (R408, R410). -/
def execCommitDone (mvs : List Nat) (s : State) : Host.Outcome State Fault Refusal := .next (s.finishCommit mvs)

/-- V_HU_MEASURE: the 1 ms measurement (R415, R419). -/
def execVHuMeasure (mv : Nat) (s : State) : Host.Outcome State Fault Refusal :=
  .next (if s.phys.powered && s.phys.boscReady then s.measureVhu mv else s)

/-! ### Internal debug (R414) -/

/-- DBG_OPEN: a write of 1 to DBG_CTL.DBG_OPEN in service. -/
def State.openDebug (s : State) : State :=
  if s.boot.dbgOpen then s else ({ s with boot := { s.boot with dbgOpen := true } } : State).event 0x0805 noSect []

/-- DBG_OPEN (R414). -/
def execDbgOpen (s : State) : Host.Outcome State Fault Refusal := .next (if s.ready then s.openDebug else s)

/-! ### The DOE mailbox (R411-R413) -/

/-- DOE_DISCOVERY: object 0 is DOE Discovery, object 1 ATTEST under the device's vendor ID (R413). -/
def execDoeDiscovery (index : Byte) (s : State) : Host.Outcome State Fault Refusal :=
  let v := match index.toNat with
    | 0 => 0x01000001
    | 1 => Config.pcieVendor.toNat + 0x00010000
    | _ => 0xFFFF
  .next { s with reply := .data v }

/-- A response of the ATTEST object: STATUS, reserved bytes, data. -/
def attestReply (status : Byte) (data : List Byte) : Reply := .bytes (status :: 0 :: 0 :: 0 :: data)

/-- UNCOMMITTED: a counter lies below its items' smallest VERSION. -/
def State.uncommitted (s : State) : Bool := !s.raisable.isEmpty

/-- The measurement entries (R412). -/
def Boot.measurements (b : Boot) : List Byte :=
  (List.range 6).flatMap fun i =>
    let e := mfEntry b.manifest i
    leBytes 2 (meType e) ++ [0, 0] ++ leBytes 4 (meVersion e) ++ padTo 32 (b.digests.getD i [])

/-- The body of a quote signed with a leaf (R412). -/
def State.quoteBody (s : State) (nonce : List Byte) (leaf : Nat) : List Byte :=
  leBytes 4 0x51565748 ++ leBytes 2 1 ++ leBytes 2 6 ++ padTo 32 nonce ++ leBytes 8 s.boot.epoch ++ leBytes 4 leaf
  ++ leBytes 4 (boolNat s.boot.dbgOpen + 2 * boolNat s.uncommitted) ++ leBytes 8 s.tstamp ++ shake256 s.boot.record ++ s.setupDigest
  ++ shake256 s.boot.manifest ++ s.boot.measurements

/-- The quote: body and signature, whose index is LEAF (R411, R412). -/
def State.quote (s : State) (body : List Byte) (leaf : Nat) : List Byte :=
  let k := s.bootSecret s.boot.record
  let pk := idPk s.boot.record
  body ++ identitySet.sign (shake256 (3 :: k)) (shake256 (4 :: k)) (pkSeed pk) (pkRoot pk) leaf body

/-- Leaves of the identity key. -/
def leafCount : Nat := 2 ^ 20

/-- Franking (R411, R413). An abort between the write of LEAF and the release of the quote gives no answer and leaves the leaf unused for ever (log 194). -/
def State.frank (s : State) (nonce : List Byte) (mv : Nat) : State :=
  let i := itemValue s.store 0
  let body := s.quoteBody nonce i
  if leafCount ≤ i then
    let s : State := { s with reply := attestReply 2 [] }
    if s.boot.exhaustedPosted then s else ({ s with boot := { s.boot with exhaustedPosted := true } } : State).event 0x0803 noSect []
  else
    let t := s.writeSequence 0 (i + 1) mv
    if !t.2 then ({ t.1 with reply := attestReply 3 [] } : State).event 0x0801 noSect (items [1, mv])
    else
      let left := leafCount - (i + 1)
      let s : State := { t.1 with reply := if Config.quoteAborted i then .none else attestReply 0 (t.1.quote body i) }
      if left < 65536 ∧ !s.boot.lowPosted then
        ({ s with boot := { s.boot with lowPosted := true } } : State).event 0x0802 noSect (items [left])
      else s

/-- An ATTEST request: OP, reserved bytes, NONCE (R413). The write sequences of a commit requested before run first (R408, log 182). -/
def State.attest (s : State) (request : List Byte) (mv : Nat) : State :=
  let op := fieldAt request 0 1
  if fieldAt request 1 3 ≠ 0 ∨ (op ≠ 1 ∧ op ≠ 2) then { s with reply := attestReply 4 [] }
  else if !s.ready then { s with reply := attestReply 1 [] }
  else if op = 1 then (s.finishCommit (List.replicate 16 mv)).frank ((request.drop 4).take 32) mv
  else { s with reply := attestReply 0 (recordItem s.boot.record 4) }

/-- GET_QUOTE (R411-R413). -/
def execGetQuote (request : List Byte) (mv : Nat) (s : State) : Host.Outcome State Fault Refusal := .next (s.attest request mv)

/-- GET_CERT (R413). -/
def execGetCert (request : List Byte) (s : State) : Host.Outcome State Fault Refusal := .next (s.attest request s.boot.vhu)

end Sys2Proof.Machine
end

