-- ==== Sys2Proof/Machine/HostPort.lean ====
section
/-! DEFINITION. HostPort.lean: BAR0: register reads and writes, seals, section reset, ring control, doorbells and the announcements of rings (R11, R41, R52-R56, R337-R343, R349, R357, R358, R392, R433, R435, R467-R473). -/

namespace Sys2Proof.Machine

/-! ### Dead letters of the host port -/

/-- A dead letter of a PCIe access (R355). -/
def State.hostDead (s : State) (reason : Nat) (write : Bool) (addr len : Nat) : State := s.deadLetter reason 0 write addr Config.requesterId len

/-- An access whose width or alignment BAR0 does not serve (R337). -/
def State.badAccess (s : State) (write : Bool) (off size : Nat) : State := s.hostDead 0x0F write off size

/-- The BOOT block and the doorbell page. -/
def inBoot (off : Nat) : Bool := decide (0x10000 ≤ off) && decide (off < 0x20000)
def inDoorbells (off : Nat) : Bool := decide (0x50000 ≤ off) && decide (off < 0x51000)

/-! ### Rings (R338-R343, R357, R358) -/

/-- Whether a ring's SIZE lies in the range of R338 and is a power of two. -/
def sizeOk (r size : Nat) : Bool :=
  size == 2 ^ Nat.log2 size && (if r = 66 then decide (1024 ≤ size) && decide (size ≤ 16777216) else decide (16 ≤ size) && decide (size ≤ 65536))

/-- The address that a LO/HI pair holds. -/
def State.pair (s : State) (lo : Nat) : Nat := s.reg lo + 2 ^ 32 * s.reg (lo + 4)

/-- A ring at its enable (R339). -/
def State.freshRing (s : State) (r : Nat) : Ring :=
  { base := s.pair (oRing r), size := s.reg (oRing r + 8), wb := s.pair (oRing r + 0x18) }

/-- COUNTER_COPY_BAD for each item found with one invalid copy at boot, once the event ring takes records (R416). -/
def State.postBadCopies (s : State) : State :=
  let items_ := s.boot.badCopies
  items_.foldl (fun (s : State) i => s.event 0x0806 noSect (items [i])) { s with boot := { s.boot with badCopies := [] } }

/-- The pipeline of an ingest ring that starts afresh: a parcel taken before runs to its end without moving the new head; one that an overlap has cut off is given up (R323, R339). -/
def State.freshPipe (s : State) (r : Nat) : State :=
  if r < 16 ∨ 48 ≤ r then s
  else
    let x := s.pipe (r - 16)
    if x.cut then s.setPipe (r - 16) {} else if x.desc.isSome then s.setPipe (r - 16) { x with stale := true } else s

/-- A write of RING_CTL (R339): EN cannot be set while SIZE is illegal; EN from 0 to 1 starts the ring afresh; a section that waits for the next descriptor of a job ring whose EN is cleared becomes IDLE (R40, log 43). -/
def State.writeRingCtl (s : State) (r v : Nat) : State :=
  let err := bitOf (s.ringCtl r) 1 && !bitOf v 1
  let en := bitOf v 0 && sizeOk r (s.reg (oRing r + 8))
  let was := s.ringOn r
  let s := s.setReg (oRing r + 0xC) ((v &&& 0xFFFF03FC) ||| boolNat en ||| (2 * boolNat err))
  if !was && s.ringOn r then
    let s := (s.setRing r (s.freshRing r)).freshPipe r
    if r = 64 ∧ s.ready then s.postBadCopies else s
  else if was && !s.ringOn r && decide (r < 16) then s.settle r
  else s

/-- RING_ENABLE: a write of RING_CTL with EN = 1 (R339). -/
def execRingEnable (r : BitVec 7) (value : Word) (s : State) : Host.Outcome State Fault Refusal :=
  .next (if s.ready && decide (r.toNat < 67) && bitOf value.toNat 0 then s.writeRingCtl r.toNat value.toNat else s)

/-- Whether a doorbell value is refused (R340). -/
def State.doorbellBad (s : State) (r v : Nat) : Bool :=
  let x := s.ring r
  !s.ringOn r || decide (2 ^ 24 ≤ v) || decide (x.size ≤ v)
  || (if r < 48 then decide (x.free < (v + x.size - x.tail) % x.size) else decide (x.occupancy < (v + x.size - x.head) % x.size))

/-- An accepted doorbell: the new tail of a host-produced ring, the new head of another, whose held records then find room. -/
def State.takeDoorbell (s : State) (r v : Nat) : State :=
  let x := s.ring r
  if r < 48 then s.setRing r { x with tail := v } else (s.setRing r { x with head := v }).ringDrain r (x.held.length + 1)

/-- An 8-byte write into the doorbell page (R340). -/
def State.doorbell (s : State) (off v : Nat) : State :=
  let r := off / 8
  if off % 8 ≠ 0 then s.badAccess true (0x50000 + off) 8
  else if 67 ≤ r then s.hostDead 0x10 true (0x50000 + off) 8
  else if s.doorbellBad r v then s.event 0x0603 noSect (items [r, v])
  else s.takeDoorbell r v

/-- DOORBELL (R340, R392). -/
def execDoorbell (off : BitVec 12) (value : Dword) (s : State) : Host.Outcome State Fault Refusal :=
  .next (if s.ready then s.doorbell off.toNat value.toNat else s)

/-- COALESCE_TIMEOUT: COAL_US after the first record not yet announced (R343). -/
def execCoalesceTimeout (r : BitVec 7) (s : State) : Host.Outcome State Fault Refusal :=
  let n := r.toNat
  let ctl := s.ringCtl n
  .next (if s.ringOn n && bitsOf ctl 3 2 == 2 && decide (0 < (s.ring n).unannounced) then
      (s.setRing n { s.ring n with unannounced := 0 }).msix (bitsOf ctl 9 4)
    else s)

/-- RING_PRESSURE: the occupancy has been above 7/8 of SIZE for 10 ms (R358). -/
def execRingPressure (r : BitVec 7) (s : State) : Host.Outcome State Fault Refusal :=
  let n := r.toNat
  let x := s.ring n
  .next (if decide (n < 48) && s.ringOn n && decide (7 * x.size < 8 * x.occupancy) then s.event 0x0601 noSect (items [n, x.occupancy]) else s)

/-- EVENT_LOST: space has returned to the event or dead-letter ring that lost records (R357). -/
def execEventLost (r : BitVec 7) (s : State) : Host.Outcome State Fault Refusal :=
  let n := r.toNat
  let x := s.ring n
  .next (if decide (0 < x.lost) && x.held.isEmpty && decide (0 < x.free) then
      (s.setRing n { x with lost := 0 }).event 0x0604 noSect (items [n, x.lost])
    else s)

/-! ### Seals (R52-R56) -/

/-- Clears W1C bits of a register. -/
def State.clearBits (s : State) (off v : Nat) : State :=
  if s.reg off &&& v = 0 then s else s.setReg off (s.reg off - (s.reg off &&& v))

/-- A write of SECT_SEAL of section k. -/
def State.writeSectSeal (s : State) (k v : Nat) : State :=
  let s := s.clearBits (oSect k + sSeal) (v &&& 4)
  if bitOf v 0 then s.requestSect k else s

/-- A write of GLB_SEAL. -/
def State.writeGlbSeal (s : State) (v : Nat) : State :=
  let s := s.clearBits oGlbSeal (v &&& 4)
  if bitOf v 0 then s.requestDevice else s

/-- SECTION_SEAL_REQUEST (R52). -/
def execSectionSealRequest (k : SectId) (value : Word) (s : State) : Host.Outcome State Fault Refusal :=
  .next (if s.ready && bitOf value.toNat 0 then s.settleFaulted.writeSectSeal k.toNat value.toNat else s)

/-- DEVICE_SEAL_REQUEST (R55). -/
def execDeviceSealRequest (value : Word) (s : State) : Host.Outcome State Fault Refusal :=
  .next (if s.ready && bitOf value.toNat 0 then s.settleFaulted.writeGlbSeal value.toNat else s)

/-- DEVICE_SEAL_APPLY (R55, R56). -/
def execDeviceSealApply (s : State) : Host.Outcome State Fault Refusal := .next s.applyDevice

/-! ### Section reset (R41, R151, R203, R290, R349, R433, R435, R446, R473) -/

/-- Discards what the chip's network still holds of a section. -/
def State.flushNetwork (s : State) (k : Nat) : State :=
  let s : State := { s with
    msgs := s.msgs.filter fun m => m.sect != k
    nodes := s.nodes.filter fun b => b.sect != k
    slices := s.slices.map fun (xs : List SliceMsg) => xs.filter fun x => x.sect != k }
  ((List.range 32).filter fun l => s.linkSect l == some k).foldl (fun (s : State) l =>
    let x := s.linkN l
    let back := fun v => if v < 5 then (x.rxq.toList.getD v []).length else 0
    s.setLinkN l { x with
      rxq := Vector.ofFn fun (i : Fin 8) => if i.val < 5 then [] else x.rxq.get i
      toReturn := Vector.ofFn fun (i : Fin 8) => x.toReturn.get i + back i.val
      refused := [], partials := [] }) s

/-- A tile after a section reset: scratchpad and fault cleared, tile store kept. -/
def Tile.sectionReset (t : Tile) : Tile :=
  { t.halt.dropStep with
    queues := Vector.replicate 8 [], sp := t.sp.clear, fault := none, faultSeen := false, ex := {}
    ranges := t.ranges.map VRange.revert }

/-- Every slot of a section in the state of R151. -/
def State.freshSlots (s : State) (k : Nat) : Sparse Slot :=
  Sparse.run {} 0 ((List.range 1024).map fun i => Slot.fresh (s.slotCfg k i) (s.slotFixed k i))

/-- The FLUSHED records of the announced entries from a ring index on (R349). -/
def State.flushEntries (s : State) (k : Nat) : Nat → List (List Byte) → State
  | _, [] => s
  | i, d :: rest =>
    let size := (s.ring k).size
    let c := descDone d i 0x0F 0
    if descType d = 1 then
      let s := s.complete k { c with segment := stCode d, postmark := stPostmark d }
      match rest with
      | [] => s
      | _ :: more => State.flushEntries s k ((i + 2) % size) more
    else State.flushEntries (s.complete k c) k ((i + 1) % size) rest

/-- Every announced and unprocessed descriptor is flushed; the head equals the tail. -/
def State.flushRing (s : State) (k : Nat) (entries : List (List Byte)) : State :=
  if !s.ringOn k || entries.isEmpty then s
  else
    let s := s.flushEntries k (s.ring k).head entries
    let x := s.ring k
    ((s.setRing k { x with head := x.tail }).writeBack k x.tail).announce k false

/-- The section reset of a FAULTED section. -/
def State.sectionReset (s : State) (k : Nat) (entries : List (List Byte)) : State :=
  let s := s.flushNetwork k
  let s := s.mapTiles k fun _ t => t.sectionReset
  let s := s.setSectN k { (s.sectN k).quiesce with phase := .idle, slots := s.freshSlots k }
  (s.flushRing k entries).settleSeal k

/-- Entries of job ring k that are announced and not processed. -/
def State.announced (s : State) (k : Nat) : Nat := if s.ringOn k then (s.ring k).occupancy else 0

/-- SECTION_RESET: a write of SECT_RESET with REQ = 1; a section that is not FAULTED, or a failed chip, refuses it (R435, R446). -/
def execSectionReset (k : SectId) (value : Word) (entries : List (List Byte)) (s : State) : Host.Outcome State Fault Refusal :=
  let n := k.toNat
  let o := oSect n + sReset
  .next (if !s.ready || !bitOf value.toNat 0 then s
    else
      let s := s.clearBits o (value.toNat &&& 2)
      if (s.sectN n).phase ≠ .faulted ∨ s.repair.failed then s.setReg o (s.reg o ||| 2)
      else if entries.length ≠ s.announced n then s
      else s.settleFaulted.sectionReset n entries)

/-! ### BAR0 writes (R11, R337, R392) -/

/-- The plain effect of a write: RW fields take it, W1C fields clear, ST fields stage it under the selector in effect, for the next seal where the seal point of a step boundary has passed (R469). -/
def State.writeFields (s : State) (off : Nat) (r : RegSpec) (v : Nat) : State :=
  let k := regKey off (s.selOf r)
  let old := (s.regs.get k).toNat
  let keep := (old - (old &&& r.rw)) - ((old - (old &&& r.rw)) &&& (v &&& r.w1c))
  let s : State := if r.rw = 0 ∧ r.w1c = 0 then s else { s with regs := s.regs.put k (BitVec.ofNat 32 (keep ||| (v &&& r.rw))) }
  if r.st = 0 then s
  else
    let s := match keyScope k with
      | .sect j => s.sealPoint j
      | _ => s
    { s with regs := s.regs.stage k (BitVec.ofNat 32 (v &&& r.st)) }

/-- A write of a register of the first four blocks that does more than hold a value. -/
def State.writeLow (s : State) (off : Nat) (r : RegSpec) (v : Nat) : State :=
  if off = oGlbSeal then s.writeGlbSeal v
  else if off = oGlbReset then s.writeGlbReset v
  else if off = oBootCmd then
    let s := if bitOf v 0 then s.bootGo else s
    if bitOf v 1 then s.startCommit else s
  else s.writeFields off r v

/-- A write of a register above the XLINK block that does more than hold a value. A write of FAULT_PPR_CMD.GO is the command PPR_GO. -/
def State.writeHigh (s : State) (off : Nat) (r : RegSpec) (v : Nat) : State :=
  if off = oFence then s.writeFence v
  else if off = oPprCmd then (if bitOf v 0 then s else s.writeFields off r v)
  else if off = oCapCtl then
    let s : State := { s with repair := { s.repair with capDone := false } }
    s.writeFields off r v
  else if off = oDbgCtl then (if bitOf v 0 then s.openDebug else s)
  else s.writeFields off r v

/-- A write of an assigned register. A write of SECT_RESET.REQ is the command SECTION_RESET. -/
def State.writeReg (s : State) (off : Nat) (r : RegSpec) (v : Nat) : State :=
  if off < 0x40000 then s.writeLow off r v
  else if off < oRing 67 then (if off % 0x20 = 0xC then s.writeRingCtl ((off - oRing 0) / 0x20) v else s.writeFields off r v)
  else if off < oSect 0 then s
  else if off < oSect 16 then
    let k := (off - oSect 0) / 0x100
    if off % 0x100 = sSeal then s.writeSectSeal k v
    else if off % 0x100 = sReset then (if bitOf v 0 then s else s.clearBits off (v &&& 2))
    else s.writeFields off r v
  else if off < oXlink 32 then
    (if off % 0x400 = 0 then s.writeXlinkCtl ((off - oXlink 0) / 0x400) v else s.writeFields off r v)
  else s.writeHigh off r v

/-- A BAR0 write. -/
def State.writeBar0 (s : State) (off size v : Nat) : State :=
  if !s.ready && !inBoot off then s
  else if inDoorbells off then (if size = 8 ∧ off % 8 = 0 then s.doorbell (off - 0x50000) v else s.badAccess true off size)
  else if size ≠ 4 ∨ off % 4 ≠ 0 then s.badAccess true off size
  else match regSpec off with
    | some r => s.writeReg off r (v % 2 ^ 32)
    | none => s

/-- REGISTER_WRITE (R11, R337). -/
def execRegisterWrite (off : BitVec 24) (size : Nat) (value : Dword) (s : State) : Host.Outcome State Fault Refusal :=
  .next (s.settleFaulted.writeBar0 off.toNat size value.toNat)

/-! ### BAR0 reads (R11, R337, R392, R472) -/

/-- A read of an assigned register: its value; a counter is cleared, a HI word latched. -/
def State.readReg (s : State) (off : Nat) (r : RegSpec) : State :=
  let v := s.peek off r
  let s := if r.rc then s.clearCounter (s.counterAt off) else s
  let s : State := match s.hiOfLo off with
    | some h => { s with regs := { s.regs with latches := Sparse.set 0 s.regs.latches off (BitVec.ofNat 32 h) } }
    | none => s
  { s with reply := .data v }

/-- A BAR0 read. -/
def State.readBar0 (s : State) (off size : Nat) : State :=
  if !s.ready && !inBoot off then { s with reply := .data 0 }
  else if size ≠ 4 ∨ off % 4 ≠ 0 then { s.badAccess false off size with reply := .data 0xFFFFFFFF }
  else match regSpec off with
    | some r => s.readReg off r
    | none => { s with reply := .data 0 }

/-- READ_CLEAR (R11). -/
def execReadClear (off : BitVec 24) (size : Nat) (s : State) : Host.Outcome State Fault Refusal := .next (s.settleFaulted.readBar0 off.toNat size)

/-- LATCHING_READ (R472). -/
def execLatchingRead (off : BitVec 24) (size : Nat) (s : State) : Host.Outcome State Fault Refusal := .next (s.settleFaulted.readBar0 off.toNat size)

end Sys2Proof.Machine
end

