-- ==== Sys2Proof/Machine/Ports.lean ====
section
/-! DEFINITION. Ports.lean: BAR2, PCIe training and configuration, SMBus telemetry, JTAG (R10, R83, R201, R202, R209, R214, R263, R275, R290, R325, R335, R336, R414, R415, R441, R446, R482, R483). -/

namespace Sys2Proof.Machine

/-! ### BAR2: where a device address lies (R10, R336) -/

/-- What a device address names. -/
inductive Place where
  | tileStore (ltn off : Nat)
  | reserved
  | scratchpad (ltn off : Nat)
  | hbm
  | unmapped
  deriving DecidableEq, Repr

/-- The map of R10. -/
def placeOf (a : Nat) : Place :=
  if a < 0x1000000000 then (if a % 0x2000000 < 0x1800000 then .tileStore (a / 0x2000000) (a % 0x2000000) else .reserved)
  else if a < 0x1080000000 then .scratchpad ((a - 0x1000000000) / 0x100000) (a % 0x100000)
  else if inHbm a then .hbm
  else .unmapped

/-- The device address of a BAR2 offset. -/
def State.barAddr (s : State) (off : Nat) : Nat := s.reg oBar2Win * 2 ^ 36 + off

/-! ### BAR2 reads (R83, R201, R209, R214, R441) -/

/-- A read answered with Unsupported Request. -/
def State.unsupported (s : State) : State := { s with reply := .unsupported }

/-- A read of a scratchpad; a closed port answers nothing but Unsupported Request (R201, R251, log 184). -/
def State.barReadSp (s : State) (a ltn off n : Nat) : State :=
  if s.fencedLtn ltn then (s.fencedLetter false ltn a n).unsupported
  else
    let t := s.padTouch ltn off n
    if ((s.tileN ltn).sp.check off n).2.isSome then t.unsupported else { t with reply := .bytes (s.padBytes ltn off n) }

/-- Whether every row of a range of a tile store can be read. -/
def State.storeServed (s : State) (ltn off n : Nat) : Bool :=
  !s.fencedLtn ltn && (wordsOf off n 64).all fun r =>
    (s.tileN ltn).ts.rowFate r == .on && ((s.tileN ltn).ts.check (64 * r) 64).2.isNone

/-- A read of a tile store; one that meets a bank in transition is held at its port and answered with nothing yet (R209, R213, R214, log 184). -/
def State.barReadTs (s : State) (ltn off n : Nat) : State :=
  if s.storeWaits ltn off n then { s with reply := .none }
  else
    let t := s.storeTouch ltn off n 0 Config.requesterId
    if s.storeServed ltn off n then { t with reply := .bytes (s.storeBytes ltn off n) } else t.unsupported

/-- A read of HBM. -/
def State.barReadHbm (s : State) (a n : Nat) : State :=
  match s.hbmBadUnit a n with
  | some u => (s.hbmUncorr noSect u).unsupported
  | none => { s with reply := .bytes (s.hbm.readBytes a n) }

/-- BAR2_READ (R336). -/
def execBar2Read (off : BitVec 38) (len : Nat) (s : State) : Host.Outcome State Fault Refusal :=
  let a := s.barAddr off.toNat
  .next (if !s.ready then s.unsupported
    else match placeOf a with
      | .tileStore t o => s.barReadTs t o len
      | .scratchpad t o => s.barReadSp a t o len
      | .hbm => s.barReadHbm a len
      | .reserved => (s.hostDead 2 false a len).unsupported
      | .unmapped => (s.hostDead 1 false a len).unsupported)

/-! ### BAR2 writes (R83, R202, R214, R263, R275, R290, R325) -/

/-- Whether a section is RUNNING, SWITCHING or HELD. -/
def Section.busy (x : Section) : Bool := x.phase == .running || x.phase == .switching || x.phase == .held

/-- Whether the section of a tile is RUNNING, SWITCHING or HELD. -/
def State.tileBusy (s : State) (ltn : Nat) : Bool := s.clusterBusy (clusterOf ltn)

/-- Whether a range of a tile meets a CURRENT version range. -/
def Tile.meetsCurrent (t : Tile) (off n : Nat) : Bool := t.ranges.any fun r => r.st == .current && overlaps r.off r.len off n

/-- A write of a tile store: CURRENT ranges refuse it, rows of banks that are not ON are dropped or held (R213, R214, R290). -/
def State.barWriteTs (s : State) (a ltn off : Nat) (bs : List Byte) : State :=
  if !s.fencedLtn ltn && (s.tileN ltn).meetsCurrent off bs.length then s.hostDead 0x0A true a bs.length
  else s.outsideWrite ltn off bs 0 Config.requesterId none

/-- A write of a scratchpad; a closed port discards it (R202, R251). -/
def State.barWriteSp (s : State) (a ltn off : Nat) (bs : List Byte) : State :=
  if s.fencedLtn ltn then s.fencedLetter true ltn a bs.length else s.padWrite ltn off bs

/-- The steps of a section whose mask copies are locked: program slot and MASK_SEL (R263). -/
def Section.maskSteps (x : Section) : List (Nat × Nat) :=
  let ofRun := fun (r : Option StepRun) => match r with
    | some r => [(r.tt / 1024, r.maskSel)]
    | none => []
  let ofChain := match x.chain with
    | some c => [(c.tt / 1024, maskSelOf ((Sparse.get none x.programs (c.tt / 1024)).getD {}) c.values)]
    | none => []
  ofRun x.run ++ ofRun x.evalWait ++ ofChain

/-- The tables whose selected copies a range of HBM meets. -/
def State.maskHits (s : State) (x : Section) (a n : Nat) : List Nat :=
  (x.maskSteps.flatMap fun e =>
    let p := (Sparse.get none x.programs e.1).getD {}
    (p.masks.filter fun m => match p.maskCopy m.1 (bitOf e.2 m.1) with
      | some b => overlaps b (maskLen (s.hbm.readLe b 4)) a n
      | none => false).map (·.1)).eraseDups

/-- Tables whose MASK_LOCKED the step has posted, and one more of them. -/
def Section.lockedPosted (x : Section) : List Nat :=
  (match x.run with | some r => r.lockedPosted | none => []) ++ (match x.chain with | some c => c.lockedPosted | none => [])
  ++ (match x.evalWait with | some r => r.lockedPosted | none => [])
def Section.noteLocked (x : Section) (t : Nat) : Section :=
  { x with
    run := x.run.map fun r => { r with lockedPosted := r.lockedPosted ++ [t] }
    chain := x.chain.map fun c => { c with lockedPosted := c.lockedPosted ++ [t] }
    evalWait := x.evalWait.map fun r => { r with lockedPosted := r.lockedPosted ++ [t] } }

/-- MASK_LOCKED, once per step and table (R263). -/
def State.maskLocked (s : State) (k t : Nat) : State :=
  let x := s.sectN k
  if x.lockedPosted.contains t then s else (s.setSectN k (x.noteLocked t)).event 0x0408 k (items [t])

/-- Whether a range of HBM meets row words of a section's groups (R275). -/
def Section.rowWordHit (x : Section) (a n : Nat) : Bool :=
  x.groups.any fun e => match e.2 with
    | some g => gRowWords g.desc && !gOwner g.desc && overlaps (gRowWord g.desc) (4 * gRows g.desc) a n
    | none => false

/-- Whether a range of HBM meets the shuffle table of a section (R325). -/
def Section.shuffleHit (x : Section) (a n : Nat) : Bool :=
  match x.table with
  | some t => overlaps t.addr (64 + t.rows * roundUp (4 * t.window) 64) a n
  | none => false

/-- The mask tables, by section, whose selected copies a range of HBM meets. -/
def State.lockedTables (s : State) (a n : Nat) : List (Nat × Nat) :=
  (List.range 16).flatMap fun k => (s.maskHits (s.sectN k) a n).map fun t => (k, t)

/-- Why a write of HBM is refused: it meets row words of a busy section, a locked mask table, or a shuffle table (R263, R275, R325). -/
def State.hbmRefusal (s : State) (a n : Nat) : Option Nat :=
  let xs := (List.range 16).map s.sectN
  if xs.any fun x => x.busy && x.rowWordHit a n then some 3
  else if !(s.lockedTables a n).isEmpty then some 0x0B
  else if xs.any fun x => x.shuffleHit a n then some 0x0C
  else none

/-- A write of HBM: refused, it leaves one dead letter, and one MASK_LOCKED for each locked table that it meets. -/
def State.barWriteHbm (s : State) (a : Nat) (bs : List Byte) : State :=
  let n := bs.length
  match s.hbmRefusal a n with
  | some r => (s.lockedTables a n).foldl (fun (s : State) e => s.maskLocked e.1 e.2) (s.hostDead r true a n)
  | none => s.hbmWrite a bs

/-- BAR2_WRITE (R336); a failed chip serves no write (R446). -/
def execBar2Write (off : BitVec 38) (data : List Byte) (s : State) : Host.Outcome State Fault Refusal :=
  let a := s.barAddr off.toNat
  let n := data.length
  .next (if !s.ready || s.repair.failed || data.isEmpty then s
    else match placeOf a with
      | .tileStore t o => if s.tileBusy t then s.hostDead 3 true a n else s.barWriteTs a t o data
      | .scratchpad t o => if s.tileBusy t then s.hostDead 3 true a n else s.barWriteSp a t o data
      | .hbm => s.barWriteHbm a data
      | .reserved => s.hostDead 2 true a n
      | .unmapped => s.hostDead 1 true a n)

/-! ### PCIe (R335) -/

/-- PCIE_TRAINING_COMPLETE: PCIE_DEGRADED below the widths and rates of specified operation. -/
def execPcieTrainingComplete (width rate : Nat) (s : State) : Host.Outcome State Fault Refusal :=
  .next (if s.phys.perst || !s.phys.powered then s
    else
      let s : State := { s with pcie := { s.pcie with trained := true, width := width, rate := rate } }
      if [4, 8, 16].contains width && [32, 64, 128].contains rate then s else s.event 0x0605 noSect [])

/-- Bits lo to hi of a word replaced. -/
def putBits (w hi lo v : Nat) : Nat := w - bitsOf w hi lo * 2 ^ lo + v % 2 ^ (hi - lo + 1) * 2 ^ lo

/-- A register of a capability, by its place in it, of which w is what the base specification makes of what was written and v what was written (R335, log 98): No_Soft_Reset 0; Max_Payload_Size of 512 B, FLR and 10-bit tags as completer and requester supported; 64 vectors, the table at 0x0000 and the pending-bit array at 0x1000 of BAR4, with MSI-X Enable and Function Mask; ECRC generation and checking supported, enabled as written. -/
def State.capabilityRead (s : State) (c : Capability) (i v w : Nat) : Nat :=
  match c, i with
  | .pm, 1 => putBits w 3 3 0
  | .pcie, 1 => putBits (putBits w 2 0 2) 28 28 1
  | .pcie, 9 => putBits w 17 16 3
  | .msix, 0 => putBits (putBits w 7 0 0x11) 31 16 (63 + 0x4000 * boolNat s.pcie.msixMask + 0x8000 * boolNat s.pcie.msixEnable)
  | .msix, 1 => 4
  | .msix, 2 => 0x1004
  | .aer, 6 => putBits w 8 5 (5 + 2 * boolNat (bitOf v 6) + 8 * boolNat (bitOf v 8))
  | _, _ => w

/-- The capability that a register belongs to, among those whose registers the spec bounds. -/
def capabilityOf (reg : Nat) : Option (Capability × Nat) :=
  ([(Capability.pm, 2), (.pcie, 15), (.msix, 3), (.aer, 11)].find? fun e =>
    decide (Config.capability e.1 ≤ reg) && decide (reg < Config.capability e.1 + e.2)).map fun e => (e.1, reg - Config.capability e.1)

/-- What a configuration register reads as (R335): device ID, class code, Type 0 header of one function and the six BAR registers as the spec states them, of a BAR the address bits that were written last above its size; the capabilities as R335 bounds them; the rest as the base specification defines it (log 98). -/
def State.configRead (s : State) (reg : Nat) : Nat :=
  let v := (Sparse.get 0 s.pcie.config reg).toNat
  let w := (Config.pcieRegister reg (Sparse.get 0 s.pcie.config reg)).toNat
  match reg with
  | 0 => Config.pcieVendor.toNat + 0x0D010000
  | 2 => 0x12000000 + w % 256
  | 3 => w % 0x10000 + w / 0x1000000 * 0x1000000
  | 4 => (v &&& 0xFF000000) + 0x4
  | 5 => v
  | 6 => 0xC
  | 7 => v &&& 0xFFFFFFC0
  | 8 => (v &&& 0xFFFFE000) + 0x4
  | 9 => v
  | _ => match capabilityOf reg with
    | some (c, i) => s.capabilityRead c i v w
    | none => w

/-- Sends the messages of vectors whose pending bits are set and that nothing masks any longer (R335, log 98). -/
def State.unmask (s : State) : State :=
  ((List.range 64).filter fun v => bitOf s.pcie.msixPending.toNat v && s.pcie.sends v).foldl (fun (s : State) v =>
    ({ s with pcie := { s.pcie with msixPending := s.pcie.msixPending &&& ~~~(BitVec.ofNat 64 (2 ^ v)) } } : State).msix v) s

/-- A write of a configuration register; Message Control holds MSI-X Enable and Function Mask. -/
def State.configWrite (s : State) (reg : Nat) (value : Word) : State :=
  let s : State := { s with pcie := { s.pcie with config := Sparse.set 0 s.pcie.config reg value } }
  if reg = Config.capability .msix ∧ 10 ≤ reg then
    ({ s with pcie := { s.pcie with msixEnable := bitOf value.toNat 31, msixMask := bitOf value.toNat 30 } } : State).unmask
  else s

/-- The 8-byte words of BAR4: the MSI-X table at 0x0000, the pending-bit array at 0x1000, 0 elsewhere (R335). -/
def Pcie.bar4Word (p : Pcie) (i : Nat) : Dword :=
  if i < 128 then Sparse.get (if i % 2 = 1 then 0x100000000 else 0) p.msixTable i else if i = 512 then p.msixPending else 0

/-- A write of 4 bytes of BAR4: the table takes it, the pending-bit array is read only. -/
def State.bar4Write (s : State) (off : Nat) (value : Word) : State :=
  let i := off / 8
  if 128 ≤ i then s
  else
    let w := (s.pcie.bar4Word i).toNat
    let v := if off % 8 < 4 then w / 2 ^ 32 * 2 ^ 32 + value.toNat else w % 2 ^ 32 + 2 ^ 32 * value.toNat
    ({ s with pcie := { s.pcie with msixTable := Sparse.set (if i % 2 = 1 then 0x100000000 else 0) s.pcie.msixTable i (BitVec.ofNat 64 v) } } : State).unmask

/-- CONFIG_REQUEST (R335, R392): the configuration space is served from PERST# deassertion on, BAR4 from READY on. -/
def execConfigRequest (write : Bool) (target : ConfigTarget) (value : Word) (s : State) : Host.Outcome State Fault Refusal :=
  .next (if s.phys.perst || !s.phys.powered then s
    else match target, write with
      | .register r, true => s.configWrite r.toNat value
      | .register r, false => { s with reply := .data (s.configRead r.toNat) }
      | .bar4 o, true => if s.ready then s.bar4Write o.toNat value else s
      | .bar4 o, false => if s.ready then { s with reply := .data ((s.pcie.bar4Word (o.toNat / 8)).toNat / (if o.toNat % 8 < 4 then 1 else 2 ^ 32) % 2 ^ 32) } else s.unsupported)

/-! ### SMBus telemetry (R415, R482) -/

/-- The highest reading of sensors lo to hi - 1. -/
def State.hottest (s : State) (lo hi : Nat) : Nat := ((s.phys.temps.toList.drop lo).take (hi - lo)).foldl max 0

/-- The word of a command code of the reduced set. -/
def State.smbusReduced (s : State) (code : Nat) : Option Nat :=
  match code with
  | 0x01 => some (s.hottest 0 64)
  | 0x02 => some (s.hottest 64 68)
  | 0x03 => some (s.hottest 68 72)
  | 0x04 => some (s.roLow oVhu)
  | 0x05 => some (s.roLow oBootStatus % 65536)
  | _ => none

/-- The word of a command code of the full set. -/
def State.smbusFull (s : State) (code : Nat) : Option Nat :=
  if 0x10 ≤ code ∧ code ≤ 0x14 then some (s.phys.rail (code - 0x10)).mv
  else if 0x18 ≤ code ∧ code ≤ 0x1C then some (s.phys.rail (code - 0x18)).amp
  else if 0x20 ≤ code ∧ code ≤ 0x27 then some (s.phys.hbmTemp.toList.getD (code - 0x20) 0)
  else if code = 0x28 then some (s.roLow oPwrStatus % 65536)
  else if code = 0x29 then some (s.roLow oGlbStatus % 65536)
  else if code = 0x2A then some (s.roHigh oFaultChip % 65536)
  else none

/-- The word of a command code: of the full set 0xFFFF before READY; none for any other code. -/
def State.smbusWord (s : State) (code : Nat) : Option Nat :=
  match s.smbusReduced code with
  | some v => some v
  | none => (s.smbusFull code).map fun v => if s.ready then v else 0xFFFF

/-- One step of the CRC-8 of SMBus, x^8 + x^2 + x + 1 (log 224). -/
def pecStep (c : Nat) : Nat := if bitOf c 7 then (2 * c % 256) ^^^ 7 else 2 * c

/-- The packet error code over bytes, which SMBus 3.1 defines (R482, log 224). -/
def smbusPec (bs : List Nat) : Nat := bs.foldl (fun c b => (List.range 8).foldl (fun c _ => pecStep c) (c ^^^ b)) 0

/-- The port's 7-bit address (R482). -/
def smbusAddress : Nat := 0x64 + Config.smbAddr.toNat

/-- What the port answers a transfer to its address with a command code that it acknowledges (R482). -/
def smbusAnswer (code word : Nat) : SmbusTail → Reply
  | .read false => .data word
  | .read true => .bytes (leBytes 2 word ++ leBytes 1 (smbusPec [2 * smbusAddress, code, 2 * smbusAddress + 1, word % 256, word / 256 % 256]))
  | .write _ => .notAcknowledged
  | .stop => .none

/-- SMBUS_READ_WORD: another address or command code is not acknowledged, nor a data byte written after a code; a code followed by a stop is discarded (R482). -/
def execSmbusReadWord (transfer : SmbusTransfer) (s : State) : Host.Outcome State Fault Refusal :=
  .next { s with reply :=
    if !s.phys.smbus || transfer.addr.toNat != smbusAddress then .notAcknowledged
    else match s.smbusWord transfer.code.toNat with
      | some v => smbusAnswer transfer.code.toNat v transfer.tail
      | none => .notAcknowledged }

/-! ### JTAG (R414, R483) -/

/-- The pins are no longer driven from the boundary cells; what is shifted out of a register of n bits, the last of them left on TDO (log 225). -/
def State.tap (s : State) (n out : Nat) : State := { s with phys := { s.phys with extest := 0, tdo := some (bitOf out (n - 1)) }, reply := .data out }

/-- BYPASS: the one-bit bypass register captures 0. -/
def execBypass (s : State) : Host.Outcome State Fault Refusal := .next (s.tap 1 0)

/-- IDCODE (R483). -/
def execIdcode (s : State) : Host.Outcome State Fault Refusal := .next (s.tap 32 0x10D01A4B)

/-- SAMPLE/PRELOAD: the pins are captured and shifted out while the cells are loaded. -/
def execSamplePreload (pins preload : List Bool) (s : State) : Host.Outcome State Fault Refusal :=
  .next { s with phys := { s.phys with extest := 0, boundary := preload, tdo := pins.getLast? }, reply := .bytes (pins.map fun b => BitVec.ofNat 8 (boolNat b)) }

/-- The pins are driven from the cells; what the cells held is shifted out. -/
def State.drive (s : State) (mode : Nat) (cells : List Bool) : State := { s with phys := { s.phys with extest := mode, boundary := cells, tdo := s.phys.boundary.getLast? } }

/-- The cells of the PCIe and Xagon lanes take new values, the others keep theirs (R483). -/
def laneCells (held cells : List Bool) : List Bool := cells.zipIdx.map fun e => if Config.laneCell e.2 then e.1 else held.getD e.2 false

/-- EXTEST. -/
def execExtest (cells : List Bool) (s : State) : Host.Outcome State Fault Refusal := .next (s.drive 1 cells)

/-- EXTEST_PULSE, on the AC-coupled lanes of PCIe and Xagon alone (R414, R483). -/
def execExtestPulse (cells : List Bool) (s : State) : Host.Outcome State Fault Refusal := .next (s.drive 2 (laneCells s.phys.boundary cells))

/-- EXTEST_TRAIN, on the AC-coupled lanes of PCIe and Xagon alone (R414, R483). -/
def execExtestTrain (cells : List Bool) (s : State) : Host.Outcome State Fault Refusal := .next (s.drive 3 (laneCells s.phys.boundary cells))

/-- INTERNAL_DEBUG: BYPASS unless DBG_OPEN is set; with it the spec does not say what the instruction does to engine state. -/
def execInternalDebug (_op : Nat) (s : State) : Host.Outcome State Fault Refusal :=
  if s.boot.dbgOpen then .refused .internalDebug else .next (s.tap 1 0)

end Sys2Proof.Machine
end

