-- ==== Sys2Proof/Machine/Dispatch.lean ====
section
/-! DEFINITION. Dispatch.lean: one arm per command. -/

namespace Sys2Proof.Machine

def exec (i : Instr) (s : State) : Host.Outcome State Fault Refusal :=
  match i with
  | .add t gd ga gb => Sys2Proof.Machine.execAdd t gd ga gb s
  | .sub t gd ga gb => Sys2Proof.Machine.execSub t gd ga gb s
  | .andR t gd ga gb => Sys2Proof.Machine.execAndR t gd ga gb s
  | .orR t gd ga gb => Sys2Proof.Machine.execOrR t gd ga gb s
  | .xor t gd ga gb => Sys2Proof.Machine.execXor t gd ga gb s
  | .sll t gd ga gb => Sys2Proof.Machine.execSll t gd ga gb s
  | .srl t gd ga gb => Sys2Proof.Machine.execSrl t gd ga gb s
  | .sra t gd ga gb => Sys2Proof.Machine.execSra t gd ga gb s
  | .slt t gd ga gb => Sys2Proof.Machine.execSlt t gd ga gb s
  | .sltu t gd ga gb => Sys2Proof.Machine.execSltu t gd ga gb s
  | .mul t gd ga gb => Sys2Proof.Machine.execMul t gd ga gb s
  | .mulhs t gd ga gb => Sys2Proof.Machine.execMulhs t gd ga gb s
  | .mulhu t gd ga gb => Sys2Proof.Machine.execMulhu t gd ga gb s
  | .minR t gd ga gb => Sys2Proof.Machine.execMinR t gd ga gb s
  | .maxR t gd ga gb => Sys2Proof.Machine.execMaxR t gd ga gb s
  | .minu t gd ga gb => Sys2Proof.Machine.execMinu t gd ga gb s
  | .maxu t gd ga gb => Sys2Proof.Machine.execMaxu t gd ga gb s
  | .addi t gd ga imm => Sys2Proof.Machine.execAddi t gd ga imm s
  | .andi t gd ga imm => Sys2Proof.Machine.execAndi t gd ga imm s
  | .ori t gd ga imm => Sys2Proof.Machine.execOri t gd ga imm s
  | .xori t gd ga imm => Sys2Proof.Machine.execXori t gd ga imm s
  | .slti t gd ga imm => Sys2Proof.Machine.execSlti t gd ga imm s
  | .sltiu t gd ga imm => Sys2Proof.Machine.execSltiu t gd ga imm s
  | .shiSll t gd ga sh => Sys2Proof.Machine.execShiSll t gd ga sh s
  | .shiSrl t gd ga sh => Sys2Proof.Machine.execShiSrl t gd ga sh s
  | .shiSra t gd ga sh => Sys2Proof.Machine.execShiSra t gd ga sh s
  | .lw t gd ga imm => Sys2Proof.Machine.execLw t gd ga imm s
  | .lh t gd ga imm => Sys2Proof.Machine.execLh t gd ga imm s
  | .lhu t gd ga imm => Sys2Proof.Machine.execLhu t gd ga imm s
  | .lb t gd ga imm => Sys2Proof.Machine.execLb t gd ga imm s
  | .lbu t gd ga imm => Sys2Proof.Machine.execLbu t gd ga imm s
  | .sw t gs ga imm => Sys2Proof.Machine.execSw t gs ga imm s
  | .sh t gs ga imm => Sys2Proof.Machine.execSh t gs ga imm s
  | .sb t gs ga imm => Sys2Proof.Machine.execSb t gs ga imm s
  | .jalr t gd ga imm => Sys2Proof.Machine.execJalr t gd ga imm s
  | .beq t ga gb off => Sys2Proof.Machine.execBeq t ga gb off s
  | .bne t ga gb off => Sys2Proof.Machine.execBne t ga gb off s
  | .blt t ga gb off => Sys2Proof.Machine.execBlt t ga gb off s
  | .bge t ga gb off => Sys2Proof.Machine.execBge t ga gb off s
  | .bltu t ga gb off => Sys2Proof.Machine.execBltu t ga gb off s
  | .bgeu t ga gb off => Sys2Proof.Machine.execBgeu t ga gb off s
  | .lui t gd imm => Sys2Proof.Machine.execLui t gd imm s
  | .jal t gd imm => Sys2Proof.Machine.execJal t gd imm s
  | .cmd t q ga gb tag => Sys2Proof.Machine.execCmd t q ga gb tag s
  | .waits t q ga => Sys2Proof.Machine.execWaits t q ga s
  | .qwait t q => Sys2Proof.Machine.execQwait t q s
  | .sync t ga => Sys2Proof.Machine.execSync t ga s
  | .closingSync t ga => Sys2Proof.Machine.execClosingSync t ga s
  | .trap t code => Sys2Proof.Machine.execTrap t code s
  | .commandStart t q => Sys2Proof.Machine.execCommandStart t q s
  | .commandComplete t q => Sys2Proof.Machine.execCommandComplete t q s
  | .mma t => Sys2Proof.Machine.execMma t s
  | .handOff t => Sys2Proof.Machine.execHandOff t s
  | .drain t => Sys2Proof.Machine.execDrain t s
  | .drainSp t => Sys2Proof.Machine.execDrainSp t s
  | .vprog t => Sys2Proof.Machine.execVprog t s
  | .scand t => Sys2Proof.Machine.execScand t s
  | .smerge t => Sys2Proof.Machine.execSmerge t s
  | .spick t => Sys2Proof.Machine.execSpick t s
  | .fill t => Sys2Proof.Machine.execFill t s
  | .copy t => Sys2Proof.Machine.execCopy t s
  | .tsRead t => Sys2Proof.Machine.execTsRead t s
  | .tsWrite t => Sys2Proof.Machine.execTsWrite t s
  | .tfill t => Sys2Proof.Machine.execTfill t s
  | .tcopy t => Sys2Proof.Machine.execTcopy t s
  | .tpwr t => Sys2Proof.Machine.execTpwr t s
  | .bankTransition t bank => Sys2Proof.Machine.execBankTransition t bank s
  | .hread t data => Sys2Proof.Machine.execHread t data s
  | .hwrite t => Sys2Proof.Machine.execHwrite t s
  | .usend t => Sys2Proof.Machine.execUsend t s
  | .ucount t => Sys2Proof.Machine.execUcount t s
  | .scrub t ts bank => Sys2Proof.Machine.execScrub t ts bank s
  | .tileFault k => Sys2Proof.Machine.execTileFault k s
  | .barrierRelease k => Sys2Proof.Machine.execBarrierRelease k s
  | .sendInject t late => Sys2Proof.Machine.execSendInject t late s
  | .nodeCombine office node => Sys2Proof.Machine.execNodeCombine office node s
  | .messageReceive t n => Sys2Proof.Machine.execMessageReceive t n s
  | .exchangeComplete t duration => Sys2Proof.Machine.execExchangeComplete t duration s
  | .exchangeOverrun k cluster => Sys2Proof.Machine.execExchangeOverrun k cluster s
  | .barrierTimeout k => Sys2Proof.Machine.execBarrierTimeout k s
  | .step k desc values => Sys2Proof.Machine.execStep k desc values s
  | .whole k => Sys2Proof.Machine.execWhole k s
  | .head k => Sys2Proof.Machine.execHead k s
  | .middle k => Sys2Proof.Machine.execMiddle k s
  | .tail k => Sys2Proof.Machine.execTail k s
  | .stepBoundary k => Sys2Proof.Machine.execStepBoundary k s
  | .switch k desc => Sys2Proof.Machine.execSwitch k desc s
  | .load k desc => Sys2Proof.Machine.execLoad k desc s
  | .loadDone k result => Sys2Proof.Machine.execLoadDone k result s
  | .save k desc => Sys2Proof.Machine.execSave k desc s
  | .saveDone k => Sys2Proof.Machine.execSaveDone k s
  | .ingest k desc => Sys2Proof.Machine.execIngest k desc s
  | .seal k desc => Sys2Proof.Machine.execSeal k desc s
  | .fence k desc => Sys2Proof.Machine.execFence k desc s
  | .fenceComplete k => Sys2Proof.Machine.execFenceComplete k s
  | .barrier k desc => Sys2Proof.Machine.execBarrier k desc s
  | .nop k desc => Sys2Proof.Machine.execNop k desc s
  | .doorbell off value => Sys2Proof.Machine.execDoorbell off value s
  | .coalesceTimeout r => Sys2Proof.Machine.execCoalesceTimeout r s
  | .ringPressure r => Sys2Proof.Machine.execRingPressure r s
  | .eventLost r => Sys2Proof.Machine.execEventLost r s
  | .sectionReset k value entries => Sys2Proof.Machine.execSectionReset k value entries s
  | .sectionSealRequest k value => Sys2Proof.Machine.execSectionSealRequest k value s
  | .deviceSealRequest value => Sys2Proof.Machine.execDeviceSealRequest value s
  | .deviceSealApply => Sys2Proof.Machine.execDeviceSealApply s
  | .avsReadback rail mv status expired => Sys2Proof.Machine.execAvsReadback rail mv status expired s
  | .registerWrite off size value => Sys2Proof.Machine.execRegisterWrite off size value s
  | .readClear off size => Sys2Proof.Machine.execReadClear off size s
  | .ringEnable r value => Sys2Proof.Machine.execRingEnable r value s
  | .bar2Read off len => Sys2Proof.Machine.execBar2Read off len s
  | .bar2Write off data => Sys2Proof.Machine.execBar2Write off data s
  | .configRequest write reg value => Sys2Proof.Machine.execConfigRequest write reg value s
  | .ingestDescriptor n desc chunk => Sys2Proof.Machine.execIngestDescriptor n desc chunk s
  | .tubeletStage n => Sys2Proof.Machine.execTubeletStage n s
  | .ingestStalled k => Sys2Proof.Machine.execIngestStalled k s
  | .sliceIntake d => Sys2Proof.Machine.execSliceIntake d s
  | .rootComputeDone k g => Sys2Proof.Machine.execRootComputeDone k g s
  | .versionCopyDone k => Sys2Proof.Machine.execVersionCopyDone k s
  | .evalCopyDone k => Sys2Proof.Machine.execEvalCopyDone k s
  | .snapDone k => Sys2Proof.Machine.execSnapDone k s
  | .flightSend l => Sys2Proof.Machine.execFlightSend l s
  | .flightReceive l flight corrected uncorrectable => Sys2Proof.Machine.execFlightReceive l flight corrected uncorrectable s
  | .resendTimeout l => Sys2Proof.Machine.execResendTimeout l s
  | .laneLoss l lane => Sys2Proof.Machine.execLaneLoss l lane s
  | .laneMonitor l lane symbols => Sys2Proof.Machine.execLaneMonitor l lane symbols s
  | .linkUp l chip link => Sys2Proof.Machine.execLinkUp l chip link s
  | .linkDegraded l => Sys2Proof.Machine.execLinkDegraded l s
  | .linkDown l => Sys2Proof.Machine.execLinkDown l s
  | .linkOpen l value => Sys2Proof.Machine.execLinkOpen l value s
  | .linkClose l value => Sys2Proof.Machine.execLinkClose l value s
  | .retrain l value => Sys2Proof.Machine.execRetrain l value s
  | .perst => Sys2Proof.Machine.execPerst s
  | .perstDeassert => Sys2Proof.Machine.execPerstDeassert s
  | .coldReset => Sys2Proof.Machine.execColdReset s
  | .hotReset => Sys2Proof.Machine.execHotReset s
  | .flr => Sys2Proof.Machine.execFlr s
  | .deviceReset value fromD3 => Sys2Proof.Machine.execDeviceReset value fromD3 s
  | .boscReady => Sys2Proof.Machine.execBoscReady s
  | .refclkWindow edges => Sys2Proof.Machine.execRefclkWindow edges s
  | .clkLost => Sys2Proof.Machine.execClkLost s
  | .boscTrim count => Sys2Proof.Machine.execBoscTrim count s
  | .loopReady island => Sys2Proof.Machine.execLoopReady island s
  | .loopUnlock island => Sys2Proof.Machine.execLoopUnlock island s
  | .railMonitor rail answered mv amp c status => Sys2Proof.Machine.execRailMonitor rail answered mv amp c status s
  | .tempSample readings => Sys2Proof.Machine.execTempSample readings s
  | .hbmTempSample readings => Sys2Proof.Machine.execHbmTempSample readings s
  | .hbmEcs counts => Sys2Proof.Machine.execHbmEcs counts s
  | .letterboxReady => Sys2Proof.Machine.execLetterboxReady s
  | .go => Sys2Proof.Machine.execGo s
  | .fetchDone result mv => Sys2Proof.Machine.execFetchDone result mv s
  | .holdupRecheck mv => Sys2Proof.Machine.execHoldupRecheck mv s
  | .startingDone trainingFailed => Sys2Proof.Machine.execStartingDone trainingFailed s
  | .commit => Sys2Proof.Machine.execCommit s
  | .dbgOpen => Sys2Proof.Machine.execDbgOpen s
  | .doeDiscovery index => Sys2Proof.Machine.execDoeDiscovery index s
  | .getQuote request mv => Sys2Proof.Machine.execGetQuote request mv s
  | .getCert request => Sys2Proof.Machine.execGetCert request s
  | .smbusReadWord code => Sys2Proof.Machine.execSmbusReadWord code s
  | .bypass => Sys2Proof.Machine.execBypass s
  | .idcode => Sys2Proof.Machine.execIdcode s
  | .samplePreload pins preload => Sys2Proof.Machine.execSamplePreload pins preload s
  | .extest cells => Sys2Proof.Machine.execExtest cells s
  | .extestPulse cells => Sys2Proof.Machine.execExtestPulse cells s
  | .extestTrain cells => Sys2Proof.Machine.execExtestTrain cells s
  | .internalDebug op => Sys2Proof.Machine.execInternalDebug op s
  | .faultFence value => Sys2Proof.Machine.execFaultFence value s
  | .pprGo value spare => Sys2Proof.Machine.execPprGo value spare s
  | .pprDone => Sys2Proof.Machine.execPprDone s
  | .chipFailed cause loc => Sys2Proof.Machine.execChipFailed cause loc s
  | .thermtripN sensor c => Sys2Proof.Machine.execThermtripN sensor c s
  | .powerDown => Sys2Proof.Machine.execPowerDown s
  | .pcieTrainingComplete width rate => Sys2Proof.Machine.execPcieTrainingComplete width rate s
  | .ringError r => Sys2Proof.Machine.execRingError r s
  | .commitDone mvs => Sys2Proof.Machine.execCommitDone mvs s
  | .vHuMeasure mv => Sys2Proof.Machine.execVHuMeasure mv s
  | .smbusReady => Sys2Proof.Machine.execSmbusReady s
  | .latchingRead off size => Sys2Proof.Machine.execLatchingRead off size s

end Sys2Proof.Machine
end

