-- ==== Sys2Proof/Safety.lean ====
section
/-! DEFINITION. Safety.lean: what counts as a safe state: HBM is in canonical form and every counter-store item has a valid copy (R407, R408). -/

namespace Sys2Proof.Machine

/-- Every item of a counter store has a valid copy. -/
def storeOk (v : Vector CsCopy 36) : Prop :=
  ∀ i : Fin 18, ∃ c : Fin 2, (v.toList.getD (2 * i.val + c.val) { value := 0, gen := 0, crc := 0 }).valid = true

/-- A state that every step leaves safe. -/
def State.Safe (s : State) : Prop := storeOk s.store ∧ s.hbm.wf = true

end Sys2Proof.Machine
end

