-- ==== Sys2Proof/WellFormed.lean ====
section
/-! DEFINITION. WellFormed.lean: which commands name things that exist: rings, rails, islands, byte strings of the lengths the spec gives them. -/

namespace Sys2Proof

/-- A ring of R338: 0-47 and 48-66. -/
def ringOk (r : BitVec 7) : Bool := decide (r.toNat < 67)

/-- A descriptor is 64 bytes (R344, R311). -/
def descOk (d : List Byte) : Bool := d.length == 64

/-- Whether a command names only what exists. -/
def Instr.wf : Instr → Bool
  | .step _ d v => descOk d && descOk v
  | .switch _ d => descOk d
  | .load _ d => descOk d
  | .save _ d => descOk d
  | .ingest _ d => descOk d
  | .seal _ d => descOk d
  | .fence _ d => descOk d
  | .barrier _ d => descOk d
  | .nop _ d => descOk d
  | .ingestDescriptor _ d _ => descOk d
  | .sectionReset _ _ es => es.all descOk
  | .commandStart _ q => q != 3
  | .commandComplete _ q => q != 3
  | .coalesceTimeout r => ringOk r
  | .ringPressure r => decide (r.toNat < 48)
  | .eventLost r => r == 64 || r == 65
  | .ringEnable r _ => ringOk r
  | .ringError r => decide (r.toNat < 48)
  | .flightReceive _ f _ _ => f.length == 25 && f.all fun e => e.2.length == 32
  | .tempSample l => l.length == 76
  | .hbmTempSample l => l.length == 8
  | .hbmEcs l => l.length == 256
  | .railMonitor r _ _ _ _ _ => decide (r.toNat < 5)
  | .loopReady i => decide (i.toNat < 101)
  | .loopUnlock i => decide (i.toNat < 101)
  | _ => true

end Sys2Proof
end

