-- ==== Sys2Proof/Certificates/Slice0/Obligations.lean ====
section
/-! DEFINITION. Obligations.lean: the statements for the provers. Each docstring names the rules of the spec that the statement formalises, or says that it states the model's own choice. -/

namespace Sys2Proof.Claims

open Sys2Proof.Machine

/-- Tile t runs, is not fenced, has no fault, and its fetch finds the instruction i, whose registers have correct parity (R72, R75, R94, R442). -/
def AtPc (s : State) (t : Ltn) (i : SeqInsn) : Prop :=
  s.fencedLtn t.toNat = false ∧ (s.tile t).seq.status = .running ∧ (s.tile t).fault = none ∧ (s.tile t).seq.parityFaults i = [] ∧
    ∃ w, (s.tile t).fetch = .insn w i

/-- A tile after an instruction that writes v to gd and goes on: a write to g0 is discarded (R69). -/
def put (x : Tile) (gd : GReg) (v : Word) : Tile :=
  { x with seq := { x.seq with
      regs := if gd = 0 then x.seq.regs else x.seq.regs.set gd.toNat v gd.isLt
      badRegs := if gd = 0 then x.seq.badRegs else x.seq.badRegs.filter (fun n => n != gd.toNat)
      pc := x.seq.pc + 4 } }

/-- A tile whose sequencer goes to an address. -/
def goTo (x : Tile) (a : Word) : Tile := { x with seq := { x.seq with pc := a } }

/-- What register r of tile t reads as: g0 as 0 (R69). -/
def regOf (s : State) (t : Ltn) (r : GReg) : Word := if r = 0 then 0 else (s.tile t).seq.regs.get r.toFin

/-- The address ga + imm16, imm16 sign-extended (R76). -/
def addrOf (s : State) (t : Ltn) (ga : GReg) (imm : BitVec 16) : Nat := ((regOf s t ga).toNat + (imm.signExtend 32).toNat) % 2 ^ 32

/-- No incomplete command of a tile has a write footprint that meets a scratchpad range (R82). -/
def NoWriter (x : Tile) (a n : Nat) : Prop :=
  ∀ es ∈ x.queues.toList, ∀ e ∈ es, (fpWr e.desc).meets { off := a, len := n, ts := false } = false

/-- No footprint of an incomplete command of a tile meets a scratchpad range (R82). -/
def NoUser (x : Tile) (a n : Nat) : Prop :=
  ∀ q < 8, ∀ e ∈ x.queue q, ∀ f ∈ fpWr e.desc :: readFps q e.desc, f.meets { off := a, len := n, ts := false } = false

/-- The value 1 or 0 of a comparison. -/
def flag (p : Prop) [Decidable p] : Word := if p then 1 else 0

/-- A tile with c corrected scratchpad words added to SP_CORR (R201, R222). -/
def corrected (x : Tile) (c : Nat) : Tile := x.count 3 c

/-- A tile stopped by a fault (R95, R96): nothing is fetched, queued commands and sends not injected are discarded, a command in execution is to stop, a TPWR makes no further transition, and a barrier at which the tile stood is kept. -/
def stopped (x : Tile) (f : TileFault) : Tile :=
  { x with
    seq := { x.seq with
      status := .stopped
      stood := match x.seq.status with
        | .arrived k => some k
        | _ => x.seq.stood }
    queues := x.queues.map stopQueue
    ts := x.ts.stopTurns
    ex := { x.ex with sends := [] }
    fault := some f
    faultSeen := false }

end Sys2Proof.Claims


namespace Sys2Proof.Claims

open Sys2Proof.Machine

/-- The command e stands at the front of queue q of tile t, started and not executed, in a tile that is not fenced and has no fault. -/
def Started (s : State) (t : Ltn) (q op : Nat) (e : QEntry) : Prop :=
  s.fencedLtn t.toNat = false ∧ (s.tile t).fault = none ∧ (∃ rest, (s.tile t).queue q = e :: rest) ∧ e.status = .started ∧ cmdOp e.desc = op

/-- A tile whose front command of queue q has been executed; n is what it raises at completion. -/
def ran (x : Tile) (q : Nat) (e : QEntry) (n : Nat) : Tile :=
  { x with queues := x.queues.setIfInBounds q ({ e with status := .executed, endFault := n } :: (x.queue q).tail) }

/-- A range of n bytes, n > 0, lies inside a scratchpad footprint (R86). -/
def Inside (f : Footprint) (a n : Nat) : Prop := f.ts = false ∧ f.off ≤ a ∧ a + n ≤ f.off + f.len ∧ 0 < n

/-- A scratchpad m' that reads as m outside n bytes at a, with the same bank classes and modes. -/
def KeptOutside (m m' : Scratchpad) (a n : Nat) : Prop :=
  m'.cls = m.cls ∧ m'.wmode = m.wmode ∧ ∀ o, o < a ∨ a + n ≤ o → m'.byte o = m.byte o

/-- A scratchpad m' that reads as m but for the bytes bs at a. -/
def Wrote (m m' : Scratchpad) (a : Nat) (bs : List Byte) : Prop :=
  KeptOutside m m' a bs.length ∧ ∀ i, i < bs.length → m'.byte (a + i) = bs.getD i 0

/-- A tile store m' that reads as m but for the bytes bs at a; granules and banks are unchanged. -/
def WroteTs (m m' : TileStore) (a : Nat) (bs : List Byte) : Prop :=
  m'.granules = m.granules ∧ m'.banks = m.banks ∧ (∀ i, i < bs.length → m'.byte (a + i) = bs.getD i 0) ∧
    ∀ o, o < a ∨ a + bs.length ≤ o → m'.byte o = m.byte o

/-- Every bank that a tile-store footprint meets is ON (R214). -/
def BanksOn (x : Tile) (f : Footprint) : Prop :=
  ∀ b, b < 16 → overlaps f.off f.len (b * 0x180000) 0x180000 = true → (x.ts.bank b).st = .on

/-- A tile whose banks are all ON and in no transition, with no error in its tile store: an access to it from outside is served at once (R209, R211, R213, R214). -/
def Served (x : Tile) : Prop := x.ts.flips = [] ∧ ∀ b, b < 16 → (x.ts.bank b).st = .on ∧ (x.ts.bank b).target = none

/-- No seal waits in a section that is FAULTED: R53 has applied it. -/
def NoLateSeal (s : State) : Prop := ∀ k, k < 16 → (s.sectN k).phase = .faulted → (s.sectN k).sealPend = false ∧ (s.sectN k).sealNext = false

/-- A step: the outcome is a next state. -/
abbrev goes (s : State) : Host.Outcome State Fault Refusal := .next s

end Sys2Proof.Claims


open Sys2Proof Sys2Proof.Machine Sys2Proof.Claims

/-- The block takes the command at the front of its queue (log 4 for the queue). The model's choice of log 4: with no command waiting a step only advances the timestamp of R351. -/
def Obligations.StepTakesFrontCommand : Prop :=
  (∀ (s : State) (c : Instr) (rest : List Instr),
    step { s with pending := c :: rest } = exec c { s with pending := rest }) ∧
  (∀ s : State, s.pending = [] → step s = goes { s with tstamp := (s.tstamp + 1) % 2 ^ 64 })

/-- R69: g0 reads as 0 and a write to it is discarded; every other register holds the value written last. -/
def Obligations.RegisterFile : Prop :=
  ∀ (q : Seq) (r r' : GReg) (v : Word),
    q.reg 0 = 0 ∧ q.setReg 0 v = q ∧ (r ≠ 0 → (q.setReg r v).reg r = v) ∧ (r' ≠ r → (q.setReg r v).reg r' = q.reg r')

/-- R76 (opcode 0x00): the ALU instructions write gd and go on; nothing else changes. R76 (opcodes 0x01-0x07, 0x18): the immediate instructions, the shifts by an immediate and LUI write gd and go on; nothing else changes. -/
def Obligations.ArithmeticResults : Prop :=
  (∀ (s : State) (t : Ltn) (gd ga gb : GReg),
    let a := regOf s t ga
    let b := regOf s t gb
    let res := fun (v : Word) => (Host.Outcome.next (s.setTile t (put (s.tile t).fetched gd v)) : Host.Outcome State Fault Refusal)
    (AtPc s t (.alu .add gd ga gb) → exec (.add t gd ga gb) s = res (BitVec.ofNat 32 (a.toNat + b.toNat))) ∧
    (AtPc s t (.alu .sub gd ga gb) → exec (.sub t gd ga gb) s = res (BitVec.ofInt 32 (a.toInt - b.toInt))) ∧
    (AtPc s t (.alu .and gd ga gb) → exec (.andR t gd ga gb) s = res (a &&& b)) ∧
    (AtPc s t (.alu .or gd ga gb) → exec (.orR t gd ga gb) s = res (a ||| b)) ∧
    (AtPc s t (.alu .xor gd ga gb) → exec (.xor t gd ga gb) s = res (a ^^^ b)) ∧
    (AtPc s t (.alu .sll gd ga gb) → exec (.sll t gd ga gb) s = res (BitVec.ofNat 32 (a.toNat * 2 ^ (b.toNat % 32)))) ∧
    (AtPc s t (.alu .srl gd ga gb) → exec (.srl t gd ga gb) s = res (BitVec.ofNat 32 (a.toNat / 2 ^ (b.toNat % 32)))) ∧
    (AtPc s t (.alu .sra gd ga gb) → exec (.sra t gd ga gb) s = res (BitVec.ofInt 32 (a.toInt / 2 ^ (b.toNat % 32)))) ∧
    (AtPc s t (.alu .slt gd ga gb) → exec (.slt t gd ga gb) s = res (flag (a.toInt < b.toInt))) ∧
    (AtPc s t (.alu .sltu gd ga gb) → exec (.sltu t gd ga gb) s = res (flag (a.toNat < b.toNat))) ∧
    (AtPc s t (.alu .mul gd ga gb) → exec (.mul t gd ga gb) s = res (BitVec.ofNat 32 (a.toNat * b.toNat))) ∧
    (AtPc s t (.alu .mulhs gd ga gb) → exec (.mulhs t gd ga gb) s = res (BitVec.ofInt 32 (a.toInt * b.toInt / 2 ^ 32))) ∧
    (AtPc s t (.alu .mulhu gd ga gb) → exec (.mulhu t gd ga gb) s = res (BitVec.ofNat 32 (a.toNat * b.toNat / 2 ^ 32))) ∧
    (AtPc s t (.alu .min gd ga gb) → exec (.minR t gd ga gb) s = res (BitVec.ofInt 32 (min a.toInt b.toInt))) ∧
    (AtPc s t (.alu .max gd ga gb) → exec (.maxR t gd ga gb) s = res (BitVec.ofInt 32 (max a.toInt b.toInt))) ∧
    (AtPc s t (.alu .minu gd ga gb) → exec (.minu t gd ga gb) s = res (BitVec.ofNat 32 (min a.toNat b.toNat))) ∧
    (AtPc s t (.alu .maxu gd ga gb) → exec (.maxu t gd ga gb) s = res (BitVec.ofNat 32 (max a.toNat b.toNat)))) ∧
  (∀ (s : State) (t : Ltn) (gd ga : GReg) (imm : BitVec 16) (sh : BitVec 5) (up : BitVec 21),
    let a := regOf s t ga
    let res := fun (v : Word) => (Host.Outcome.next (s.setTile t (put (s.tile t).fetched gd v)) : Host.Outcome State Fault Refusal)
    (AtPc s t (.imm .addi gd ga imm) → exec (.addi t gd ga imm) s = res (BitVec.ofInt 32 (a.toInt + imm.toInt))) ∧
    (AtPc s t (.imm .andi gd ga imm) → exec (.andi t gd ga imm) s = res (BitVec.ofNat 32 (a.toNat &&& imm.toNat))) ∧
    (AtPc s t (.imm .ori gd ga imm) → exec (.ori t gd ga imm) s = res (BitVec.ofNat 32 (a.toNat ||| imm.toNat))) ∧
    (AtPc s t (.imm .xori gd ga imm) → exec (.xori t gd ga imm) s = res (BitVec.ofNat 32 (a.toNat ^^^ imm.toNat))) ∧
    (AtPc s t (.imm .slti gd ga imm) → exec (.slti t gd ga imm) s = res (flag (a.toInt < imm.toInt))) ∧
    (AtPc s t (.imm .sltiu gd ga imm) → exec (.sltiu t gd ga imm) s = res (flag (a.toNat < imm.toNat))) ∧
    (AtPc s t (.shift .sll gd ga sh) → exec (.shiSll t gd ga sh) s = res (BitVec.ofNat 32 (a.toNat * 2 ^ sh.toNat))) ∧
    (AtPc s t (.shift .srl gd ga sh) → exec (.shiSrl t gd ga sh) s = res (BitVec.ofNat 32 (a.toNat / 2 ^ sh.toNat))) ∧
    (AtPc s t (.shift .sra gd ga sh) → exec (.shiSra t gd ga sh) s = res (BitVec.ofInt 32 (a.toInt / 2 ^ sh.toNat))) ∧
    (AtPc s t (.lui gd up) → exec (.lui t gd up) s = res (BitVec.ofNat 32 (up.toNat * 2048))))

/-- R76, R78, R82, R201: an aligned load from the scratchpad that meets no write footprint of an incomplete command and no uncorrectable word writes gd and goes on; only SP_CORR changes besides. R78, R79, R82: an LW from an operand square while queue ME is empty, from the scale register file while queue DR is empty, from the information block, and from the command-queue window. -/
def Obligations.SequencerLoads : Prop :=
  (∀ (s : State) (t : Ltn) (gd ga : GReg) (imm : BitVec 16) (c : Nat),
    let a := addrOf s t ga imm
    let x := (s.tile t).fetched
    let ready := fun (n : Nat) => a % n = 0 ∧ a < 0x100000 ∧ NoWriter x a n ∧ x.sp.check a n = (c, none)
    let res := fun (v : Word) => (Host.Outcome.next (s.setTile t (put (corrected x c) gd v)) : Host.Outcome State Fault Refusal)
    (AtPc s t (.load .lw gd ga imm) ∧ ready 4 → exec (.lw t gd ga imm) s = res (BitVec.ofNat 32 (leNat (x.sp.read a 4)))) ∧
    (AtPc s t (.load .lh gd ga imm) ∧ ready 2 → exec (.lh t gd ga imm) s = res (BitVec.ofInt 32 (BitVec.ofNat 16 (leNat (x.sp.read a 2))).toInt)) ∧
    (AtPc s t (.load .lhu gd ga imm) ∧ ready 2 → exec (.lhu t gd ga imm) s = res (BitVec.ofNat 32 (leNat (x.sp.read a 2)))) ∧
    (AtPc s t (.load .lb gd ga imm) ∧ ready 1 → exec (.lb t gd ga imm) s = res (BitVec.ofInt 32 (x.sp.byte a).toInt)) ∧
    (AtPc s t (.load .lbu gd ga imm) ∧ ready 1 → exec (.lbu t gd ga imm) s = res (BitVec.ofNat 32 (x.sp.byte a).toNat))) ∧
  (∀ (s : State) (t : Ltn) (gd ga : GReg) (imm : BitVec 16),
    let a := addrOf s t ga imm
    let x := (s.tile t).fetched
    let res := fun (v : Word) => (Host.Outcome.next (s.setTile t (put x gd v)) : Host.Outcome State Fault Refusal)
    AtPc s t (.load .lw gd ga imm) →
      (∀ q i j, q < 4 → i < 48 → j < 48 → a = 0x200000 + 0x4000 * q + 4 * (48 * i + j) → x.queue 0 = [] →
        exec (.lw t gd ga imm) s = res (Sparse.get 0 x.me.squares (2304 * q + 48 * i + j))) ∧
      (∀ e, e < 4096 → a = 0x300000 + 4 * e → x.queue 1 = [] → exec (.lw t gd ga imm) s = res (Sparse.get 0 x.scale e)) ∧
      (∀ o, o < 0x140 → o % 4 = 0 → a = 0x400000 + o → exec (.lw t gd ga imm) s = res (BitVec.ofNat 32 (x.info.readLe o 4))) ∧
      (∀ q, q < 8 → a = 0x500000 + 16 * q → exec (.lw t gd ga imm) s = res (x.seq.issued.toList.getD q 0)) ∧
      (∀ q, q < 8 → a = 0x500000 + 16 * q + 4 → exec (.lw t gd ga imm) s = res 16) ∧
      (∀ q, q < 8 → (a = 0x500000 + 16 * q + 8 ∨ a = 0x500000 + 16 * q + 12) → exec (.lw t gd ga imm) s = res 0))

/-- R76, R78, R82, R202, R203: an aligned store to the scratchpad outside the code region that meets no footprint of an incomplete command and no uncorrectable word puts the low bytes of gs at ga + imm16, least significant byte first, and goes on. Every other byte of the scratchpad reads as before; nothing else changes but SP_CORR, valid flags and check bits. R76, R78, R82: an SW to entry e of the scale register file while queue DR is empty writes that entry and no other. -/
def Obligations.SequencerStores : Prop :=
  (∀ (s : State) (t : Ltn) (gs ga : GReg) (imm : BitVec 16) (c : Nat),
    let a := addrOf s t ga imm
    let x := (s.tile t).fetched
    let v := (regOf s t gs).toNat
    let ready := fun (n : Nat) => a % n = 0 ∧ a < 0x100000 ∧ ¬ (x.codeBase ≤ a ∧ a < x.codeLimit) ∧ NoUser x a n ∧ x.sp.checkPartial a n = (c, none)
    let res := fun (n : Nat) (r : Host.Outcome State Fault Refusal) =>
      ∃ m : Scratchpad, r = .next (s.setTile t (goTo { corrected x c with sp := m } (x.seq.pc + 4))) ∧
        (∀ i, i < n → m.byte (a + i) = BitVec.ofNat 8 (v / 256 ^ i)) ∧
        (∀ o, o < a ∨ a + n ≤ o → m.byte o = x.sp.byte o) ∧ m.cls = x.sp.cls ∧ m.wmode = x.sp.wmode
    (AtPc s t (.store .sw gs ga imm) ∧ ready 4 → res 4 (exec (.sw t gs ga imm) s)) ∧
    (AtPc s t (.store .sh gs ga imm) ∧ ready 2 → res 2 (exec (.sh t gs ga imm) s)) ∧
    (AtPc s t (.store .sb gs ga imm) ∧ ready 1 → res 1 (exec (.sb t gs ga imm) s))) ∧
  (∀ (s : State) (t : Ltn) (gs ga : GReg) (imm : BitVec 16) (e : Nat),
    AtPc s t (.store .sw gs ga imm) → e < 4096 → addrOf s t ga imm = 0x300000 + 4 * e → (s.tile t).queue 1 = [] →
      ∃ m : Sparse Word, exec (.sw t gs ga imm) s = .next (s.setTile t (goTo { (s.tile t).fetched with scale := m } ((s.tile t).seq.pc + 4))) ∧
        Sparse.get 0 m e = regOf s t gs ∧ ∀ f, f ≠ e → Sparse.get 0 m f = Sparse.get 0 (s.tile t).scale f)

/-- R76, R77: jumps and branches. A jump writes the address after it to gd and goes to its aligned target; a branch goes to PC + off16 x 4 where its condition holds and else to the next instruction. Nothing else changes. -/
def Obligations.JumpsAndBranches : Prop :=
  ∀ (s : State) (t : Ltn) (gd ga gb : GReg) (imm off : BitVec 16) (far : BitVec 21),
    let x := (s.tile t).fetched
    let a := regOf s t ga
    let b := regOf s t gb
    let link := fun (dest : Word) => (Host.Outcome.next (s.setTile t (goTo (put x gd (x.seq.pc + 4)) dest)) : Host.Outcome State Fault Refusal)
    let br := fun (p : Prop) [Decidable p] =>
      (Host.Outcome.next (s.setTile t (goTo x (if p then BitVec.ofInt 32 (x.seq.pc.toInt + 4 * off.toInt) else x.seq.pc + 4))) : Host.Outcome State Fault Refusal)
    (AtPc s t (.jalr gd ga imm) → addrOf s t ga imm % 4 = 0 → exec (.jalr t gd ga imm) s = link (BitVec.ofNat 32 (addrOf s t ga imm))) ∧
    (AtPc s t (.jal gd far) → x.seq.pc.toNat % 4 = 0 → exec (.jal t gd far) s = link (BitVec.ofInt 32 (x.seq.pc.toInt + 4 * far.toInt))) ∧
    (AtPc s t (.br .beq ga gb off) → exec (.beq t ga gb off) s = br (a = b)) ∧
    (AtPc s t (.br .bne ga gb off) → exec (.bne t ga gb off) s = br (a ≠ b)) ∧
    (AtPc s t (.br .blt ga gb off) → exec (.blt t ga gb off) s = br (a.toInt < b.toInt)) ∧
    (AtPc s t (.br .bge ga gb off) → exec (.bge t ga gb off) s = br (b.toInt ≤ a.toInt)) ∧
    (AtPc s t (.br .bltu ga gb off) → exec (.bltu t ga gb off) s = br (a.toNat < b.toNat)) ∧
    (AtPc s t (.br .bgeu ga gb off) → exec (.bgeu t ga gb off) s = br (b.toNat ≤ a.toNat))

/-- R76, R85: a CMD of an acceptable descriptor to a queue with room copies the descriptor into the queue's last place with the threshold gb[15:0] and the tag, counts it (R79), and the sequencer goes on. -/
def Obligations.CmdIssues : Prop :=
  ∀ (s : State) (t : Ltn) (q : BitVec 4) (ga gb : GReg) (tag : BitVec 12) (c : Nat),
    let x := (s.tile t).fetched
    let a := (regOf s t ga).toNat
    let n := if cmdLong (x.sp.read a 64) then 128 else 64
    let d := x.sp.read a n
    AtPc s t (.cmd q ga gb tag) → q.toNat < 8 → q.toNat ≠ 3 → (x.queue q.toNat).length < 16 →
    a % n = 0 → a + n ≤ 0x100000 → NoWriter x a n → x.sp.check a n = (c, none) → descRefused x q.toNat d = false →
      exec (.cmd t q ga gb tag) s = .next (s.setTile t { corrected x c with
        queues := x.queues.setIfInBounds q.toNat (x.queue q.toNat ++ [{ desc := d, cmdPc := x.seq.pc.toNat, thr := (regOf s t gb).toNat % 65536, tag := tag.toNat, order := x.seq.order }])
        seq := { x.seq with
          pc := x.seq.pc + 4
          issued := x.seq.issued.setIfInBounds q.toNat (x.seq.issued.toList.getD q.toNat 0 + 1)
          order := x.seq.order + 1 } })

/-- R76, R88, R90-R92: WAITS goes on where the semaphore satisfies the threshold, QWAIT where the queue is empty (every queue for q = 15; a q that names no queue goes on, the model's choice of log 27), and both change nothing but the pc; unsatisfied, they stall at their place. A SYNC with an index below SS_RECORDS, and a closing SYNC after SS_COUNT SYNCs, arrive at the barrier where every queue is empty and else wait in step 1. -/
def Obligations.WaitsAndSyncs : Prop :=
  ∀ (s : State) (t : Ltn) (q : BitVec 4) (ga : GReg),
    let x := (s.tile t).fetched
    let go := (Host.Outcome.next (s.setTile t (goTo x (x.seq.pc + 4))) : Host.Outcome State Fault Refusal)
    let k := (regOf s t ga).toNat
    let arrive := (Host.Outcome.next (s.setTile t { x with seq := { x.seq with
      status := if ∀ es ∈ x.queues.toList, es = [] then .arrived k else .syncing k } }) : Host.Outcome State Fault Refusal)
    (AtPc s t (.waits q ga) → (((x.seq.sems.get q.toFin).toInt - (k : Int)) % 65536 < 32768) → exec (.waits t q ga) s = go) ∧
    (AtPc s t (.waits q ga) → ¬ (((x.seq.sems.get q.toFin).toInt - (k : Int)) % 65536 < 32768) → exec (.waits t q ga) s = goes (s.setTile t x)) ∧
    (AtPc s t (.qwait q) → q = 15 → (∀ es ∈ x.queues.toList, es = []) → exec (.qwait t q) s = go) ∧
    (AtPc s t (.qwait q) → q = 15 → (∃ es ∈ x.queues.toList, es ≠ []) → exec (.qwait t q) s = goes (s.setTile t x)) ∧
    (AtPc s t (.qwait q) → q ≠ 15 → x.queue q.toNat = [] → exec (.qwait t q) s = go) ∧
    (AtPc s t (.qwait q) → q ≠ 15 → x.queue q.toNat ≠ [] → exec (.qwait t q) s = goes (s.setTile t x)) ∧
    (AtPc s t (.sync ga) → k < s.tileRecords t → k ≠ 0xFFFFFFFF → x.seq.lastEnd = false → exec (.sync t ga) s = arrive) ∧
    (AtPc s t (.sync ga) → k = 0xFFFFFFFF → x.seq.syncs = x.info.readLe 0x14 4 → exec (.closingSync t ga) s = arrive)

/-- R76, R94-R96: TRAP stops the tile with the fault TRAP: FPC is the address of the TRAP, FADDR its code, FTAG 0; queued commands and sends not injected are discarded and no register is written. R72, R75, R77, R78, R92, R94-R96: where the sequencer faults: a pc outside the code region, a word that decodes to no instruction, a misaligned access or jump target, an access outside the ranges of R78, a register with wrong parity (before whatever else the instruction would fault for, the model's choice of log 20), an index that names no record. -/
def Obligations.SequencerFaults : Prop :=
  (∀ (s : State) (t : Ltn) (code : BitVec 21), AtPc s t (.trap code) →
    exec (.trap t code) s = .next (s.setTile t (stopped (s.tile t).fetched
      { fpc := (s.tile t).seq.pc.toNat, fcode := 9, faddr := code.toNat, ftag := 0, fmulti := false }))) ∧
  (∀ (s : State) (t : Ltn) (gd ga : GReg) (imm : BitVec 16),
    let x := s.tile t
    let a := addrOf s t ga imm
    let fault := fun (code addr : Nat) => (Host.Outcome.next (s.setTile t (stopped x.fetched { fpc := x.seq.pc.toNat, fcode := code, faddr := addr, ftag := 0, fmulti := false })) : Host.Outcome State Fault Refusal)
    s.fencedLtn t.toNat = false → x.seq.status = .running → x.fault = none →
      (¬ (x.codeBase ≤ x.seq.pc.toNat ∧ x.seq.pc.toNat < x.codeLimit) → exec (.lw t gd ga imm) s = fault 3 x.seq.pc.toNat) ∧
      ((x.codeBase ≤ x.seq.pc.toNat ∧ x.seq.pc.toNat < x.codeLimit) → x.seq.badLines = [] → (x.sp.check (x.seq.pc.toNat / 64 * 64) 64).2 = none →
        seqDecode (BitVec.ofNat 32 (leNat (x.sp.read x.seq.pc.toNat 4))) = none →
        exec (.lw t gd ga imm) s = fault 1 (leNat (x.sp.read x.seq.pc.toNat 4))) ∧
      (AtPc s t (.load .lw gd ga imm) → a < 0x100000 → a % 4 ≠ 0 → exec (.lw t gd ga imm) s = fault 2 a) ∧
      (AtPc s t (.store .sh gd ga imm) → a < 0x100000 → a % 2 ≠ 0 → ¬ (x.codeBase ≤ a ∧ a < x.codeLimit) → exec (.sh t gd ga imm) s = fault 2 a) ∧
      (AtPc s t (.jalr gd ga imm) → a % 4 ≠ 0 → exec (.jalr t gd ga imm) s = fault 2 a) ∧
      (AtPc s t (.load .lw gd ga imm) → a % 4 = 0 → (0x100000 ≤ a ∧ a < 0x200000 ∨ 0x500080 ≤ a) → exec (.lw t gd ga imm) s = fault 3 a) ∧
      (AtPc s t (.load .lbu gd ga imm) → 0x300000 ≤ a → exec (.lbu t gd ga imm) s = fault 3 a) ∧
      (AtPc s t (.store .sw gd ga imm) → a % 4 = 0 → (a < 0x100000 ∧ x.codeBase ≤ a ∧ a < x.codeLimit ∨ 0x400000 ≤ a) → exec (.sw t gd ga imm) s = fault 3 a) ∧
      (∀ w, x.fetch = .insn w (.load .lw gd ga imm) → ga ≠ 0 → ga.toNat ∈ x.seq.badRegs → exec (.lw t gd ga imm) s = fault 0x12 ga.toNat) ∧
      (AtPc s t (.sync ga) → s.tileRecords t ≤ (regOf s t ga).toNat → regOf s t ga ≠ 0xFFFFFFFF → exec (.sync t ga) s = fault 7 (regOf s t ga).toNat))

/-- R74-R76: the word of every sequencer instruction decodes to that instruction, with every field at every value, and to no other; a word that decodes is the word of the instruction it decodes to, so no reserved field is ignored and no two words spell one instruction. The words of the example after R89, and a few others, decode to what R74-R76 make of them. -/
def Obligations.SequencerDecodesItsEncoding : Prop :=
  (∀ (w : Word) (i : SeqInsn), seqDecode w = some i ↔ seqEncode i = w) ∧
  seqDecode 0x04C00003 = some (.imm .addi 6 0 3) ∧ seqDecode 0x0580FFFF = some (.imm .addi 12 0 0xFFFF) ∧
  seqDecode 0x818EC012 = some (.cmd 6 7 12 0x012) ∧ seqDecode 0x80169013 = some (.cmd 0 11 9 0x013) ∧
  seqDecode 0x48C0FFF9 = some (.br .bne 6 0 0xFFF9) ∧ seqDecode 0xA00A0000 = some (.sync 10) ∧
  seqDecode 0x00000000 = some (.alu .add 0 0 0) ∧ seqDecode 0x1C018000 = some (.shift .sra 0 1 0) ∧
  seqDecode 0x00000011 = none ∧ seqDecode 0x1C000020 = none ∧ seqDecode 0x5C000000 = none

/-- R87-R89, R114, R128, R191, R204, R214, R217, R219, R289, R290: a queued front command whose semaphore satisfies its threshold, that conflicts with no earlier command of another queue, passes its engine's checks, which meet no uncorrectable word (R201), and, where it is a DMA command, reaches only banks that are ON and version ranges that serve it, starts. A TPWR gives each bank of its run a transition to perform. R89, R95: a front command whose write footprint meets a footprint of an earlier command of another queue does not start: the tile stops with QUEUE_HAZARD, FPC the address of the command's CMD and FTAG its tag. -/
def Obligations.CommandsStart : Prop :=
  (∀ (s : State) (t : Ltn) (q : BitVec 3) (e : QEntry) (rest : List QEntry),
    let x := s.tile t
    let d := e.desc
    s.fencedLtn t.toNat = false → x.fault = none → x.queue q.toNat = e :: rest → e.status = .queued →
    (cmdWaitEn d = true → ((x.seq.sem (cmdWaitSem d)).toNat - (e.thr : Int)) % 65536 < 32768) →
    (∀ q', q' < 8 → q' ≠ q.toNat → ∀ e' ∈ x.queue q', e'.order < e.order →
      (∀ f ∈ fpWr e'.desc :: readFps q' e'.desc, (fpWr d).meets f = false) ∧ (∀ f ∈ readFps q.toNat d, f.meets (fpWr e'.desc) = false)) →
    (q.toNat = 1 → cmdOp d = 1 → x.me.dbFull = true) →
    (x.sp.check (startRead q.toNat d).1 (startRead q.toNat d).2).2 = none → x.engineChecks (s.sectN (s.sectNo t)) t.toNat q.toNat d = [] →
    (q.toNat = 4 → dhHost d = false → s.allPart 2 (dhAddr d) (dhLen d) = true) →
    ((q.toNat = 4 ∨ q.toNat = 5 ∨ q.toNat = 6 ∧ cmdOp d ≠ 5) →
      (∀ f, tsReadFp d = some f → BanksOn x f ∧ ∀ r ∈ x.ranges, r.meets f.off f.len = true → r.st ≠ .open) ∧
      (∀ f, tsWriteFp d = some f → BanksOn x f ∧ ∀ r ∈ x.ranges, r.meets f.off f.len = true → r.st = .open ∨ r.st = .old ∧
        (∀ q', q' < 8 → q' ≠ q.toNat → ∀ c ∈ x.queue q', c.status ≠ .queued → ∀ g, tsReadFp c.desc = some g → r.meets g.off g.len = false) ∧
        (∀ c, (s.sectN (s.sectNo t)).copy = some c → c.postmark ≠ r.stamp))) →
      exec (.commandStart t q) s = goes (s.setTile t { x with
        queues := x.queues.setIfInBounds q.toNat ({ e with status := .started } :: rest)
        ts := if q.toNat = 6 ∧ cmdOp d = 5 then tpwrStart x.ts d else x.ts })) ∧
  (∀ (s : State) (t : Ltn) (q : BitVec 3) (e e' : QEntry) (rest : List QEntry) (q' : Nat) (f : Footprint),
    let x := s.tile t
    s.fencedLtn t.toNat = false → x.fault = none → x.queue q.toNat = e :: rest → e.status = .queued → cmdWaitEn e.desc = false →
    (x.sp.check (startRead q.toNat e.desc).1 (startRead q.toNat e.desc).2).2 = none → q' < 8 → q' ≠ q.toNat → e' ∈ x.queue q' → e'.order < e.order →
    f ∈ fpWr e'.desc :: readFps q' e'.desc → (fpWr e.desc).meets f = true →
      ∃ s', exec (.commandStart t q) s = goes s' ∧ (s'.tile t).seq.status = .stopped ∧ (s'.tile t).queue q.toNat = [] ∧
        ∃ h, (s'.tile t).fault = some h ∧ h.fcode = 5 ∧ h.fpc = e.cmdPc ∧ h.ftag = e.tag ∧ (s'.tile t).sp = x.sp ∧ (s'.tile t).ts = x.ts.stopTurns)

/-- R87, R90, R113: an executed front command that raises nothing and waits for no hand-off or bank completes: it leaves its queue, adds 1 to the semaphore it signals, a DRAIN releases the drain buffer, and a SYNC that waits in step 1 for the last command arrives. R84, R113, R119, R173: one that raises an ENGINE fault at its end completes first, signal and release included, and the tile stops with FPC, sub-code and FTAG of the command. R113: with the HOLD semaphore satisfied and the drain buffer empty, the hand-off of an executed END MMA copies the accumulators, the mode, ACC_SAT and ROW_SKIP into the drain buffer, closes the accumulation and completes the command. -/
def Obligations.CommandsComplete : Prop :=
  (∀ (s : State) (t : Ltn) (q : BitVec 3) (e : QEntry) (rest : List QEntry),
    let x := s.tile t
    let d := e.desc
    let queues := x.queues.setIfInBounds q.toNat rest
    let y := { x with
        queues := queues
        me := if q.toNat = 1 ∧ cmdOp d = 1 then { x.me with dbFull := false, db := [], dbInt := false, dbSat := false, dbSkip := 0 } else x.me
        seq := { x.seq with
          sems := if cmdSigEn d then x.seq.sems.setIfInBounds (cmdSigSem d) (x.seq.sem (cmdSigSem d) + 1) else x.seq.sems
          status := match x.seq.status with
            | .syncing k => if queues.toList.all List.isEmpty then .arrived k else .syncing k
            | st => st } }
    s.fencedLtn t.toNat = false → x.fault = none → x.queue q.toNat = e :: rest → e.status = .executed →
    (q.toNat = 0 → (mmaDesc d).isEnd = false) → (q.toNat = 6 → cmdOp d = 5 → ∀ i, i < tpwrCount d → (x.ts.bank (tpwrFirst d + i)).target = none) →
      exec (.commandComplete t q) s = goes (s.setTile t (if e.endFault = 0 then y
        else stopped y { fpc := e.cmdPc, fcode := 0x0A, faddr := e.endFault, ftag := e.tag, fmulti := false }))) ∧
  (∀ (s : State) (t : Ltn) (e : QEntry) (rest : List QEntry),
    let x := s.tile t
    let d := e.desc
    s.fencedLtn t.toNat = false → x.fault = none → x.queue 0 = e :: rest → e.status = .executed → (mmaDesc d).isEnd = true → x.me.dbFull = false →
    (mmaHoldEn d = true → ((x.seq.sem (mmaHoldSem d)).toNat - ((mmaHoldT d).toNat : Int)) % 65536 < 32768) → (∀ k, x.seq.status ≠ .syncing k) →
      exec (.handOff t) s = goes (s.setTile t { x with
        queues := x.queues.setIfInBounds 0 rest
        me := { x.me with
          dbFull := true, db := x.me.acc, dbInt := x.me.accInt, dbSat := x.me.accSat, dbSkip := x.me.accSkip, accOpen := false, accSat := false }
        seq := { x.seq with sems := if cmdSigEn d then x.seq.sems.setIfInBounds (cmdSigSem d) (x.seq.sem (cmdSigSem d) + 1) else x.seq.sems } }))

/-- R86, R201, R202: an engine access that leaves its footprint raises FOOTPRINT at the first of its 64-byte accesses that does, which is not performed, and every access before it is (they stand, and the words they corrected are counted: the model's choices of logs 23 and 148); a read that meets an uncorrectable word raises SP_UNCORRECTABLE with its offset; every other read delivers the bytes and counts corrected words, and every other write puts its bytes there. R204: FILL writes VALUE little-endian into every 4 bytes of its destination, COPY copies its source; nothing else of the scratchpad changes. -/
def Obligations.ScratchpadEngines : Prop :=
  (∀ (x : Tile) (f : Footprint) (a n c : Nat) (bs : List Byte),
    let on := fun (y : Tile) => ({ tile := y } : EngState)
    let first := fun (k r : Nat) => r ∈ wordsOf a k 64 ∧ ¬ Inside f (rowPart a k r).1 (rowPart a k r).2 ∧
      ∀ r' ∈ wordsOf a k 64, r' < r → Inside f (rowPart a k r').1 (rowPart a k r').2
    (∀ r, first n r → x.sp.check a ((rowPart a n r).1 - a) = (c, none) →
      (engRead [f] a n).run (on x) = (.error (6, (rowPart a n r).1), on (corrected x c))) ∧
    (∀ r, first bs.length r → x.sp.checkPartial a ((rowPart a bs.length r).1 - a) = (c, none) →
      ∃ m, (engWrite f a bs).run (on x) = (.error (6, (rowPart a bs.length r).1), on { corrected x c with sp := m }) ∧ Wrote x.sp m a (bs.take ((rowPart a bs.length r).1 - a))) ∧
    (Inside f a n → x.sp.check a n = (c, none) → (engRead [f] a n).run (on x) = (.ok (x.sp.read a n), on (corrected x c))) ∧
    (∀ o, Inside f a n → x.sp.check a n = (c, some o) → (engRead [f] a n).run (on x) = (.error (0x10, o), on (corrected x c))) ∧
    (Inside f a bs.length → x.sp.checkPartial a bs.length = (c, none) →
      ∃ m, (engWrite f a bs).run (on x) = (.ok (), on { corrected x c with sp := m }) ∧ Wrote x.sp m a bs)) ∧
  (∀ (s : State) (t : Ltn) (e : QEntry) (c : Nat),
    let x := s.tile t
    let d := e.desc
    let dst := fieldAt d 32 4
    let len := fieldAt d 36 4
    let arg := fieldAt d 40 4
    moChecks d = [] → 0 < len →
    (Started s t 7 1 e → ∃ m, exec (.fill t) s = goes (s.setTile t (ran { x with sp := m } 7 e 0)) ∧
        KeptOutside x.sp m dst len ∧ ∀ i, i < len → m.byte (dst + i) = BitVec.ofNat 8 (arg / 256 ^ (i % 4))) ∧
    (Started s t 7 2 e → x.sp.check arg len = (c, none) →
      ∃ m, exec (.copy t) s = goes (s.setTile t (ran { corrected x c with sp := m } 7 e 0)) ∧
        KeptOutside x.sp m dst len ∧ ∀ i, i < len → m.byte (dst + i) = x.sp.byte (arg + i)))

/-- R217, R218, R290: TS_READ copies tile store to scratchpad, TS_WRITE scratchpad to tile store, TFILL writes its pattern, TCOPY copies inside the tile store; the version ranges written take note with the postmark of the step in progress. R212, R213: a TPWR performs nothing itself; a bank with no access in flight turns to its target. It reads as zeros after OFF and as it was left after RETAIN; every other bank is unchanged. -/
def Obligations.TileStoreMoves : Prop :=
  (∀ (s : State) (t : Ltn) (e : QEntry) (c : Nat),
    let x := s.tile t
    let d := e.desc
    let n := dlLen d
    let marks := x.ranges.map (markWrite (s.stepPostmark t) (dlTs d) n)
    dlOk d = true → x.fault = none →
    (Started s t 6 1 e → x.ts.check (dlTs d) n = (c, none) →
      ∃ m, exec (.tsRead t) s = goes (s.setTile t (ran { x.count 4 c with sp := m } 6 e 0)) ∧ Wrote x.sp m (dlSp d) (x.ts.read (dlTs d) n)) ∧
    (Started s t 6 2 e → x.sp.check (dlSp d) n = (c, none) →
      ∃ m, exec (.tsWrite t) s = goes (s.setTile t (ran { corrected x c with ts := m, ranges := marks } 6 e 0)) ∧
        WroteTs x.ts m (dlTs d) (x.sp.read (dlSp d) n)) ∧
    (Started s t 6 3 e → ∃ m, exec (.tfill t) s = goes (s.setTile t (ran { x with ts := m, ranges := marks } 6 e 0)) ∧
        WroteTs x.ts m (dlTs d) (patternBytes (dlValue d) n)) ∧
    (Started s t 6 4 e → x.ts.check (dlSrc d) n = (c, none) →
      ∃ m, exec (.tcopy t) s = goes (s.setTile t (ran { x.count 4 c with ts := m, ranges := marks } 6 e 0)) ∧
        WroteTs x.ts m (dlTs d) (x.ts.read (dlSrc d) n))) ∧
  (∀ (s : State) (t : Ltn) (e : QEntry) (b : BitVec 4) (dest : BankState),
    let x := s.tile t
    let k := x.ts.bank b.toNat
    (Started s t 6 5 e → exec (.tpwr t) s = goes (s.setTile t (ran x 6 e 0))) ∧
    (k.target = some dest → k.inWrites = 0 → k.inReads = 0 → x.ts.held = [] →
      ∃ m, exec (.bankTransition t b) s = goes (s.setTile t { x with ts := m }) ∧
        (m.bank b.toNat).st = dest ∧ (m.bank b.toNat).target = none ∧ m.granules = x.ts.granules ∧
        (∀ b', b' < 16 → b' ≠ b.toNat → m.bank b' = x.ts.bank b') ∧
        (∀ o, o / 0x180000 ≠ b.toNat → m.byte o = x.ts.byte o) ∧
        (∀ o, o / 0x180000 = b.toNat → m.byte o = if dest = .off ∨ k.st = .off then 0 else x.ts.byte o)))

/-- R290, R294: a served write leaves a CURRENT range and a range it does not meet alone; it opens an OLD range with the postmark of the step, keeping the stamp it had; rows it writes in the range are noted, each row once, in rising order, those of the opening write the first. -/
def Obligations.VersionRangesOnWrites : Prop :=
  ∀ (p a n : Nat) (r : VRange),
    let r' := markWrite p a n r
    r'.prog = r.prog ∧ r'.group = r.group ∧ r'.slotB = r.slotB ∧ r'.off = r.off ∧ r'.len = r.len ∧
    (r.meets a n = false ∨ r.st = .current → r' = r) ∧
    (r.meets a n = true → r.st = .old → r'.st = .open ∧ r'.stamp = p ∧ r'.before = r.stamp) ∧
    (r.meets a n = true → r.st = .open → r'.st = .open ∧ r'.stamp = r.stamp ∧ r'.before = r.before) ∧
    (r.meets a n = true → r.st ≠ .current → a % 64 = 0 → n % 64 = 0 → r.off % 64 = 0 → (r.st = .open → r.rows.Pairwise (· < ·)) →
      r'.rows.Pairwise (· < ·) ∧ ∀ w, w ∈ r'.rows ↔ (r.st = .open ∧ w ∈ r.rows) ∨ (a ≤ 64 * w ∧ 64 * w < a + n ∧ r.off ≤ 64 * w ∧ 64 * w < r.off + r.len))

/-- R219, R301: HREAD writes what the host returned, or what HBM holds, to its local range; HWRITE posts its local bytes to the host or writes them to HBM, where no other byte changes. R271, R289: USEND puts one slice on plane U toward the die that its target names, once the group's input buffer takes it (R267, R272); UCOUNT adds an entry to the tile's step state. -/
def Obligations.HostAndUpdateMoves : Prop :=
  (∀ (s : State) (t : Ltn) (e : QEntry) (data : List Byte) (c : Nat),
    let x := s.tile t
    let d := e.desc
    let n := dhLen d
    let remote := if dhHost d then data else s.hbm.readBytes (dhAddr d) n
    let bytes := if (fpRd0 d).ts then x.ts.read (dhLocal d) n else x.sp.read (dhLocal d) n
    let x' := if (fpRd0 d).ts then x.count 4 c else corrected x c
    dhOk d = true →
    (Started s t 4 1 e → (dhHost d = true → data.length = n) → (dhHost d = false → s.hbmBadUnit (dhAddr d) n = none) →
      ((fpWr d).ts = false → ∃ m, exec (.hread t data) s = goes (s.setTile t (ran { x with sp := m } 4 e 0)) ∧ Wrote x.sp m (dhLocal d) remote) ∧
      ((fpWr d).ts = true → ∃ m, exec (.hread t data) s = goes (s.setTile t (ran { x with
          ts := m, ranges := x.ranges.map (markWrite (s.stepPostmark t) (dhLocal d) n) } 4 e 0)) ∧ WroteTs x.ts m (dhLocal d) remote)) ∧
    (Started s t 4 2 e → (if (fpRd0 d).ts then x.ts.check (dhLocal d) n else x.sp.check (dhLocal d) n) = (c, none) →
      (dhHost d = true → exec (.hwrite t) s = goes { s.setTile t (ran x' 4 e 0) with posted := s.posted ++ [.write (dhAddr d) bytes] }) ∧
      (dhHost d = false → ∃ m u, exec (.hwrite t) s = goes { s.setTile t (ran x' 4 e 0) with hbm := m, hbmBad := u } ∧
        (∀ i, i < n → m.read (dhAddr d + i) = bytes.getD i 0) ∧
        (∀ o, o < dhAddr d ∨ dhAddr d + n ≤ o → m.read o = s.hbm.read o) ∧
        (∀ v, v ∈ u ↔ v ∈ s.hbmBad ∧ ¬ (dhAddr d ≤ 64 * v ∧ 64 * v + 64 ≤ dhAddr d + n))))) ∧
  (∀ (s : State) (t : Ltn) (e : QEntry) (c : Nat),
    let x := s.tile t
    let d := e.desc
    duOk d = true →
    (Started s t 5 1 e → s.sliceReady (usendSlice (s.sectNo t) t.toNat d []) = false → exec (.usend t) s = goes s) ∧
    (Started s t 5 1 e → s.sliceReady (usendSlice (s.sectNo t) t.toNat d []) = true → x.sp.check (duSrc d) 11520 = (c, none) →
      exec (.usend t) s = goes { s.setTile t (ran (corrected x c) 5 e 0) with
        slices := s.slices.setIfInBounds (duTarget d % 4) (s.slices.toList.getD (duTarget d % 4) [] ++
          [{ sect := s.sectNo t, target := duTarget d, data := x.sp.read (duSrc d) 11520, origin := t.toNat }]) }) ∧
    (Started s t 5 2 e →
      exec (.ucount t) s = goes (s.setTile t (ran { x with ucounts := x.ucounts ++ [(duGroup d, duCounter d, duValue d)] } 5 e 0))))

/-- R99-R112: an MMA whose blocks lie in its footprints folds, in ascending k, the products of its operand blocks into every cell of a row not skipped, starting from what PRELOAD names, and leaves skipped rows alone; the accumulation stays open with the command's class and skip mask, the operand squares hold the last blocks, and drain buffer and row statistics do not change. R115-R124: a DRAIN or DRAIN_SP whose rows lie in its footprints (an offset beyond 2^32 wraps, the model's choice of log 202) executes: it writes nothing outside its write footprint, keeps accumulators, squares and drain buffer, and changes besides only the row statistics and the step state of its slot; it raises nothing at completion or DR_NAN_UNCODED. -/
def Obligations.MatrixCommands : Prop :=
  (∀ (s : State) (t : Ltn) (e : QEntry) (fa fb : Fmt),
    let x := s.tile t
    let d := e.desc
    let m := mmaDesc d
    let nb := (m.kSteps + 47) / 48
    let fp := (Fmt.ofCode m.fmtP).getD .fp32
    let blocks := fun (src : Nat) (f : Fmt) => ((List.range nb).map fun p => (elems f (x.sp.read (src + p * f.bytes 2304) (f.bytes 2304)) 2304).toArray).toArray
    let env := s.stepEnv (s.sectNo t)
    let isInt := fmtInt m.fmtA
    let start := fun (i j : Nat) => match m.preload with
      | 0 => (0 : Acc)
      | 1 => toAcc isInt (fp.decode ((elems fp (x.sp.read m.preSrc (fp.bytes 48)) 48).getD j 0))
      | 2 => toAcc isInt (fp.decode ((elems fp (x.sp.read m.preSrc (fp.bytes 2304)) 2304).getD (48 * i + j) 0))
      | _ => Sparse.get 0 x.me.acc (48 * i + j)
    Started s t 0 1 e → x.sp.flips = [] → Fmt.ofCode m.fmtA = some fa → Fmt.ofCode m.fmtB = some fb → 0 < m.kSteps →
    Inside (fpRd0 d) m.aSrc (nb * fa.bytes 2304) → Inside (fpRd1 d) m.bSrc (nb * fb.bytes 2304) →
    (m.preload = 1 → Inside (fpRd2 d) m.preSrc (fp.bytes 48)) → (m.preload = 2 → Inside (fpRd2 d) m.preSrc (fp.bytes 2304)) →
      ∃ me, exec (.mma t) s = goes (s.setTile t (ran { x with me := me } 0 e 0)) ∧
        me.accOpen = true ∧ me.accInt = isInt ∧ me.accSkip = m.skip ∧
        me.dbFull = x.me.dbFull ∧ me.db = x.me.db ∧ me.stats = x.me.stats ∧ me.statValid = x.me.statValid ∧
        (∀ i j, i < 48 → j < 48 → Sparse.get 0 me.acc (48 * i + j) =
          if m.skip / 2 ^ i % 2 = 1 then Sparse.get 0 x.me.acc (48 * i + j)
          else (cellAdds m env fa fb isInt (blocks m.aSrc fa) (blocks m.bSrc fb) i j (m.outBase + i * m.rowStep + j * m.colStep) m.kSteps 0 (start i j, false)).1) ∧
        (∀ i j, i < 48 → j < 48 → Sparse.get 0 me.squares (2304 * ((nb - 1) % 2) + 48 * i + j) =
          BitVec.ofNat 32 (((blocks m.aSrc fa).getD (nb - 1) #[]).getD (48 * i + j) 0))) ∧
  (∀ (s : State) (t : Ltn) (e : QEntry) (sp : Bool),
    let x := s.tile t
    let d := e.desc
    let y := drainDesc d
    let skip := if sp then y.skip else x.me.dbSkip
    let bytes := fun (c : Nat) => ((Fmt.ofCode c).getD .fp32).bytes 48
    let row := fun (base stride i : Nat) => (base + stride * i) % 2 ^ 32
    Started s t 1 (if sp then 2 else 1) e → x.sp.flips = [] →
    (∀ i, i < 48 → skip / 2 ^ i % 2 = 0 →
      Inside (fpWr d) (row y.dst y.dstStride i) (if y.accOut then 240 else bytes y.fmtO) ∧
      (sp = true → Inside (fpRd1 d) (row y.src y.srcStride i) 240) ∧
      (y.accOut = false → y.deriv = true → Inside (fpRd0 d) (row y.pre y.preStride i) (bytes y.fmtPre)) ∧
      (y.accOut = false → y.statEn = true → y.dotEn = true → Inside (fpRd1 d) (row y.vec y.vecStride i) (bytes y.fmtVec)) ∧
      (y.accOut = false → y.statEn = true → Inside (fpWr d) (row y.stat 32 i) 32)) →
      ∃ x' n, exec (if sp then .drainSp t else .drain t) s = goes (s.setTile t (ran x' 1 e n)) ∧ (n = 0 ∨ n = 0x0102) ∧
        { x' with sp := x.sp, me := x.me, acc := x.acc } = x ∧ KeptOutside x.sp x'.sp (fpWr d).off (fpWr d).len ∧
        { x'.me with stats := x.me.stats, statValid := x.me.statValid } = x.me ∧
        (y.accOut = true → x'.me = x.me) ∧ (∀ c, c ≠ y.slot → Sparse.get {} x'.acc c = Sparse.get {} x.acc c))

/-- R108-R112, R140: the accumulate step. In the integer class the exact product is added and the sum clamped to 40 bits, the flag telling whether it was clamped; in the float class a NaN stays, an infinite or NaN operand gives the canonical NaN, and a command of n k-steps makes n such steps. R116-R123, R152, R156: what the drain makes of one element at column j of row i: dequantise, activate, statistics, quantise to the output format under the slot's scale, fold the magnitude into STEP_AMAX when it is finite, count it. -/
def Obligations.MatrixDatapath : Prop :=
  (∀ (acc : Acc) (a b : Ex) (mode : RMode) (m : MmaDesc) (env : StepEnv) (fa fb : Fmt) (isInt : Bool) (as bs : Array (Array Nat)) (i j o n p : Nat) (r : Acc × Bool),
    (let v := acc.toInt + a.toInt * b.toInt
     (accAddInt acc a b).1.toInt = max (-(2 ^ 39)) (min (2 ^ 39 - 1) v) ∧ ((accAddInt acc a b).2 = true ↔ v < -(2 ^ 39) ∨ 2 ^ 39 - 1 < v)) ∧
    ((Fmt.decode .accF acc.toNat).isNan = true → accAddProd mode acc a b = (acc, false)) ∧
    ((Fmt.decode .accF acc.toNat).isNan = false → a.isFin = false ∨ b.isFin = false → accAddProd mode acc a b = (0x7FF8000000, false)) ∧
    cellAdds m env fa fb isInt as bs i j o 0 p r = r ∧
    ∃ r', cellAdds m env fa fb isInt as bs i j o 1 p r = r' ∧
      cellAdds m env fa fb isInt as bs i j o (n + 1) p r = cellAdds m env fa fb isInt as bs i j o n (p + 1) r') ∧
  (∀ (x : DrainDesc) (env : StepEnv) (isInt : Bool) (fo : Fmt) (scale : Sparse Word) (i j : Nat) (a : Acc) (z v : Nat) (r : DrainRow),
    let dq := if x.dqEn then Sparse.get 0 scale (x.scaleBase + (if x.perch then j else 0)) else 0x3F800000
    let z' := toF32 (((Fmt.ofCode x.fmtPre).getD .fp32).decode z)
    let y := activate x (dequant isInt a dq) z'
    let q := Ex.mul (f32 y) (f32 (if x.unscaled then 0x3F800000 else (env.slot x.slot).1))
    let r' := drainElems x env isInt fo scale i j [(a, z, v)] r
    x.srEn = false →
      r'.codes = r.codes ++ [(Fmt.round fo .sat .rne (if (f32 y).isNan then .nan else q)).bits] ∧
      r'.acc.quantised = min (r.acc.quantised + 1) (2 ^ 48 - 1) ∧
      r'.acc.zeroRange = min (r.acc.zeroRange + (if (env.slot x.slot).2 then 1 else 0)) (2 ^ 48 - 1) ∧
      ((f32 y).isFin = true → r'.acc.amax.toNat = max r.acc.amax.toNat (y.toNat % 2 ^ 31)) ∧
      ((f32 y).isFin = false → r'.acc.amax = r.acc.amax) ∧
      (x.statEn = false → r'.stat = r.stat) ∧
      (x.statEn = true → r'.stat.max = fmax r.stat.max y ∧ (x.dotEn = false → r'.stat.dot = r.stat.dot)) ∧
      (x.fn = 0 → x.deriv = false → (f32 (dequant isInt a dq)).isNan = false → y = dequant isInt a dq))

/-- R133: the INT8 code 0x80 and the INT4 code 0b1000 read as -127 and -7 and every other code as its two's-complement value, so that the formats cover -127 to 127 and -7 to 7; no value, rounded in any mode to either format, gives the code that reads otherwise. -/
def Obligations.IntegerCodes : Prop :=
  (Fmt.decode .int8 0x80).toInt = -127 ∧ (Fmt.decode .int4 8).toInt = -7 ∧
  (∀ c : BitVec 8, c ≠ 0x80 → (Fmt.decode .int8 c.toNat).toInt = c.toInt) ∧ (∀ c : BitVec 4, c ≠ 8 → (Fmt.decode .int4 c.toNat).toInt = c.toInt) ∧
  (∀ b : Nat, -127 ≤ (Fmt.decode .int8 b).toInt ∧ (Fmt.decode .int8 b).toInt ≤ 127 ∧ -7 ≤ (Fmt.decode .int4 b).toInt ∧ (Fmt.decode .int4 b).toInt ≤ 7) ∧
  (∀ (ovf : Ovf) (mode : RMode) (x : Ex), (Fmt.round .int8 ovf mode x).bits < 2 ^ 8 ∧ (Fmt.round .int8 ovf mode x).bits ≠ 0x80 ∧
    (Fmt.round .int4 ovf mode x).bits < 2 ^ 4 ∧ (Fmt.round .int4 ovf mode x).bits ≠ 8)

/-- R168-R175: a VPROG whose list, streams and reduction record lie in its footprints executes: it writes nothing outside its write footprint and changes nothing else of the tile; it raises nothing at completion or VE_NAN_UNCODED. R184-R189: the sampler. SCAND writes the first K candidates of its scores, SMERGE the first K of two lists, SPICK the choice of R188 (of a list with a NaN z the model's of logs 199 and 200), each at its output and nowhere else. -/
def Obligations.VectorCommands : Prop :=
  (∀ (s : State) (t : Ltn) (e : QEntry),
    let x := s.tile t
    let d := e.desc
    let ms := vList x.sp d
    let rd := fun (a n : Nat) => Inside (fpRd0 d) a n ∨ Inside (fpRd1 d) a n
    Started s t 2 1 e → x.sp.flips = [] → 0 < vN d → 0 < vNops d → rd (vProg d) (4 * vNops d) →
    (∀ m ∈ ms, m.op = 1 → rd (vStream d m.va).off (vStreamLen d m.va)) →
    (∀ m ∈ ms, m.op = 2 ∨ m.op = 3 → Inside (fpWr d) (vStream d m.vd).off (vStreamLen d m.vd)) →
    (∀ m ∈ ms, isReduction m.op = true → Inside (fpWr d) (vRed d) 32) →
      ∃ m n, exec (.vprog t) s = goes (s.setTile t (ran { x with sp := m } 2 e n)) ∧ (n = 0 ∨ n = 0x0203) ∧
        KeptOutside x.sp m (fpWr d).off (fpWr d).len) ∧
  (∀ (s : State) (t : Ltn) (e : QEntry),
    let x := s.tile t
    let d := e.desc
    let rd := fun (a n : Nat) => Inside (fpRd0 d) a n ∨ Inside (fpRd1 d) a n
    let list := fun (a k : Nat) => candRead k (x.sp.read a (8 * k))
    x.sp.flips = [] →
    (Started s t 2 2 e →
      let f : Fmt := if fieldAt d 50 1 % 16 = 5 then .bf16 else .fp32
      let n := fieldAt d 36 4
      let k := fieldAt d 48 2
      let scores := elems f (x.sp.read (fieldAt d 32 4) (f.bytes n)) n
      let cands := (List.range scores.length).map fun p => (scoreZ (BitVec.ofNat 32 (fieldAt d 44 4)) (toF32 (f.decode (scores.getD p 0))), fieldAt d 40 4 + p)
      rd (fieldAt d 32 4) (f.bytes n) → Inside (fpWr d) (fieldAt d 52 4) (8 * k) →
        ∃ m, exec (.scand t) s = goes (s.setTile t (ran { x with sp := m } 2 e 0)) ∧ Wrote x.sp m (fieldAt d 52 4) (candBytes (candTop k cands))) ∧
    (Started s t 2 3 e →
      let k := fieldAt d 44 2
      rd (fieldAt d 32 4) (8 * k) → rd (fieldAt d 36 4) (8 * k) → Inside (fpWr d) (fieldAt d 40 4) (8 * k) →
        ∃ m, exec (.smerge t) s = goes (s.setTile t (ran { x with sp := m } 2 e 0)) ∧
          Wrote x.sp m (fieldAt d 40 4) (candBytes (candTop k (list (fieldAt d 32 4) k ++ list (fieldAt d 36 4) k)))) ∧
    (Started s t 2 4 e →
      let k := fieldAt d 36 2
      let env := s.stepEnv (s.sectNo t)
      let u := ucgBits (ucgSeed env.base env.epoch 3) (fieldAt d 38 2) env.postmark 3 32 (fieldAt d 48 8 % 2 ^ 50)
      let cs := (list (fieldAt d 32 4) k).filter (fun c => c ≠ candPad)
      let pick := spickChoose (BitVec.ofNat 32 (fieldAt d 40 4)) u cs
      rd (fieldAt d 32 4) (8 * k) → Inside (fpWr d) (fieldAt d 44 4) 16 →
        ∃ m, exec (.spick t) s = goes (s.setTile t (ran { x with sp := m } 2 e 0)) ∧
          Wrote x.sp m (fieldAt d 44 4) (leBytes 4 (cs.getD pick.1 candPad).2 ++ leBytes 4 (cs.getD pick.1 candPad).1.toNat
            ++ leBytes 2 pick.2.1 ++ leBytes 2 cs.length ++ leBytes 4 pick.2.2.toNat)))

/-- R171, R172: what micro-ops put into a lane: IOTA the logical index, integer arithmetic modulo 2^32, shifts by the low five bits, comparisons 1 or 0, SELECT by a word that is not zero, a negated or absolute value that is no NaN keeps its magnitude. R184: a candidate list of K entries holds K entries, each a candidate given or padding, and no entry given twice more often than it was given. -/
def Obligations.VectorDatapath : Prop :=
  (∀ (env : StepEnv) (d : List Byte) (vd va vb vc o : Nat) (a b c : Word),
    let lane := fun op => microLane env d { op := op, vd := vd, va := va, vb := vb, vc := vc } o a b c
    (lane 0x05).toNat = o % 2 ^ 32 ∧
    (lane 0x30).toNat = (a.toNat + b.toNat) % 2 ^ 32 ∧ (lane 0x31).toNat = (a.toNat + (2 ^ 32 - b.toNat)) % 2 ^ 32 ∧
    (lane 0x32).toNat = a.toNat * b.toNat % 2 ^ 32 ∧ (lane 0x33).toNat = a.toNat &&& b.toNat ∧ (lane 0x34).toNat = a.toNat ||| b.toNat ∧
    (lane 0x35).toNat = a.toNat ^^^ b.toNat ∧ (lane 0x36).toNat = a.toNat * 2 ^ (b.toNat % 32) % 2 ^ 32 ∧
    (lane 0x37).toNat = a.toNat / 2 ^ (b.toNat % 32) ∧ (lane 0x2B = if c.toNat = 0 then b else a) ∧
    (lane 0x28 = if flt a b then 1 else 0) ∧ (lane 0x2A = if Ex.eqv (f32 a) (f32 b) then 1 else 0) ∧
    ((f32 a).isNan = false → (lane 0x17).toNat = (a.toNat + 2 ^ 31) % 2 ^ 32 ∧ (lane 0x16).toNat = a.toNat % 2 ^ 31)) ∧
  (∀ (k : Nat) (cs : List Cand), (candTop k cs).length = k ∧ (∀ c ∈ candTop k cs, c ∈ cs ∨ c = candPad) ∧
    (∀ c, c ≠ candPad → (candTop k cs).count c ≤ cs.count c) ∧ (cs.length ≤ k → ∀ c ∈ cs, c ∈ candTop k cs))

/-- R221: the scrubber of a scratchpad bank, of 1,024 rows, and of a tile-store bank, of 24,576. Enabled, and at a tile-store bank that is ON, it advances by one row at each read and back to the first after the last. A row that is clean, or of a scratchpad not valid, changes nothing else; a correctable one is written back corrected and counted in SP_CORR or TS_CORR; an uncorrectable one stays, is counted in SCRUB_UNCORR and posted as SCRUB_UNCORRECTABLE. Disabled, at a bank not ON and in a fenced tile it does nothing. -/
def Obligations.Scrubbing : Prop :=
  ∀ (s : State) (t : Ltn) (ts : Bool) (bank : BitVec 4),
    let x := s.tile t
    let i := bank.toNat + (if ts then 16 else 0)
    let rows := if ts then 24576 else 1024
    let row := x.scrub.toList.getD i 0
    let o := 64 * (rows * bank.toNat + row)
    let found := if ts then x.ts.check o 64 else x.sp.check o 64
    let reads := ts = true ∨ x.sp.rowValid o = true
    let moved := { x with scrub := x.scrub.setIfInBounds i ((row + 1) % rows) }
    (s.fencedLtn t.toNat = false → bitOf (s.reg oScrubCfg) 16 = true → (ts = true → (x.ts.bank bank.toNat).st = .on) →
      (¬ reads ∨ found = (0, none) → exec (.scrub t ts bank) s = goes (s.setTile t moved)) ∧
      (∀ n, reads → found = (n + 1, none) →
        ∃ m d, exec (.scrub t ts bank) s = goes (s.setTile t { moved.count (if ts then 4 else 3) (n + 1) with sp := m, ts := d }) ∧
          (∀ a, m.byte a = x.sp.byte a) ∧ (∀ a, d.byte a = x.ts.byte a) ∧ (if ts then d.check o 64 else m.check o 64) = (0, none)) ∧
      (∀ n w, reads → found = (n, some w) →
        exec (.scrub t ts bank) s = goes ((s.setTile t (moved.count 5 1)).event 0x0301 (s.sectNo t) (items [t.toNat, boolNat ts, w])))) ∧
    (s.fencedLtn t.toNat = true ∨ bitOf (s.reg oScrubCfg) 16 = false ∨ (ts = true ∧ (x.ts.bank bank.toNat).st ≠ .on) → exec (.scrub t ts bank) s = goes s)

/-- R90, R233, R235, R244: SEND_INJECT takes the next send of D-X off its list and launches its message, read from the scratchpad, at the tile's office; a late one is counted in the tile's exchange and in the cluster's late counter. R237: a circular whose tables form a loop never leaves. R233, R235, R238: what a route entry does with a message at an office: port LOCAL puts it on its way to a tile of the office's own cluster, a neighbour port hands it to the neighbour, a link port sends it over that link on the entry's virtual channel, a node port gives it to a side of the node it names, and an invalid entry, or LOCAL for a tile elsewhere, is a ROUTE_FAULT. R140, R239, R240: a node whose two inputs have arrived whole combines them element by element and emits the result once, a slice for plane U when the group's input buffer takes it (R267, R272), REDUCE_SAT following it when an element saturated; words of the inputs' flits that the office corrects count in NET_CORR, and one that it cannot correct fails the chip (R252, at the node's office: log 213); a sum result of mode 0 or 1 is the combination of the two ACC40 values. -/
def Obligations.MessagesTravel : Prop :=
  (∀ (s : State) (t : Ltn) (late : Bool) (k c : Nat) (e : List Byte) (rest : List (List Byte)),
    let x := s.tile t
    let office := clusterOf t.toNat
    let bs := x.sp.read (sendSrc e) (sendLength e)
    let u := s.setTile t { corrected x c with ex := { x.ex with sends := rest, late := x.ex.late + boolNat late } }
    let loops := sendCircular e = true ∧ circOffices (s.image (s.sectNo t)).circulars (sendDest e) 64 [] office = none
    s.fencedLtn t.toNat = false → x.seq.status = .exchange k → x.ex.sends = e :: rest →
      (loops → exec (.sendInject t late) s = goes s) ∧
      (¬ loops → x.sp.check (sendSrc e) (sendLength e) = (c, none) → exec (.sendInject t late) s = goes ((if late then u.netCount office 1 1 else u).launch
        { sect := s.sectNo t, route := sendRoute e, node := sendNode e, dest := sendDest e, circ := sendCircular e
          isPartial := sendPartial e && sendNode e != 0xFFFF && !sendCircular e, dst := sendDst e, parts := [(0, bs)], source := t.toNat } office))) ∧
  (∀ (s : State) (m : Mess) (n office : Nat),
    let routes := (s.image m.sect).routes
    let e := fieldAt (tableEntry routes office m.route) 0 4
    let port := e % 16
    (port = 5 → clusterOf m.dest = office → s.fencedLtn m.dest = false →
      s.walkRoute m office = { s with msgs := s.msgs ++ [{ sect := m.sect, ltn := m.dest, dst := m.dst, parts := m.parts, source := m.source }] }) ∧
    (port = 5 → clusterOf m.dest ≠ office → s.walkRoute m office = s.routeFault office m) ∧
    (port = 0 → s.walkRoute m office = s.routeFault office m) ∧
    (port = 8 → s.walkRoute m office = s.nodeInput office false m) ∧
    (port = 9 → s.walkRoute m office = s.nodeInput office true m) ∧
    (∀ l, port = 6 ∨ port = 7 → officeLink office (port - 6) = some l → s.walkRoute m office = s.linkSend l (e / 16 % 8) m) ∧
    (∀ c, 1 ≤ port → port ≤ 4 → neighbour office port = some c → routeEnd routes m.route (n + 1) office = routeEnd routes m.route n c)) ∧
  (∀ (s : State) (office : ClusterId) (node : BitVec 12) (b : NodeBuf) (l r : NodeIn) (ls rs : List NodeIn),
    let e := tableEntry (s.image b.sect).nodes b.office b.node
    let out := nodeResult e l.data r.data
    let code := flitCheck (l.flips ++ r.flips)
    let taken := s.setNodeBuf { b with left := ls, right := rs }
    let counted := if code.1 = 0 then taken else taken.netCount b.office 0 code.1
    let u := counted.nodeSend b.sect b.office b.node e out.1
    s.nodes.find? (fun b => b.office == office.toNat && b.node == node.toNat) = some b → b.left = l :: ls → b.right = r :: rs →
    l.data.length = ndPadded e → r.data.length = ndPadded e → ndOutU e = false ∨ s.sliceReady (nodeSlice b.sect b.office e out.1) = true →
      (code.2 = true → exec (.nodeCombine office node) s = goes (counted.failChip 1 b.office)) ∧
      (code.2 = false → out.2 = 0 → exec (.nodeCombine office node) s = goes u) ∧
      (code.2 = false → 0 < out.2 → exec (.nodeCombine office node) s = goes (u.event 0x0205 b.sect (items [(s.sectN b.sect).exchange.getD 0, b.node, out.2]))) ∧
      (ndMode e ≤ 1 → ∀ i, i < ndElements e → (out.1.drop (5 * i)).take 5 =
        leBytes 5 (combineAcc (ndMode e == 1) (BitVec.ofNat 40 (leNat ((l.data.drop (5 * i)).take 5))) (BitVec.ofNat 40 (leNat ((r.data.drop (5 * i)).take 5)))).1.toNat))

/-- R30, R90, R93, R231, R245: a message within RECV_COUNT is written to the scratchpad, each part of it at DST plus its offset, and counted; one in excess, or one that comes outside the exchange phase, is not written but logged as a dead letter, the tile stopping with RECV_EXCESS (SOURCE and ORIGIN of that dead letter are the model's choice of log 64); a tile that has all it expects and has sent all retires its SYNC and goes on, but not while a node of its section has a result to emit (R267, log 212); a duration beyond BOUND counts an overrun, once a phase for its cluster and once for the section (R246). R247: a phase whose duration reaches BOUND × 2^OVERRUN_LIMIT has stopped its section. R251, R252: a message for a fenced tile is discarded whole at the office; words of it that the office corrects are counted in NET_CORR, and one that it cannot correct fails the chip (at this office alone: log 213). -/
def Obligations.MessagesArrive : Prop :=
  ∀ (s : State) (t : Ltn) (i k at_ d : Nat) (m : Msg),
    let x := s.tile t
    let office := clusterOf t.toNat
    let n := (m.parts.map (·.2.length)).foldl (· + ·) 0
    let rest := ({ s with msgs := s.msgs.eraseIdx at_ } : State).netCount office 0 (flitCheck m.flips).1
    ((s.msgs.zipIdx.filter fun e => e.1.ltn == t.toNat)[i]? = some (m, at_) →
      ((flitCheck m.flips).2 = true → exec (.messageReceive t i) s = goes (rest.failChip 1 office)) ∧
      ((flitCheck m.flips).2 = false → s.fencedLtn t.toNat = true →
        exec (.messageReceive t i) s = goes ((rest.deadLetter 8 5 true m.dst office n).netCount office 3 1)) ∧
      ((flitCheck m.flips).2 = false → s.fencedLtn t.toNat = false → x.seq.status = .exchange k →
        (x.ex.got < x.ex.want → x.sp.flips = [] → ∃ p, exec (.messageReceive t i) s =
            goes (rest.setTile t { x with sp := p, ex := { x.ex with got := x.ex.got + 1 } }) ∧ p.cls = x.sp.cls ∧ p.wmode = x.sp.wmode ∧
            (∀ o, (∀ e ∈ m.parts, o < m.dst + e.1 ∨ m.dst + e.1 + e.2.length ≤ o) → p.byte o = x.sp.byte o) ∧
            (m.parts.Pairwise (fun a b => a.1 + a.2.length ≤ b.1 ∨ b.1 + b.2.length ≤ a.1) →
              ∀ e ∈ m.parts, ∀ j, j < e.2.length → p.byte (m.dst + e.1 + j) = e.2.getD j 0)) ∧
        (x.ex.want ≤ x.ex.got → x.fault = none → exec (.messageReceive t i) s =
            goes ((rest.setTile t (stopped x { fpc := 0xFFFFFFFF, fcode := 8, faddr := m.source, ftag := 0, fmulti := false })).deadLetter 5 1 true m.dst t.toNat n))) ∧
      ((flitCheck m.flips).2 = false → s.fencedLtn t.toNat = false → (∀ j, x.seq.status ≠ .exchange j) → (s.sectN m.sect).phase ≠ .faulted → x.fault = none →
        exec (.messageReceive t i) s =
            goes ((rest.setTile t (stopped x { fpc := 0xFFFFFFFF, fcode := 8, faddr := m.source, ftag := 0, fmulti := false })).deadLetter 5 1 true m.dst t.toNat n))) ∧
    (s.fencedLtn t.toNat = false → x.seq.status = .exchange k → x.ex.sends = [] → x.ex.got = x.ex.want → x.fault = none →
      (∃ b ∈ s.nodes, b.sect = s.sectNo t ∧ b.left ≠ [] ∧ b.right ≠ []) → exec (.exchangeComplete t d) s = goes s) ∧
    (s.fencedLtn t.toNat = false → x.seq.status = .exchange k → x.ex.sends = [] → x.ex.got = x.ex.want → x.fault = none →
      (∀ b ∈ s.nodes, b.sect = s.sectNo t → b.left = [] ∨ b.right = []) →
      let r := s.recordOf (s.sectNo t) t.toNat k
      let limit := s.reg (oSect (s.sectNo t) + sOvr) % 16
      let y := s.sectN (s.sectNo t)
      let u := s.setTile t { x with seq := { x.seq with pc := x.seq.pc + 4, status := .running, syncs := x.seq.syncs + 1, lastEnd := recStepEnd r } }
      let v := u.netCount office 2 1
      (limit ≠ 15 → recBound r * 2 ^ limit ≤ d → exec (.exchangeComplete t d) s =
        goes ((s.event 0x0204 (s.sectNo t) (items [s.sectNo t, k, office])).faultSect (s.sectNo t) 0x0204)) ∧
      ((limit = 15 ∨ d < recBound r * 2 ^ limit) → d ≤ recBound r ∨ office ∈ y.overran → exec (.exchangeComplete t d) s = goes u) ∧
      ((limit = 15 ∨ d < recBound r * 2 ^ limit) → recBound r < d → office ∉ y.overran → exec (.exchangeComplete t d) s =
        goes ((if y.overran = [] then v.count (oSect (s.sectNo t) + sOvrCnt) 0 1 else v).setSectN (s.sectNo t) { y with
          overran := y.overran ++ [office]
          run := if y.overran = [] then y.run.map fun r => { r with overruns := r.overruns + 1 } else y.run })))

/-- R40, R96, R97, R154, R349: putting a section in FAULTED stops every tile of it, discards queued commands, sends and step state, stops a command in execution and the transitions of a TPWR, ends what the section was doing, and leaves memories, other tiles and other sections alone; where the seal point of a step boundary had come (R54, R469) what was staged is captured; a section that is OFF or FAULTED stays as it is. -/
def Obligations.SectionFaults : Prop :=
  ∀ (s : State) (k : SectId) (code : Nat),
    let n := k.toNat
    let t := s.faultSect n code
    ((s.sectN n).phase = .off ∨ (s.sectN n).phase = .faulted → t = s) ∧
    ((s.sectN n).phase ≠ .off → (s.sectN n).phase ≠ .faulted →
      (t.sectN n).phase = .faulted ∧ (t.sectN n).run = none ∧ (t.sectN n).chain = none ∧ (t.sectN n).exchange = none ∧
      (t.sectN n).programs = (s.sectN n).programs ∧ (t.sectN n).postmark = (s.sectN n).postmark ∧
      (∀ i ∈ s.ltns n, (t.tileN i).seq.status = .stopped ∧ (t.tileN i).queues = (s.tileN i).queues.map stopQueue ∧ (t.tileN i).ex.sends = [] ∧
        (t.tileN i).acc = [] ∧ (t.tileN i).ucounts = [] ∧ (t.tileN i).sp = (s.tileN i).sp ∧ (t.tileN i).ts = (s.tileN i).ts.stopTurns ∧
        (t.tileN i).seq.regs = (s.tileN i).seq.regs ∧ (t.tileN i).fault = (s.tileN i).fault) ∧
      (∀ i, i ∉ s.ltns n → t.tileN i = s.tileN i) ∧ (∀ j, j < 16 → j ≠ n → t.sectN j = s.sectN j) ∧
      t.hbm = s.hbm ∧ t.store = s.store ∧ t.boot = s.boot ∧
      t.regs = (if s.atSealPoint n = true ∧ (s.sectN n).run.map (·.sealed) = some false then s.regs.capture (.sect n) else s.regs))

/-- R35, R97, R247: TILE_FAULT posts one TILE_FAULT event per tile whose fault is new, in ascending LTN, EXCHANGE_OVERRUN and BARRIER_TIMEOUT post their event, and the section is put in FAULTED. -/
def Obligations.SectionStops : Prop :=
  ∀ (s : State) (k : SectId) (cluster : ClusterId) (r : Nat),
    let n := k.toNat
    let x := s.sectN n
    (s.newFaults n ≠ [] → exec (.tileFault k) s = goes (((s.newFaults n).foldl (fun u f => u.reportFault n f.1 f.2) s).faultSect n 0x0201)) ∧
    (x.exchange = some r → x.phase = .running → s.inSect n cluster.toNat = true → s.inPhase cluster.toNat = true → s.reg (oSect n + sOvr) % 16 ≠ 15 →
      exec (.exchangeOverrun k cluster) s = goes ((s.event 0x0204 n (items [n, r, cluster.toNat])).faultSect n 0x0204)) ∧
    (s.someArrived n = true → s.uncounted n = false → x.phase ≠ .held → x.phase ≠ .off → x.phase ≠ .faulted →
      exec (.barrierTimeout k) s = goes ((s.event 0x0101 n []).faultSect n 0x0101))

/-- R31, R43, R90, R91, R348, R366: the release of a barrier of a section that is not joined, with no seal pending and no device seal, no frame waiting and no HANDOVER. Each release counts in BSEQ, modulo 2^32. At record idx every tile begins step 2 of its SYNC with the record and the send entries that its tile store holds; at the closing barrier of a WHOLE or TAIL sequence every tile stops, the step boundary is due and its seal captured (R54); a BARRIER descriptor completes; at step 3 of a switch SWITCH_IN starts. -/
def Obligations.BarrierReleases : Prop :=
  ∀ (s : State) (k : SectId) (idx : Nat) (r : StepRun) (tt : Timetable),
    let n := k.toNat
    let x := s.sectN n
    s.joined n = false → s.glbPend = false → x.sealPend = false → x.sealNext = false → x.linkUse = [] → s.replaying n = false →
      (∀ d, x.barrier = some d → exec (.barrierRelease k) s = goes ((s.setSectN n { x with
        barrier := none, freed := false, bseq := (x.bseq + 1) % 2 ^ 32, span := { rootState := x.span.rootState } }).done n (descDone d.desc d.index 0 0))) ∧
      (x.barrier = none → x.atSwitch = true → x.phase = .switching → exec (.barrierRelease k) s = goes ((s.setSectN n { x with
        atSwitch := false, freed := false, bseq := (x.bseq + 1) % 2 ^ 32, span := {} }).startSwitchIn n)) ∧
      (x.barrier = none → x.atSwitch = false → x.phase = .running → x.run = some r → x.timetable = some tt → x.fillDue idx = false → s.ltns n ≠ [] →
        (∀ i ∈ s.ltns n, (s.tileN i).seq.status = .arrived idx) →
        (idx ≠ 0xFFFFFFFF → s.isHandover n idx = false → (∀ l, l < 32 → s.linkSect l = some n → ∀ v, v < 5 → (s.linkN l).rxq.toList.getD v [] = []) →
          tt.ssOffset + 16 * idx + 16 ≤ 0x1800000 → (∀ i ∈ s.ltns n, s.fencedLtn i = false ∧ Served (s.tileN i) ∧
            (tt.tile i).sendsOff + 32 * (recSendFirst (s.recordOf n i idx) + recSendCount (s.recordOf n i idx)) ≤ 0x1800000) →
          ∃ t, exec (.barrierRelease k) s = goes t ∧ (t.sectN n).exchange = some idx ∧ (t.sectN n).bseq = (x.bseq + 1) % 2 ^ 32 ∧
            (∀ i ∈ s.ltns n,
              let entry := (s.tileN i).ts.read (tt.ssOffset + 16 * idx) 16
              t.tileN i = { s.tileN i with
                seq := { (s.tileN i).seq with status := .exchange idx }
                ex := { sends := (List.range (recSendCount entry)).map fun j => (s.tileN i).ts.read ((tt.tile i).sendsOff + 32 * (recSendFirst entry + j)) 32
                        late := 0, got := 0, want := recRecvCount entry } }) ∧
            (∀ i, i ∉ s.ltns n → t.tileN i = s.tileN i) ∧ t.regs = s.regs ∧ t.hbm = s.hbm) ∧
        (idx = 0xFFFFFFFF → r.code = 0 ∨ r.code = 3 →
          ∃ t, exec (.barrierRelease k) s = goes t ∧ (t.sectN n).phase = .running ∧ (t.sectN n).bseq = (x.bseq + 1) % 2 ^ 32 ∧
            (∃ r', (t.sectN n).run = some r' ∧ r'.ended = true ∧ r'.stepSs = r.stepSs + boolNat x.exchange.isSome ∧ r'.sealed = (r.sealed || r.began)) ∧
            (∀ i ∈ s.ltns n, t.tileN i = { s.tileN i with seq := { (s.tileN i).seq with status := .stopped } }) ∧
            (∀ i, i ∉ s.ltns n → t.tileN i = s.tileN i) ∧ t.regs = (if r.began = true ∧ r.sealed = false then s.regs.capture (.sect n) else s.regs) ∧ t.hbm = s.hbm))

/-- R58: postmarks follow one another in a cycle of 2^31 - 1 values. The successor of p is p + 1, that of 0x7FFF_FFFF is 1; dist is the difference modulo 2^31 - 1, and p is later than q when it lies from 1 to 2^30; postmark 0 is earlier than every postmark. -/
def Obligations.PostmarksFollowInACycle : Prop :=
  ∀ p q : Nat, 1 ≤ p → p < 2 ^ 31 → 1 ≤ q → q < 2 ^ 31 →
    postSucc p = (if p = 0x7FFFFFFF then 1 else p + 1) ∧ 1 ≤ postSucc p ∧ postSucc p < 2 ^ 31 ∧
    (postDist q p : Int) = ((p : Int) - q) % (2 ^ 31 - 1) ∧ postDist q p ≤ 2 ^ 31 - 2 ∧ (postDist q p = 0 ↔ p = q) ∧
    (postLater q p = true ↔ 1 ≤ postDist q p ∧ postDist q p ≤ 2 ^ 30) ∧ postDist p (postSucc p) = 1 ∧
    postLater 0 p = true ∧ postLater p 0 = false

/-- R57, R58: the postmark that a WHOLE or HEAD of a section that is no evaluation section may carry: after a LOAD any later one than that of the version that it restored, else the successor of SECT_POSTMARK, which is the next number, 1 after 2^31 - 1. R43, R45, R345, R346, R376: an accepted STEP leaves the job ring, is recorded in the postbook, and its run is in progress; where its program is the one in execution the section is RUNNING, else it is being switched in and stands at the switch's section barrier. That the ring's head moves when a descriptor is taken and what its step leaves are the model's choices (logs 49 and 50). R45, R57, R60, R262, R345, R346, R376, R451: when a WHOLE executes normally: the section is IDLE, both entries are announced, the rings have room, the descriptor is well formed and names a timetable of the program in execution that needs no probe, its postmark is in order, the mask copies it selects are legal and lie in UPDATE where HBM can correct what is read (R302, R441), the links of the span table are ACTIVE with the partners that it lists, and no capture is armed. -/
def Obligations.StepsAreTaken : Prop :=
  (∀ (s : State) (k p : Nat), s.evalOn k = false →
    let x := s.sectN k
    (x.fresh = false → 1 ≤ x.postmark → x.postmark < 2 ^ 31 →
      (s.postmarkRefused k p = none ↔ p = if x.postmark = 2 ^ 31 - 1 then 1 else x.postmark + 1)) ∧
    (p = 0 ∨ 2 ^ 31 ≤ p → s.postmarkRefused k p ≠ none) ∧
    (x.fresh = true → 1 ≤ p → p < 2 ^ 31 → (s.postmarkRefused k p = none ↔ postLater (x.loaded.getD x.postmark) p = true))) ∧
  (∀ (s : State) (k : SectId) (d v : List Byte) (r : StepRun),
    let n := k.toNat
    let u := s.advanceHead n 2
    let x := u.sectN n
    let y := if r.segIndex = 0 then { x with loaded := none } else x
    descType d = 1 → s.mayTake n 2 false = true → s.ringOn 66 = true → u.judgeStep n d v (s.ring n).head = .inr r →
    (∀ a ∈ u.maskReads n d v (s.ring n).head, u.updReach a.1 a.2.1 = true ∧ u.hbmBadUnit a.1 a.2.1 = none) →
    u.evalOn n = false → 1 ≤ r.segIndex ∨ (bitOf (s.reg oCapCtl) 4 = false ∧ u.checkLinks n ((x.resident (r.tt / 1024)).getD {}).span = (u, true)) →
      (x.progValid = true → x.prog = r.tt / 1024 → exec (.step k d v) s = goes
        ((u.setSectN n { y with run := some r, evalWait := none, phase := .running }).descRecord n (s.ring n).head (d ++ v) [])) ∧
      (x.progValid = false ∨ x.prog ≠ r.tt / 1024 → ∃ t, exec (.step k d v) s = goes t ∧ (t.sectN n).phase = .switching ∧ (t.sectN n).atSwitch = true ∧
        (t.sectN n).run = some r ∧ (t.sectN n).prog = r.tt / 1024 ∧ (t.sectN n).progValid = true)) ∧
  (∀ (s : State) (k : SectId) (d v : List Byte) (p : ProgImage),
    let n := k.toNat
    let x := s.sectN n
    let c := s.ring (48 + n)
    let tt := stTt d
    s.ringOn n = true → 2 ≤ (s.ring n).occupancy → s.ringOn 66 = true →
    s.ringOn (48 + n) = true → c.held = [] → x.nops.length + boolNat x.bg.isSome < c.free →
    x.phase = .idle → x.run = none → x.evalWait = none → x.switching = none → x.barrier = none → x.chain = none → x.fence = none →
    descType d = 1 → commonRefusal n d = none → stCode d = 0 → tt % 128 = 0 → x.resident (tt / 1024) = some p → x.progValid = true → x.prog = tt / 1024 →
    (p.timetable tt).isSome = true → s.needsProbe n p = false →
    s.evalOn n = false → x.fresh = false → 1 ≤ x.postmark → x.postmark < 2 ^ 31 → stPostmark d = (if x.postmark = 2 ^ 31 - 1 then 1 else x.postmark + 1) →
    (∀ m ∈ p.masks, s.maskTableOk p m.1 (maskSelOf p v) = true) → s.hbmBad = [] →
    (∀ m ∈ p.masks, ∀ a, p.maskCopy m.1 (bitOf (maskSelOf p v) m.1) = some a → s.updReach a (s.maskArea a).2.1 = true) → bitOf (s.reg oCapCtl) 4 = false →
    (∀ l, l < 32 → spanUsed p.span l = true →
      (s.linkN l).phase = .active ∧ (s.linkN l).peerChip = spanPeerChip p.span l ∧ (s.linkN l).peerLink = spanPeerLink p.span l) →
      exec (.step k d v) s = goes (((s.advanceHead n 2).setSectN n { x with
        loaded := none, evalWait := none, phase := .running
        run := some { desc := d, values := v, index := (s.ring n).head, tt := tt, named := false, probe := false, code := 0, segIndex := 0, segCount := 1
                      epoch := stEpoch d, maskSel := maskSelOf p v } }).descRecord n (s.ring n).head (d ++ v) []))

/-- R73, R106: at an entry the pc is the entry address, g1 the LTN, g2 0x0040_0000, g3 the segment word, every other register and every semaphore 0, and every command queue is empty; R106: accumulators and drain buffer are cleared, no accumulation is open. Scratchpad, tile store, scale register file and operand squares are as before. R46, R61, R73, R79: the accepted segment begins in every tile of its section at the entry of its code, with the segment word and the step's postmark and value area in the information block; HEAD, MIDDLE, TAIL and WHOLE alike. A fenced tile, whose clocks stand, begins nothing (R442). -/
def Obligations.SegmentsBegin : Prop :=
  (∀ (x : Tile) (ltn : Ltn) (entry seg : Word) (info : List Byte),
    let y := x.enter ltn.toNat entry.toNat seg.toNat info
    y.seq.pc = entry ∧ y.seq.status = .running ∧ y.seq.reg 1 = ltn.zeroExtend 32 ∧ y.seq.reg 2 = 0x00400000 ∧ y.seq.reg 3 = seg ∧
    (∀ g : GReg, g ≠ 1 → g ≠ 2 → g ≠ 3 → y.seq.reg g = 0) ∧ (∀ i, i < 16 → y.seq.sem i = 0) ∧ (∀ q, q < 8 → y.queue q = []) ∧
    y.sp = x.sp ∧ y.ts = x.ts ∧ y.scale = x.scale ∧ y.me.acc = [] ∧ y.me.accOpen = false ∧ y.me.dbFull = false ∧ y.me.db = [] ∧ y.me.squares = x.me.squares ∧ y.acc = x.acc ∧ y.ranges = x.ranges ∧
    (∀ o, o < info.length → y.info.read o = info.getD o 0)) ∧
  (∀ (s : State) (k : SectId) (r : StepRun) (p : ProgImage),
    let n := k.toNat
    let x := s.sectN n
    let u := fun (code : Nat) =>
      let ss := match p.timetable r.tt with
        | some t => t.ssCount code r.segCount
        | none => 0
      let seg := if code = 0 then 0 else code + 16 * r.segIndex + 4096 * r.segCount
      let m := s.mapTiles n fun i t => if s.fencedLtn i then t else t.enter i (((p.entries[code + 1]?).map (·.1)).getD 0) seg
        (padTo 256 (leBytes 4 i ++ leBytes 4 n ++ leBytes 4 r.tt ++ leBytes 4 seg ++ leBytes 4 (stPostmark r.desc) ++ leBytes 4 ss ++ fillBytes 8 0
          ++ leBytes 4 (p.tile i).codeBase ++ leBytes 4 (p.tile i).codeLimit) ++ padTo 64 r.values)
      m.setSectN n { m.sectN n with run := some { r with began := true, seqSs := 0 } }
    x.phase = .running → x.run = some r → r.began = false → x.program = some p →
      (r.code = 0 → exec (.whole k) s = goes (u 0)) ∧ (r.code = 1 → exec (.head k) s = goes (u 1)) ∧
      (r.code = 2 → exec (.middle k) s = goes (u 2)) ∧ (r.code = 3 → exec (.tail k) s = goes (u 3)))

/-- R26, R66, R290: a step boundary that is due, with every slice consumed, every version range written, no root late and no fault of its own, ends the step: the section has no step and no chain and is IDLE, or stays RUNNING where its job ring holds the two announced entries of a STEP that follows (R40, R346, log 43); outside an evaluation section SECT_POSTMARK is the step's postmark and the OPEN ranges of the program are CURRENT, the CURRENT ones OLD. No combining node of the section still has both inputs (R248, R267). It has no fault of its own where no tile of the section has one, HBM can correct what it holds, every tile-store bank of the section is ON and reads without error (R209, R214, R441), and the postbook ring takes its record, no seal being in the way (R357). -/
def Obligations.StepBoundaryEnds : Prop :=
  ∀ (s : State) (k : SectId) (r : StepRun),
    let n := k.toNat
    let x := s.sectN n
    let b := (s.boundaryStats n).boundarySeal n
    let u := if s.evalOn n then b.1 else b.1.advanceVersions n r
    let ends := ∃ t, exec (.stepBoundary k) s = goes t ∧ t = s.boundary n r ∧ (t.sectN n).phase = (if s.goesOn n then .running else .idle) ∧
        (t.sectN n).run = none ∧ (t.sectN n).chain = none ∧
        (s.evalOn n = false → (t.sectN n).postmark = stPostmark r.desc ∧ (t.sectN n).fresh = x.loaded.isSome)
    x.phase = .running → x.run = some r → r.ended = true → (∀ q ∈ s.slices.toList, ∀ m ∈ q, m.sect ≠ n) → s.evalOn n = true ∨ s.incomplete n = none →
    s.evalOn n = true ∨ s.rootWait n = [] → (∀ b ∈ s.nodes, b.sect = n → b.left = [] ∨ b.right = []) → s.newFaults n = [] →
      (s.hbmBad = [] → (∀ i ∈ s.ltns n, (s.tileN i).ts.flips = [] ∧ ∀ j, j < 16 → ((s.tileN i).ts.bank j).st = .on) →
        s.ringOn 66 = false ∨ ((s.ring 66).held = [] ∧ 2 ≤ (s.ring 66).free ∧
          s.regs.staged = [] ∧ s.regs.captured = [] ∧ s.regs.next = [] ∧ x.sealPend = false ∧ x.sealNext = false) → ends) ∧
      (((s.boundaryStats n).sectN n).phase ≠ .faulted → (u.sectN n).phase ≠ .faulted →
        ((s.boundary n r).ring 66).held.length ≤ (s.ring 66).held.length → ends) ∧
      (∀ v : VRange, v.prog = x.prog → (v.advance x.prog).st = (match v.st with
          | .open => .current
          | .current => .old
          | .old => .old) ∧ (v.advance x.prog).stamp = v.stamp)

/-- R42-R43, R52, R53, R325, R326, R344-R348, R376: descriptors of one entry that the section may take, of the right format and section and not between the segments of a chain, leave the job ring with a DESCRIPTOR record and have their effect: SWITCH switches a resident program in, SAVE starts with the image formed where HBM can correct all that it reads, INGEST installs its shuffle table, SEAL applies the staged values, FENCE and BARRIER wait. The ring's head moves as the descriptor is taken (log 49), a SWITCH to the program in execution still switches (log 44), and a DESCRIPTOR record is written on acceptance (log 50): the model's choices. -/
def Obligations.DescriptorsAreTaken : Prop :=
  ∀ (s : State) (k : SectId) (d : List Byte) (p : ProgImage),
    let n := k.toNat
    let index := (s.ring n).head
    let u := ((s.settle n).advanceHead n 1).descRecord n index d []
    let run : DescRun := { desc := d, index := index }
    let slot := fieldAt d 8 1 % 64
    s.mayTake n 1 false = true → (s.sectN n).betweenSegments = false → commonRefusal n d = none →
      (descType d = 2 → (u.sectN n).resident slot = some p → exec (.switch k d) s = goes ((u.setSectN n { u.sectN n with switching := some run }).switchTo n slot)) ∧
      (descType d = 4 → (s.sectN n).bg = none → (u.sectN n).resident slot = some p → u.saveBad p = none → (u.saveImage n slot p).length ≤ fieldAt d 24 8 →
        exec (.save k d) s = goes ((u.saveTouch n slot p).setSectN n { u.sectN n with bg := some (.save run (u.saveImage n slot p)) })) ∧
      (descType d = 5 →
        let a := fieldAt d 16 8
        let h := u.hbm.readBytes a 64
        u.inPart 1 a 64 = true → shuffleHeaderOk h (fieldAt d 24 4) (u.queueQt n) = true → u.inPart 1 a (fieldAt h 16 8) = true → u.hbmBadUnit a 64 = none →
          exec (.ingest k d) s = goes ((u.setSectN n { u.sectN n with
            table := some { addr := a, epoch := fieldAt h 0 4, prog := fieldAt h 4 1 % 64, window := fieldAt h 8 4, rows := fieldAt h 12 4 }
            row := 0, rowStart := 0 }).complete n (descDone d index 0 0))) ∧
      (descType d = 6 →
        let t := ({ u with regs := u.regs.capture (.sect n) } : State).applySect n true
        t.2 = false → exec (.seal k d) s = goes (t.1.complete n (descDone d index 0 0))) ∧
      (descType d = 7 → ¬ (fieldAt d 8 1 / 128 % 2 = 1 ∧ fieldAt d 8 1 % 16 = n) →
        exec (.fence k d) s = goes (u.setSectN n { u.sectN n with fence := some run })) ∧
      (descType d = 8 → s.ringOn 66 = true → (u.sectN n).discarded = false → u.checkLinks n (u.sectN n).spanTable = (u, true) →
        exec (.barrier k d) s = goes (u.setSectN n { u.sectN n with barrier := some run }))

/-- R42, R344, R346, R350, R347, R464: LOAD and NOP in any state but FAULTED; the ends of background LOADs and SAVEs and of a FENCE; the failed fetch of a descriptor. When the ring's head moves (log 49), that the DESCRIPTOR record of a LOAD follows its LOAD_DONE (log 50) and that a failed fetch leaves the head where it is (log 57) are the model's choices. -/
def Obligations.BackgroundDescriptors : Prop :=
  ∀ (s : State) (k : SectId) (d : List Byte) (run : DescRun) (img : ImageData) (image : List Byte) (r : BitVec 7),
    let n := k.toNat
    let x := s.sectN n
    let index := (s.ring n).head
    let u := (s.settle n).advanceHead n 1
    (descType d = 3 → s.mayTake n 1 true = true → x.bg = none → commonRefusal n d = none → ¬ ((u.sectN n).progValid = true ∧ (u.sectN n).prog = fieldAt d 8 1 % 64) →
      exec (.load k d) s = goes (u.setSectN n { u.sectN n with bg := some (.load { desc := d, index := index }) })) ∧
    (x.bg = some (.load run) →
      let v := (s.setSectN n { x with bg := none }).descRecord n run.index run.desc (padTo 64 (padTo 32 (img.bytes.drop 96)))
      v.loadRefused n run.desc img = none →
        exec (.loadDone k (.image img)) s = goes ((v.loadImage n (fieldAt run.desc 8 1 % 64) img).complete n (descDone run.desc run.index 0 0))) ∧
    (descType d = 9 → s.mayTake n 1 true = true → commonRefusal n d = none → x.inExecution = false →
      exec (.nop k d) s = goes ((u.descRecord n index d []).complete n (descDone d index 0 0))) ∧
    (x.bg = some (.save run image) →
      exec (.saveDone k) s = goes (((s.setSectN n { x with bg := none }).hostWrite (fieldAt run.desc 16 8) image).complete n (descDone run.desc run.index 0 0))) ∧
    (x.fence = some run → x.bg = none → x.snap = none →
      (fieldAt run.desc 8 1 / 128 % 2 = 1 → (s.ringDone (fieldAt run.desc 8 1 % 16) + 2 ^ 32 - fieldAt run.desc 12 4) % 2 ^ 32 < 2 ^ 31) →
      exec (.fenceComplete k) s = goes ((s.setSectN n { x with fence := none }).done n (descDone run.desc run.index 0 0))) ∧
    (16 ≤ r.toNat → r.toNat < 48 → s.ringOn r.toNat = true → (s.ring r.toNat).occupancy ≠ 0 →
      exec (.ringError r) s = goes ((s.setReg (oRing r.toNat + 0xC) (s.ringCtl r.toNat ||| 2)).event 0x0602 0xFF (items [r.toNat, (s.ring r.toNat).head]))) ∧
    (r.toNat = n → s.ringOn n = true → (s.ring n).occupancy ≠ 0 → x.inExecution = false → x.fence = none → x.phase ≠ .faulted →
      exec (.ringError r) s = goes (((s.setReg (oRing n + 0xC) (s.ringCtl n ||| 2)).event 0x0602 0xFF (items [n, (s.ring n).head])).complete n
        { tag := 0, index := (s.ring n).head, type := 0, status := csReadError } |>.settle n))

/-- R338-R340: an enable starts a ring afresh at the base, size and write-back address of its registers with both indices 0 and the expected phase 1; an accepted doorbell sets the tail of a host-produced ring, or the head of another and lets held records through; a refused one only posts DOORBELL_INVALID. R416: enabling the event ring posts one COUNTER_COPY_BAD for each item that boot found with one invalid copy. The layout of DOORBELL_INVALID (log 95) and section 0xFF of a ring's event (log 59) are the model's choices. R335, R343, R357, R358: the announcements that time brings: COALESCE_TIMEOUT raises the vector of a coalescing ring with records not announced, which is sent where MSI-X is enabled and neither function nor vector masked, and becomes pending where it is masked; RING_PRESSURE posts the occupancy of a host-produced ring above 7/8, EVENT_LOST tells how many records a ring lost once it has room again. -/
def Obligations.RingControl : Prop :=
  (∀ (s : State) (r : BitVec 7) (v : Word) (w : Dword),
    let n := r.toNat
    let x := s.ring n
    s.ready = true → n < 67 →
      (v.toNat % 2 = 1 → s.ringOn n = false → bitOf (s.ringCtl n) 1 = false → sizeOk n (s.reg (oRing n + 8)) = true → n ≠ 64 ∨ s.boot.badCopies = [] →
        ∃ t, exec (.ringEnable r v) s = goes t ∧ t.ringOn n = true ∧
          t.ring n = { base := s.reg (oRing n) + 2 ^ 32 * s.reg (oRing n + 4), size := s.reg (oRing n + 8), wb := s.reg (oRing n + 0x18) + 2 ^ 32 * s.reg (oRing n + 0x1C) } ∧
          (t.ring n).head = 0 ∧ (t.ring n).tail = 0 ∧ (t.ring n).phase = true ∧ (t.ring n).seq = 0 ∧ (t.ring n).held = [] ∧
          (∀ j, j ≠ n → t.ring j = s.ring j) ∧ t.posted = s.posted) ∧
      (v.toNat % 2 = 1 → s.ringOn n = false → bitOf (s.ringCtl n) 1 = false → sizeOk n (s.reg (oRing n + 8)) = true → n = 64 →
        ∃ t : State, t.ringOn 64 = true ∧ t.ring 64 = { base := s.reg (oRing 64) + 2 ^ 32 * s.reg (oRing 64 + 4), size := s.reg (oRing 64 + 8), wb := s.reg (oRing 64 + 0x18) + 2 ^ 32 * s.reg (oRing 64 + 0x1C) } ∧
          (∀ j, j ≠ 64 → t.ring j = s.ring j) ∧ t.posted = s.posted ∧ t.boot = s.boot ∧
          exec (.ringEnable r v) s = goes { s.boot.badCopies.foldl (fun u i => u.event 0x0806 0xFF (leBytes 4 i)) t with boot := { s.boot with badCopies := [] } }) ∧
      (s.doorbellBad n w.toNat = false → n < 48 → exec (.doorbell (BitVec.ofNat 12 (8 * n)) w) s = goes (s.setRing n { x with tail := w.toNat })) ∧
      (s.doorbellBad n w.toNat = false → 48 ≤ n → x.held = [] → exec (.doorbell (BitVec.ofNat 12 (8 * n)) w) s = goes (s.setRing n { x with head := w.toNat })) ∧
      (s.doorbellBad n w.toNat = true → exec (.doorbell (BitVec.ofNat 12 (8 * n)) w) s = goes (s.event 0x0603 0xFF (items [n, w.toNat])))) ∧
  (∀ (s : State) (r : BitVec 7),
    let n := r.toNat
    let x := s.ring n
    let v := s.ringCtl n / 16 % 64
    let masked := s.pcie.msixMask || (Sparse.get 0x100000000 s.pcie.msixTable (2 * v + 1)).toNat.testBit 32
    (s.ringOn n = true → s.ringCtl n / 4 % 4 = 2 → 0 < x.unannounced → exec (.coalesceTimeout r) s = goes
      { s.setRing n { x with unannounced := 0 } with
        posted := s.posted ++ (if s.pcie.msixEnable = true ∧ masked = false then [.msix v] else [])
        pcie := if s.pcie.msixEnable = true ∧ masked = true then { s.pcie with msixPending := s.pcie.msixPending ||| BitVec.ofNat 64 (2 ^ v) } else s.pcie }) ∧
    (n < 48 → s.ringOn n = true → 7 * x.size < 8 * x.occupancy → exec (.ringPressure r) s = goes (s.event 0x0601 0xFF (items [n, x.occupancy]))) ∧
    (0 < x.lost → x.held = [] → 0 < x.free → exec (.eventLost r) s = goes ((s.setRing n { x with lost := 0 }).event 0x0604 0xFF (items [n, x.lost]))))

/-- R339-R343, R353, R357: posting an event. While the event ring does not run nothing happens. While it runs, holds no record back and has room, the 32-byte record is written at base + 32 x tail with the ring's number of the record at bytes 4-7, PHASE in bit 0 of byte 3 and the timestamp, and the tail advances; where it has no room, or holds records back already, the record is held with PHASE still 0, which its delivery sets; the 257th is counted as lost, and its number is used up all the same, so that a gap in SEQ tells of the loss (log 62, the model's reading). -/
def Obligations.EventRecords : Prop :=
  ∀ (s : State) (code sect : Nat) (data : List Byte),
    let x := s.ring 64
    let bytes := leBytes 2 code ++ leBytes 1 sect ++ [BitVec.ofNat 8 (boolNat x.phase)] ++ leBytes 4 x.seq ++ leBytes 8 s.tstamp ++ padTo 16 data
    let waiting := leBytes 2 code ++ leBytes 1 sect ++ [0] ++ leBytes 4 x.seq ++ leBytes 8 s.tstamp ++ padTo 16 data
    let tail := (x.tail + 1) % x.size
    (s.ringOn 64 = false → s.event code sect data = s) ∧
    (s.ringOn 64 = true → x.held = [] → 1 ≤ x.free → bitsOf (s.ringCtl 64) 3 2 = 0 → x.wb = 0 → s.event code sect data =
      { s.setRing 64 { x with seq := x.seq + 1, tail := tail, phase := if tail = 0 then !x.phase else x.phase } with
        posted := s.posted ++ [.write (x.base + 32 * x.tail) bytes] }) ∧
    (s.ringOn 64 = true → x.free = 0 ∨ x.held ≠ [] → x.held.length < 256 → s.event code sect data = s.setRing 64 { x with seq := x.seq + 1, held := x.held ++ [(waiting, false)] }) ∧
    (s.ringOn 64 = true → 256 ≤ x.held.length → s.event code sect data = s.setRing 64 { x with seq := x.seq + 1, lost := x.lost + 1 })

/-- R52, R53, R55, R469, R470: a section seal request captures the staged values of the section and, while the section runs with its barrier open, waits for a barrier; one of an IDLE, FAULTED or OFF section is applied at once; one that comes after the last arrival at the barrier that applies a pending seal is a new seal (the model's readings of logs 37 and 188). A device seal request captures the device's staged values and is pending, or is a new seal once the pending one is being applied, which begins when every section is HELD, IDLE, FAULTED or OFF; then a set that checks and raises no clock is applied. R40, R55, R470: the end of a device seal releases HELD sections to the state they had, their release going on; every other section keeps its state, and the seal is no longer pending unless another was requested meanwhile. -/
def Obligations.SealRequests : Prop :=
  (∀ (s : State) (k : SectId) (v : Word),
    let n := k.toNat
    let x := s.sectN n
    let mine := { s with regs := s.regs.capture (.sect n) }
    let s' := { s with glbBegun := true }
    s.ready = true → NoLateSeal s → (v.toNat % 2 = 1 → v.toNat / 4 % 2 = 0 →
      (x.phase = .running → s.allArrived n = false → s.atSealPoint n = false → x.atSwitch = false →
        exec (.sectionSealRequest k v) s = goes (mine.setSectN n { x with sealPend := true })) ∧
      (x.phase = .running → s.allArrived n = true → s.atSealPoint n = false → x.sealPend = true →
        exec (.sectionSealRequest k v) s = goes (({ s with regs := s.regs.captureNext (.sect n) } : State).setSectN n { x with sealNext := true })) ∧
      (x.phase = .idle ∨ x.phase = .faulted ∨ x.phase = .off → x.run = none → x.sealPend = false → x.sealNext = false →
        exec (.sectionSealRequest k v) s = goes ((mine.setSectN n { x with sealPend := true }).applySect n true).1) ∧
      (s.glbPend = false ∨ s.glbBegun = false ∧ (∃ y ∈ s.sects.toList, y.phase = .running ∨ y.phase = .switching) → exec (.deviceSealRequest v) s = goes { s with regs := s.regs.capture .device, glbPend := true }) ∧
      (s.glbPend = true → s.glbBegun = true ∨ (∀ y ∈ s.sects.toList, y.phase ≠ .running ∧ y.phase ≠ .switching) → exec (.deviceSealRequest v) s = goes { s with regs := s.regs.captureNext .device, glbNext := true })) ∧
    (s.glbPend = true → (∀ y ∈ s.sects.toList, y.phase ≠ .running ∧ y.phase ≠ .switching) → s'.failing .device = none → s'.raises = [] →
      (∀ w ∈ s.phys.avs, w.purpose ≠ 2) → exec .deviceSealApply s = goes
        ((((s'.deviceHooks ({ s' with regs := s'.regs.applySet .device }.sealRecord .device false (s'.regs.set .device)) (s'.regs.set .device))).dropRaises false).endDeviceSeal))) ∧
  (∀ (s : State), s.endDeviceSeal.glbPend = s.glbNext ∧ s.endDeviceSeal.glbBegun = false ∧ s.endDeviceSeal.glbNext = false ∧
    ∀ k, k < 16 → ((s.sectN k).phase = .held → (s.endDeviceSeal.sectN k) = { s.sectN k with phase := (s.sectN k).before, freed := true }) ∧
      ((s.sectN k).phase ≠ .held → s.endDeviceSeal.sectN k = s.sectN k))

/-- R11, R53, R469: capturing the staged values of a scope and applying them makes each effective under its own key and changes the value in effect of no other key; nothing of the scope stays staged. -/
def Obligations.SealsMakeStagedValuesEffective : Prop :=
  ∀ (f : RegFile) (sc : Scope) (key : Nat),
    f.captured = [] → Sparse.wf none f.staged = true →
      let g := (f.capture sc).applySet sc
      g.get key = (if inScope sc key then (Sparse.get none f.staged key).getD (f.get key) else f.get key) ∧
      Sparse.get none g.staged key = (if inScope sc key then none else Sparse.get none f.staged key) ∧ g.captured = [] ∧ g.counters = f.counters

/-- R11, R337, R392, R467, R472: accesses of BAR0. A 32-bit write of a register of the SECT block other than SECT_SEAL and SECT_RESET in READY, or of the BOOT block other than BOOT_CMD in every boot state, at no section's seal point, takes RW fields at once, clears W1C fields and stages ST fields under the selector in effect; a read returns the value, clears a counter, and latches the HI word of the pair it reads; outside READY only the BOOT block is served; an access of another width is logged, and such a read returns all ones. -/
def Obligations.RegisterAccesses : Prop :=
  ∀ (s : State) (off : BitVec 24) (v : Dword) (r : RegSpec) (size : Nat),
    let o := off.toNat
    let key := regKey o (s.selOf r)
    NoLateSeal s →
    (regSpec o = some r → s.ready = true ∧ 0x60000 ≤ o ∧ o < 0x61000 ∧ o % 0x100 ≠ 0x0C ∧ o % 0x100 ≠ 0x18 ∨ 0x10000 ≤ o ∧ o < 0x20000 ∧ o ≠ oBootCmd →
      r.rw &&& r.w1c = 0 → (∀ k, s.atSealPoint k = false) →
      ∃ f, exec (.registerWrite off 4 v) s = goes { s with regs := f } ∧
        (r.st ≠ 0 → f.seen key = BitVec.ofNat 32 (v.toNat % 2 ^ 32 &&& r.st)) ∧
        (r.rw ≠ 0 → (f.get key).toNat &&& r.rw = v.toNat % 2 ^ 32 &&& r.rw &&& (2 ^ 32 - 1)) ∧
        (∀ j, j ≠ key → f.get j = s.regs.get j ∧ f.seen j = s.regs.seen j) ∧ f.counters = s.regs.counters ∧ f.latches = s.regs.latches) ∧
    (s.ready = true ∨ 0x10000 ≤ o ∧ o < 0x20000 → regSpec o = some r → ∃ t, exec (.readClear off 4) s = goes t ∧ t.reply = .data (s.peek o r) ∧
        (r.rc = true → t.counter (s.counterAt o) = 0) ∧ (r.rc = false → s.hiOfLo o = none → t = { s with reply := .data (s.peek o r) })) ∧
    (s.ready = true → regSpec o = some r → r.rc = false → ∀ h, s.hiOfLo o = some h → exec (.latchingRead off 4) s = goes
        { s with regs := { s.regs with latches := Sparse.set 0 s.regs.latches o (BitVec.ofNat 32 h) }, reply := .data (s.peek o r) }) ∧
    (s.ready = false → o < 0x10000 ∨ 0x20000 ≤ o → exec (.registerWrite off size v) s = goes s ∧ exec (.readClear off size) s = goes { s with reply := .data 0 }) ∧
    (s.ready = true → size ≠ 4 → o < 0x50000 ∨ 0x51000 ≤ o → exec (.registerWrite off size v) s = goes (s.deadLetter 0x0F 0 true o Config.requesterId size)) ∧
    (s.ready = true → size ≠ 4 → exec (.readClear off size) s = goes { s.deadLetter 0x0F 0 false o Config.requesterId size with reply := .data 0xFFFFFFFF })

/-- R10, R83, R251, R336, R355: BAR2. A read that ends in the scratchpad, the tile store or the HBM in which it starts returns the bytes, a read of a reserved or unmapped range or of a fenced tile is a dead letter with the device address, answered with Unsupported Request (log 184); a write to an idle tile's scratchpad or tile store, or to HBM, puts its bytes there, one to the tile of a busy section, to a fenced tile, or to no memory, is a dead letter and changes no memory. An access is judged by the region in which it starts (log 92, the model's reading). -/
def Obligations.WindowAccesses : Prop :=
  ∀ (s : State) (off : BitVec 38) (n ltn o c : Nat) (data : List Byte),
    let a := s.reg oBar2Win * 2 ^ 36 + off.toNat
    let x := s.tileN ltn
    s.ready = true →
      (placeOf a = .scratchpad ltn o → s.fencedLtn ltn = false → o + n ≤ 0x100000 → x.sp.check o n = (c, none) →
        exec (.bar2Read off n) s = goes { s.setTileN ltn (corrected x c) with reply := .bytes (x.sp.read o n) }) ∧
      (placeOf a = .tileStore ltn o → s.fencedLtn ltn = false → Served x → o + n ≤ 0x1800000 →
        exec (.bar2Read off n) s = goes { s.setTileN ltn x with reply := .bytes (x.ts.read o n) }) ∧
      (placeOf a = .scratchpad ltn o ∨ placeOf a = .tileStore ltn o → s.fencedLtn ltn = true →
        exec (.bar2Read off n) s = goes { (s.deadLetter 8 5 false a (clusterOf ltn) n).netCount (clusterOf ltn) 3 1 with reply := .unsupported }) ∧
      (placeOf a = .hbm → a + n ≤ hbmBase + hbmSize → s.hbmBadUnit a n = none → exec (.bar2Read off n) s = goes { s with reply := .bytes (s.hbm.readBytes a n) }) ∧
      (placeOf a = .reserved → exec (.bar2Read off n) s = goes { s.deadLetter 2 0 false a Config.requesterId n with reply := .unsupported }) ∧
      (placeOf a = .unmapped → exec (.bar2Read off n) s = goes { s.deadLetter 1 0 false a Config.requesterId n with reply := .unsupported }) ∧
      (s.repair.failed = false → data ≠ [] →
        (placeOf a = .scratchpad ltn o → s.tileBusy ltn = false → s.fencedLtn ltn = false → o + data.length ≤ 0x100000 → x.sp.checkPartial o data.length = (c, none) →
          ∃ m, exec (.bar2Write off data) s = goes (s.setTileN ltn { corrected x c with sp := m }) ∧ Wrote x.sp m o data) ∧
        (placeOf a = .tileStore ltn o → s.tileBusy ltn = false → s.fencedLtn ltn = false → x.meetsCurrent o data.length = false → Served x → o + data.length ≤ 0x1800000 →
          ∃ m, exec (.bar2Write off data) s = goes (s.setTileN ltn { x with ts := m }) ∧ WroteTs x.ts m o data) ∧
        (placeOf a = .hbm → a + data.length ≤ hbmBase + hbmSize → (∀ k, k < 16 → ((s.sectN k).busy = true → (s.sectN k).rowWordHit a data.length = false) ∧
            s.maskHits (s.sectN k) a data.length = [] ∧ (s.sectN k).shuffleHit a data.length = false) →
          exec (.bar2Write off data) s = goes (s.hbmWrite a data)) ∧
        (placeOf a = .scratchpad ltn o ∨ placeOf a = .tileStore ltn o → s.tileBusy ltn = true →
          exec (.bar2Write off data) s = goes (s.deadLetter 3 0 true a Config.requesterId data.length)) ∧
        (placeOf a = .scratchpad ltn o ∨ placeOf a = .tileStore ltn o → s.tileBusy ltn = false → s.fencedLtn ltn = true →
          exec (.bar2Write off data) s = goes ((s.deadLetter 8 5 true a (clusterOf ltn) data.length).netCount (clusterOf ltn) 3 1)) ∧
        (placeOf a = .reserved → exec (.bar2Write off data) s = goes (s.deadLetter 2 0 true a Config.requesterId data.length)) ∧
        (placeOf a = .unmapped → exec (.bar2Write off data) s = goes (s.deadLetter 1 0 true a Config.requesterId data.length)))

/-- R41, R203, R290, R349: the reset of a FAULTED section of a chip in service: the section is IDLE, its tiles have no fault, their scratchpads read as zeros, their queues are empty, OPEN version ranges are OLD with the stamp they had; tile stores keep their contents, and so do other sections. A section that is not FAULTED refuses it: REFUSED reads 1 and nothing else changes. -/
def Obligations.SectionReset : Prop :=
  ∀ (s : State) (k : SectId) (v : Word),
    let n := k.toNat
    let x := s.sectN n
    s.ready = true → v.toNat % 4 = 1 → NoLateSeal s →
      (x.phase = .faulted → s.repair.failed = false → x.sealPend = false → x.sealNext = false → x.run = none → s.announced n = 0 →
        ∃ t, exec (.sectionReset k v []) s = goes t ∧ (t.sectN n).phase = .idle ∧ (t.sectN n).programs = x.programs ∧ (t.sectN n).postmark = x.postmark ∧
          (∀ i ∈ s.ltns n, (t.tileN i).fault = none ∧ (t.tileN i).seq.status = .stopped ∧ (t.tileN i).queues = Vector.replicate 8 [] ∧
            (∀ a, (t.tileN i).sp.byte a = 0) ∧ (t.tileN i).ts = (s.tileN i).ts.stopTurns ∧ (t.tileN i).ranges = (s.tileN i).ranges.map fun r =>
              if r.st = .open then { r with st := .old, stamp := r.before, rows := [] } else r) ∧
          (∀ i, i ∉ s.ltns n → t.tileN i = s.tileN i) ∧ (∀ j, j < 16 → j ≠ n → t.sectN j = s.sectN j) ∧ t.hbm = s.hbm ∧ t.regs = s.regs) ∧
      (x.phase ≠ .faulted → exec (.sectionReset k v []) s = goes (s.setReg (oSect n + sReset) (s.reg (oSect n + sReset) ||| 2)))

/-- R335, R414, R415, R482, R483: the PCIe configuration ports with the MSI-X table and pending bits of BAR4, the SMBus port at its strapped address with and without the packet error code, and the JTAG port, whose EXTEST_PULSE and EXTEST_TRAIN drive the PCIe and Xagon lanes alone. INTERNAL_DEBUG acts as BYPASS while DBG_OPEN is clear; with DBG_OPEN set the spec does not say what it does and the model stops. The model's choices: PCIE_DEGRADED without items at the end of training (log 112), JTAG in every power state (log 114), one byte per pin sampled (log 115), the places of the configuration registers (log 98), the error code of SMBus (log 224), what TDO is left at (log 225). -/
def Obligations.PortCommands : Prop :=
  ∀ (s : State) (addr : BitVec 7) (code : Byte) (tail : SmbusTail) (data : Byte) (pins cells : List Bool) (op width rate : Nat) (reg : BitVec 10) (o : BitVec 13) (v : Word),
    let tap := fun (s : State) (mode : Nat) (b : List Bool) (out : Option Bool) (r : Reply) => goes { s with phys := { s.phys with extest := mode, boundary := b, tdo := out }, reply := r }
    let lanes := cells.zipIdx.map fun e => if Config.laneCell e.2 then e.1 else s.phys.boundary.getD e.2 false
    let word := s.pcie.bar4Word (o.toNat / 8)
    let mine := 0x64 + Config.smbAddr.toNat
    let answers := fun (x : SmbusTail) (r : Reply) => exec (.smbusReadWord { addr := addr, code := code, tail := x }) s = goes { s with reply := r }
    exec .bypass s = tap s 0 s.phys.boundary (some false) (.data 0) ∧ exec .idcode s = tap s 0 s.phys.boundary (some false) (.data 0x10D01A4B) ∧
    exec (.samplePreload pins cells) s = tap s 0 cells pins.getLast? (.bytes (pins.map fun b => if b then 1 else 0)) ∧
    exec (.extest cells) s = tap s 1 cells s.phys.boundary.getLast? s.reply ∧ exec (.extestPulse cells) s = tap s 2 lanes s.phys.boundary.getLast? s.reply ∧
    exec (.extestTrain cells) s = tap s 3 lanes s.phys.boundary.getLast? s.reply ∧
    (s.boot.dbgOpen = false → exec (.internalDebug op) s = tap s 0 s.phys.boundary (some false) (.data 0)) ∧
    (s.boot.dbgOpen = true → exec (.internalDebug op) s = .refused .internalDebug) ∧
    (s.phys.smbus = false ∨ addr.toNat ≠ mine → answers tail .notAcknowledged) ∧
    (s.phys.smbus = true → addr.toNat = mine →
      (code = 4 → answers (.read false) (.data (min s.boot.vhu 4095)) ∧
        (let w := min s.boot.vhu 4095
         answers (.read true) (.bytes (leBytes 2 w ++ leBytes 1 (smbusPec [2 * mine, 4, 2 * mine + 1, w % 256, w / 256 % 256])))) ∧
        answers (.write data) .notAcknowledged ∧ answers .stop .none) ∧
      (0x20 ≤ code.toNat → code.toNat ≤ 0x27 →
        answers (.read false) (.data (if s.boot.phase = .ready then s.phys.hbmTemp.toList.getD (code.toNat - 0x20) 0 else 0xFFFF))) ∧
      (code = 0 ∨ (6 ≤ code.toNat ∧ code.toNat < 0x10) ∨ 0x2B ≤ code.toNat → answers tail .notAcknowledged)) ∧
    (s.phys.perst = false → s.phys.powered = true →
      (∃ d, exec (.configRequest false (.register reg) v) s = goes { s with reply := .data d } ∧ (reg = 0 → d / 65536 = 0x0D01) ∧ (reg = 2 → d / 2 ^ 24 = 0x12)) ∧
      (reg.toNat ≠ Config.capability .msix → exec (.configRequest true (.register reg) v) s = goes { s with pcie := { s.pcie with config := Sparse.set 0 s.pcie.config reg.toNat v } }) ∧
      (reg.toNat = Config.capability .msix → 10 ≤ reg.toNat → s.pcie.msixPending = 0 → exec (.configRequest true (.register reg) v) s = goes
        { s with pcie := { s.pcie with config := Sparse.set 0 s.pcie.config reg.toNat v, msixEnable := v.getLsbD 31, msixMask := v.getLsbD 30 } }) ∧
      (s.ready = false → exec (.configRequest true (.bar4 o) v) s = goes s ∧ exec (.configRequest false (.bar4 o) v) s = goes { s with reply := .unsupported }) ∧
      (s.ready = true →
        exec (.configRequest false (.bar4 o) v) s = goes { s with reply := .data (if o.toNat % 8 < 4 then word.toNat % 2 ^ 32 else word.toNat / 2 ^ 32) } ∧
        (0x400 ≤ o.toNat → exec (.configRequest true (.bar4 o) v) s = goes s) ∧
        (o.toNat < 0x400 → s.pcie.msixPending = 0 → ∃ p, exec (.configRequest true (.bar4 o) v) s = goes { s with pcie := p } ∧
          p.config = s.pcie.config ∧ p.msixPending = 0 ∧ p.msixEnable = s.pcie.msixEnable ∧ p.msixMask = s.pcie.msixMask ∧
          p.bar4Word (o.toNat / 8) = BitVec.ofNat 64 (if o.toNat % 8 < 4 then word.toNat / 2 ^ 32 * 2 ^ 32 + v.toNat else word.toNat % 2 ^ 32 + 2 ^ 32 * v.toNat) ∧
          ∀ i, i ≠ o.toNat / 8 → p.bar4Word i = s.pcie.bar4Word i)) ∧
      (let t := { s with pcie := { s.pcie with trained := true, width := width, rate := rate } }
       exec (.pcieTrainingComplete width rate) s = goes (if width ∈ [4, 8, 16] ∧ rate ∈ [32, 64, 128] then t else t.event 0x0605 0xFF [])))

/-- R302, R311-R313, R322-R324, R329, R333: the decode pipelines. A descriptor that is not refused, with a profile in the INGEST partition that HBM can correct, is taken with what the LENGTH bytes of its chunk decode to; a refused one is reported, counted and passed over. A tubelet goes into the slot of its sequence number once that is free; one whose number HEAD has passed is not written; a slot staged before stops its section, and the parcel is cut off with the head before its descriptor (log 165). That one HEAD has passed is not written (log 166) and the item ring of an ingest event is the pipeline's number (log 85) are the model's readings. A descriptor whose profile breaks its rules is refused with reason 4, after the dead letter of a profile outside INGEST or the event of one that HBM cannot correct. A wait that lasts is reported once. -/
def Obligations.IngestPipelines : Prop :=
  ∀ (s : State) (n : BitVec 5) (desc : List Byte) (chunk : Option (List Byte)) (k : SectId),
    let p := n.toNat
    let r := 16 + p
    let prof := s.profile (igProfile desc)
    let why := s.ingestRefusal desc prof
    let total := igFrames desc / pfT prof * patches prof
    (s.ringOn r = true → (s.ring r).head ≠ (s.ring r).tail → (s.pipe p).desc = none →
      (why = 0 → s.profileBad (igProfile desc) = none → total ≠ 0 → ∃ t, exec (.ingestDescriptor n desc chunk) s = goes t ∧ (t.pipe p).desc = some desc ∧
        (t.pipe p).profile = prof ∧ (t.pipe p).done = 0 ∧ (t.pipe p).total = total ∧
        (t.pipe p).pics = keptPics prof (igCodec desc) (igSkip desc) (igD desc) (igPhase desc) (igFrames desc)
          (chunk.map fun c => c.take (igLength desc)) ∧
        (∃ q ∈ (t.sectN (igSect desc)).parcels, q.parcel = igParcel desc ∧ q.ring = p ∧ q.first = igFirst desc ∧ q.count = total) ∧
        (∀ m, m ≠ p → t.pipe m = s.pipe m) ∧ t.rings = s.rings ∧ t.hbm = s.hbm) ∧
      (why ≠ 0 → why ≠ 4 → exec (.ingestDescriptor n desc chunk) s = goes
        (((s.event 0x0501 (igSect desc) (items [p, (s.ring r).head, why])).ingestCount p 4 1).advanceHead r 1)) ∧
      (why = 4 →
        let i := igProfile desc
        let v := if s.profileReach i = false then s.deadLetter 9 3 false (s.profileAddr i) p 128 else match s.profileBad i with
          | some u => s.event 0x0A07 0xFF (leBytes 8 (64 * u))
          | none => s
        exec (.ingestDescriptor n desc chunk) s = goes (((v.event 0x0501 (igSect desc) (items [p, (s.ring r).head, 4])).ingestCount p 4 1).advanceHead r 1))) ∧
    (∀ d, (s.pipe p).desc = some d →
      let x := s.pipe p
      let y := s.sectN (igSect d)
      let seq := igFirst d + x.done
      let qt := s.queueQt (igSect d)
      let a := s.slotAddr (igSect d) seq
      let sb := s.queueSb (igSect d)
      qt ≠ 0 → x.cut = false →
        (y.head + qt ≤ seq → exec (.tubeletStage n) s = goes s) ∧
        (seq < y.head → x.done + 1 ≠ x.total → exec (.tubeletStage n) s = goes (s.setPipe p { x with done := x.done + 1 })) ∧
        (y.head ≤ seq → seq < y.head + qt → s.isStaged (igSect d) seq = false → ∃ t, exec (.tubeletStage n) s = goes t ∧
          Sparse.get 0 (t.sectN (igSect d)).staged (seq % qt) = seq + 1 ∧ (t.sectN (igSect d)).head = y.head ∧
          (∀ i, i < sb → t.hbm.read (a + i) = (padTo sb (tubeletSlot x.profile d p x.pics x.done)).getD i 0) ∧ (∀ o, o < a ∨ a + sb ≤ o → t.hbm.read o = s.hbm.read o) ∧
          (x.done + 1 ≠ x.total → t.pipe p = { x with done := x.done + 1, damaged := x.damaged + boolNat (tubeletDamaged x.profile x.pics x.done) }) ∧
          (x.done + 1 = x.total → t.pipe p = {})) ∧
        (y.head ≤ seq → seq < y.head + qt → s.isStaged (igSect d) seq = true → y.phase ≠ .off → ∃ t, exec (.tubeletStage n) s = goes t ∧
          (t.sectN (igSect d)).phase = .faulted ∧ t.pipe p = { x with cut := true } ∧ (t.ring r).head = (s.ring r).head ∧ t.hbm = s.hbm)) ∧
    (∀ record, s.ingestLate k.toNat = some record → (s.sectN k.toNat).stalled = false → s.reg oStall % 65536 ≠ 0 →
      exec (.ingestStalled k) s = goes ((s.setSectN k.toNat { s.sectN k.toNat with waited := true, stalled := true }).event 0x0504 k.toNat (items [record])))

/-- R63, R67, R272-R276, R285, R286, R302, R441: the update dies. The next slice leaves plane U; its flits carry no error here. For a section OFF or FAULTED it is dropped; for an evaluation section, for no group of the step, or a slice not of the group, or one accepted before, it is a dead letter and the section stops; while a chain has not come to its TAIL it waits (these are the model's readings of R272, log 73); otherwise, what it reaches lying in the UPDATE partition and HBM correcting what it reads, it is accepted and treated, the first of a step counting STEPS. A root computation that converges, when the root unit comes to it (in the order of log 172), keeps its results until they are due. R277, R279: MOMENTUM and MOMENT2 on a row without row words: m, v and the master of every element of the row take the values that the rule forms, and no other byte of HBM changes. -/
def Obligations.UpdateDies : Prop :=
  (∀ (s : State) (die : BitVec 2) (m : SliceMsg) (rest : List SliceMsg),
    let d := die.toNat
    let x := s.sectN m.sect
    let u := { s with slices := s.slices.setIfInBounds d rest }
    let g := tgGroup m.target
    let n := tgSlice m.target
    (s.slices.toList.getD d [] = m :: rest → m.flips = [] →
      (x.phase = .off ∨ x.phase = .faulted → exec (.sliceIntake die) s = goes u) ∧
      (x.phase ≠ .off → x.phase ≠ .faulted → s.evalOn m.sect = true → exec (.sliceIntake die) s = goes (u.sliceDrop d m 0x0E 0x0403)) ∧
      (x.phase ≠ .off → x.phase ≠ .faulted → s.evalOn m.sect = false → x.updates = false → exec (.sliceIntake die) s = goes s) ∧
      (x.phase ≠ .off → x.phase ≠ .faulted → s.evalOn m.sect = false → x.updates = true →
        (x.group g = none ∨ x.stepValues = none → exec (.sliceIntake die) s = goes (u.sliceDrop d m 0x0E 0x0403)) ∧
        (∀ v values postmark, x.group g = some v → x.stepValues = some (values, postmark) →
          (gSlices v.desc ≤ n ∨ gDie v.desc ≠ d ∨ m.data.length ≠ 11520 → exec (.sliceIntake die) s = goes (u.sliceDrop d m 0x0E 0x0403)) ∧
          (v.prog = x.prog → gOwner v.desc = false → gDie v.desc = d → n < gSlices v.desc → m.target / 2 ^ 30 % 4 = 0 → m.data.length = 11520 →
            s.sliceEntryOk m.sect v.desc n = true → s.updReach (aSlice v.desc n) 16 = true → s.hbmBadUnit (aSlice v.desc n) 16 = none →
            (n ∈ v.slices → exec (.sliceIntake die) s = goes (u.sliceDrop d m 0x0D 0x0402)) ∧
            (n ∉ v.slices → (∀ a ∈ u.sliceAreas m.sect g v n (x.maskOf v.desc values),
                (a.2.1 = 0 ∨ u.updReach a.1 a.2.1 = true) ∧ (a.2.2 = true ∨ u.hbmBadUnit a.1 a.2.1 = none)) →
              (∀ w ∈ (sliceWrites (ctlRule (s.grpCtl m.sect g)) (48 * ctlBs (s.grpCtl m.sect g)) v.desc v.slices n).1,
                s.copyWaits m.sect (s.copyPlace v.desc w (s.openSlot m.sect g)).1 (s.copyPlace v.desc w (s.openSlot m.sect g)).2 (2304 * wBytes v.desc) = false) →
              exec (.sliceIntake die) s = goes (u.treatSlice m.sect g n v values m.data postmark (x.maskOf v.desc values))))))) ∧
    (∀ k : SectId, ∀ b : BitVec 10, ∀ v job, (s.sectN k.toNat).group b.toNat = some v → v.rootJob = some job → (s.sectN k.toNat).rootTurn b.toNat v job = true →
      let rs := job.factors.map (rootsOf (s.grpHp k.toNat b.toNat 4) (s.grpHp k.toNat b.toNat 5) (krRootIt (s.grpKron k.toNat b.toNat)))
      (∀ r ∈ rs, r ≠ none) → exec (.rootComputeDone k b) s = goes (s.setGroup k.toNat b.toNat { v with roots := v.roots.replace job { job with results := some rs } })) ∧
    (∀ k b v values, (v.scalars = none → (s.beginGroup k b v values).steps = (v.steps + 1) % 2 ^ 32 ∧ (s.beginGroup k b v values).scalars.isSome = true) ∧
      (v.scalars.isSome = true → s.beginGroup k b v values = v))) ∧
  (∀ (s : State) (postmark : Nat) (v : Group) (e : RuleEnv) (row c0 : Nat) (grads : List Word),
    let d := v.desc
    let n := grads.length
    let e0 := row * gCols d + c0
    let apart := fun (a b : Nat) => a + 4 * n ≤ b ∨ b + 4 * n ≤ a
    let out := fun (a o : Nat) => o < a ∨ a + 4 * n ≤ o
    let mu := fun (j : Nat) => s.hw (aM d e0 + 4 * j)
    let w := fun (j : Nat) => s.hw (aMaster d e0 + 4 * j)
    let g := fun (j : Nat) => grads.getD j 0
    let reach := fun (a : Nat) => s.updReach a (4 * n) = true ∧ ∀ j, j < n → s.updReach (a + 4 * j) 4 = true
    gRowWords d = false → v.rowWas = [] → apart (aM d e0) (aMaster d e0) → reach (aM d e0) → reach (aMaster d e0) →
      (let t := s.ruleRow 0 postmark v e row c0 grads
       let m' := fun (j : Nat) => ffma e.b1 (mu j) (g j)
       t.2 = v ∧ { t.1 with hbm := s.hbm } = s ∧
       (∀ j, j < n → t.1.hw (aM d e0 + 4 * j) = m' j ∧
         t.1.hw (aMaster d e0 + 4 * j) = ffma (fneg e.sc.eta) (if e.nesterov then ffma e.b1 (m' j) (g j) else m' j) (fmul (w j) e.sc.df)) ∧
       (∀ o, out (aM d e0) o → out (aMaster d e0) o → t.1.hbm.read o = s.hbm.read o)) ∧
      (reach (aV d e0) → apart (aV d e0) (aM d e0) → apart (aV d e0) (aMaster d e0) →
       let t := s.ruleRow 1 postmark v e row c0 grads
       let m' := fun (j : Nat) => ffma e.b1 (mu j) (fmul e.sc.c1 (g j))
       let v' := fun (j : Nat) => ffma e.b2 (s.hw (aV d e0 + 4 * j)) (fmul e.sc.c2 (fmul (g j) (g j)))
       t.2 = v ∧ { t.1 with hbm := s.hbm } = s ∧
       (∀ j, j < n → t.1.hw (aM d e0 + 4 * j) = m' j ∧ t.1.hw (aV d e0 + 4 * j) = v' j ∧
         t.1.hw (aMaster d e0 + 4 * j) = ffma (fneg e.sc.alpha) (fdiv (m' j) (fadd (fsqrt (fdiv (v' j) e.sc.bc2)) e.eps)) (fmul (w j) e.sc.df)) ∧
       (∀ o, out (aM d e0) o → out (aV d e0) o → out (aMaster d e0) o → t.1.hbm.read o = s.hbm.read o)))

/-- R296, R299, R300, R385: the end of a version copy puts the version into its area, starts a snapshot that waited for the host and the copies of the sections that evaluate it; the end of an evaluation copy puts the pieces of its image into the tile store; the end of a snapshot posts SNAP_DONE, for a peer once the flight with its LAST frame is acknowledged. -/
def Obligations.VersionCopies : Prop :=
  ∀ (s : State) (k : SectId),
    let n := k.toNat
    let x := s.sectN n
    (∀ v, x.copy = some v → s.inPart 3 v.area v.bytes.length = true → s.hbmBadUnit v.area v.bytes.length = none → ∃ t, exec (.versionCopyDone k) s = goes t ∧
      (∀ i, i < v.bytes.length → t.hbm.read (v.area + i) = v.bytes.getD i 0) ∧ (∀ o, o < v.area ∨ v.area + v.bytes.length ≤ o → t.hbm.read o = s.hbm.read o) ∧
      (t.sectN n).copy = none ∧ t.tiles = s.tiles ∧
      (∀ sn a, x.snap = some sn → sn.host = some a → sn.shipping = none → (t.sectN n).snap = some { sn with shipping := some v.bytes }) ∧
      (∀ e, e < 16 → s.evalOn e = true → s.evalSource e = n → ∃ b, (t.sectN e).evalCopy = some { slotB := b, postmark := v.postmark, bytes := v.bytes } ∧
        (t.sectN e).evalStamp b = v.postmark)) ∧
    (∀ c, x.evalCopy = some c → x.evalWait = none →
      (x.programs = [] → exec (.evalCopyDone k) s = goes (s.setSectN n { x with evalCopy := none })) ∧
      (∀ slot p e, x.programs = [(slot, some p)] → p.evalPieces = [e] → s.fencedLtn e.ltn = false → Served (s.tileN e.ltn) →
        let bs := ((groupOfCopy c.bytes e.group).drop e.srcOff).take e.len
        let off := if c.slotB then e.offB else e.offA
        off + bs.length ≤ 0x1800000 → ∃ m, WroteTs (s.tileN e.ltn).ts m off bs ∧
          exec (.evalCopyDone k) s = goes ((s.setTileN e.ltn { s.tileN e.ltn with ts := m }).setSectN n { x with evalCopy := none }))) ∧
    (∀ sn bs, x.snap = some sn → sn.shipping = some bs →
      (∀ a, sn.host = some a → exec (.snapDone k) s = goes (((s.setSectN n { x with snap := none }).hostWrite a bs).event 0x0409 n (items [sn.postmark]))) ∧
      (sn.host = none → (s.linkN sn.link).snapPending sn.last = true → exec (.snapDone k) s = goes s) ∧
      (sn.host = none → (s.linkN sn.link).snapPending sn.last = false → exec (.snapDone k) s = goes ((s.setSectN n { x with snap := none }).event 0x0409 n (items [sn.postmark]))))

/-- R361-R363, R367-R369: flights. A new flight carries the next FSEQ, three frames and a correct CRC in 800 bytes, sent as a control block and 24 data blocks, and stays in the replay buffer; with the buffer full a flight of NULL frames goes out that is not kept. A resend sends the flights of the replay buffer again, counted; the eighth of the oldest one retrains the link at a smaller width where that is automatic. The receiver finds a flight by the type bits of the blocks; one that is not found, or arrives damaged or out of order, is not accepted and answered with NAK (that blocks without a flight are answered so is the model's choice, log 223). One in order moves the FSEQ expected, delivers its three frames, returns credits and releases the flights that its ACK covers; the first NAK of an episode begins a resend. R379-R382, R386: the delivery of a frame. One of LVC0-4 that finds its section IDLE, FAULTED or OFF is discarded and its credit returned, one that comes before the exchange phase of its section waits in its receive buffer, and a whole message within it goes out on the chip's network; an arrival of a child is noted at the barrier; a snapshot frame puts its bytes into the receive area; a NULL frame delivers nothing. -/
def Obligations.Flights : Prop :=
  (∀ (s : State) (l : LinkId) (blocks : List (Bool × List Byte)) (corr uncorr : Nat),
    let n := l.toNat
    let x := s.linkN n
    let bytes := flightOf blocks
    let counts := (s.linkCount n 0 corr).linkCount n 1 uncorr
    let counted := counts.linkCount n 2 (boolNat (!flightCrcOk bytes))
    x.phase = .active →
      (x.resend = 0 → x.replay.length < 256 → ∃ y f, exec (.flightSend l) s = goes (s.setLinkN n y) ∧ y.phase = .active ∧ y.lanes = x.lanes ∧
        y.replay = x.replay ++ [f] ∧ f.fseq = x.fseqTx ∧ f.frames.length = 3 ∧ y.fseqTx = (x.fseqTx + 1) % 1024 ∧ (∃ b : List Byte, y.sent = flightBlocks b ∧ b.length = 800 ∧ flightCrcOk b = true ∧ flightOf y.sent = b) ∧
        y.rxq = x.rxq ∧ y.fseqRx = x.fseqRx) ∧
      (x.resend = 0 → 256 ≤ x.replay.length → ∃ b : List Byte, exec (.flightSend l) s = goes (s.setLinkN n { x with sent := flightBlocks b }) ∧
        b.length = 800 ∧ flightCrcOk b = true ∧ ∀ i, i < 3 → fieldAt b (8 * i) 8 = 7) ∧
      (∀ f r, x.resend = r + 1 → x.replay[x.replay.length - (r + 1)]? = some f →
        let y := { x with resend := r, resends := x.resends + (if r + 1 = x.replay.length then 1 else 0), sent := flightBlocks (x.flightBytes f) }
        let u := (s.setLinkN n y).linkCount n 3 1
        (r + 1 ≠ x.replay.length ∨ x.resends ≠ 7 ∨ s.autoDegrade n = false → exec (.flightSend l) s = goes u) ∧
        (r + 1 = x.replay.length → x.resends = 7 → s.autoDegrade n = true → ∃ z, exec (.flightSend l) s = goes (u.setLinkN n z) ∧
          z.phase = .retraining ∧ z.wantLanes = smallerLanes x.lanes x.good)) ∧
      (x.nakSeen = true → x.replay ≠ [] → exec (.resendTimeout l) s = goes (s.setLinkN n { x with resend := x.replay.length })) ∧
      (x.nakSeen = false ∨ x.replay = [] → exec (.resendTimeout l) s = goes s) ∧
      (flightFound blocks = false → exec (.flightReceive l blocks corr uncorr) s = goes (counts.setLinkN n { x with nakSend := true })) ∧
      (flightFound blocks = true →
        (0 < uncorr ∨ flightCrcOk bytes = false ∨ fieldAt bytes 24 3 % 1024 ≠ x.fseqRx → exec (.flightReceive l blocks corr uncorr) s = goes (counted.setLinkN n { x with nakSend := true })) ∧
        (uncorr = 0 → flightCrcOk bytes = true → fieldAt bytes 24 3 % 1024 = x.fseqRx →
          let nak := fieldAt bytes 24 3 / 2 ^ 20 % 2
          let ack := fieldAt bytes 24 3 / 2 ^ 10 % 1024
          let v := fieldAt bytes 27 1 % 8
          let frame := fun (i : Nat) => ({ header := fieldAt bytes (8 * i) 8, data := (bytes.drop (32 + 256 * i)).take 256 } : Frame)
          let u := (((counted.setLinkN n { x with fseqRx := (x.fseqRx + 1) % 1024, nakSend := false }).deliver n (frame 0)).deliver n (frame 1)).deliver n (frame 2)
          let y := u.linkN n
          ∀ covered rest, y.replay = covered ++ rest →
            ((∀ f ∈ y.replay, f.fseq ≠ ack) ∧ covered = []) ∨ (∃ before f, covered = before ++ [f] ∧ f.fseq = ack ∧ ∀ g ∈ before, g.fseq ≠ ack) →
              exec (.flightReceive l blocks corr uncorr) s = goes (u.setLinkN n { y with
                credits := y.credits.setIfInBounds v (y.credits.toList.getD v 0 + fieldAt bytes 27 1 / 8)
                replay := rest
                resend := if nak = 1 ∧ y.nakSeen = false then rest.length else if covered = [] then y.resend else min y.resend rest.length
                resends := if covered = [] then y.resends else 0
                nakSeen := decide (nak = 1) })))) ∧
  (∀ (u : State) (l : LinkId) (f : Frame),
    let n := l.toNat
    let x := u.linkN n
    let v := f.header % 8
    let credited := fun (t : State) (v : Nat) => t.setLinkN n { t.linkN n with toReturn := (t.linkN n).toReturn.setIfInBounds v ((t.linkN n).toReturn.toList.getD v 0 + 1) }
    (f.header = 7 → u.deliver n f = u) ∧
    (v < 5 → (∀ w, w < 5 → x.rxq.toList.getD w [] = []) →
      (u.linkSect n = none → u.deliver n f = credited u v) ∧
      (∀ k, u.linkSect n = some k →
        let phase := (u.sectN k).phase
        (phase = .idle ∨ phase = .faulted ∨ phase = .off → u.deliver n f = credited u v) ∧
        (phase ≠ .idle → phase ≠ .faulted → phase ≠ .off → u.repair.failed = false →
          (u.inPhase (linkCluster n) = false → u.deliver n f = u.setLinkN n { x with rxq := x.rxq.setIfInBounds v [f] }) ∧
          (u.inPhase (linkCluster n) = true → u.capturing k = false → x.refused = [] → x.partials = [] → fhLast f.header = true →
            frameAllowed (u.image k).windows ((u.sectN k).exchange.getD 0) (u.windowPeer k n) f.header = true →
              u.deliver n f = credited ((u.setSectN k { u.sectN k with linkUse := addLinkUse (u.sectN k).linkUse n (fhNf f.header) 0 (frameDigest f) 0 }).launch
                (linkMess (u.image k).windows k n f.header [(64 * fhOffset f.header, f.data.take (64 * fhNf f.header))]) (linkCluster n)) v)))) ∧
    (v = 5 → f.header / 8 % 4 = 0 → ∀ k, u.linkSect n = some k → u.joined k = true → (u.sectN k).phase ≠ .off → (u.sectN k).phase ≠ .faulted →
      bitOf (spanChildren (u.sectN k).spanTable) n = true →
        let y := u.sectN k
        u.deliver n f = (credited u 5).setSectN k { y with span := { y.span with arrived := y.span.arrived ++ [(n, f.header / 2 ^ 8 % 2 ^ 16, f.header / 2 ^ 24 % 2 ^ 32)] } }) ∧
    (v = 6 → f.data.length = 256 → u.repair.failed = false →
      let at_ := 65536 * (u.reg oSnapRxBase % 2 ^ 24) + 64 * (f.header / 2 ^ 8 % 2 ^ 34)
      let len := 64 * (f.header / 2 ^ 6 % 4 + 1)
      u.snapRefused x.peerChip (64 * (f.header / 2 ^ 8 % 2 ^ 34)) len = false → u.inPart 3 at_ len = true →
        (∀ i, i < len → (u.deliver n f).hbm.read (at_ + i) = f.data.getD i 0) ∧ ∀ o, o < at_ ∨ at_ + len ≤ o → (u.deliver n f).hbm.read o = u.hbm.read o))

/-- R370-R375, R390: the states of a link. LINK_UP ends training with a LINK_STATE frame to the partner, LINK_DEGRADED a retrain, counted and posted where lanes were lost; a retrain that does not end fails the link, and LINK_OPEN = 0 makes it IDLE, each stopping the sections whose span table uses it; a link opens only with verified firmware and a chip ID, and a write that would open one otherwise is ignored but for OPEN_REFUSED; the loss of a lane, too many corrected symbols and the host make it retrain. The choice between two good pairs and the width item (log 117), the lanes a link trains on (log 118), RETRAIN on an ACTIVE link alone (log 119) and the greeting frame (log 180) are the model's readings. -/
def Obligations.LinkStates : Prop :=
  ∀ (s : State) (l peer : LinkId) (chip : BitVec 16) (lane : BitVec 2) (symbols : Nat) (v : Word),
    let n := l.toNat
    let x := s.linkN n
    let stop := fun (t : State) => ∀ k, k < 16 → (t.sectN k).phase = if (s.sectN k).phase ≠ .off ∧ spanUsed (s.sectN k).spanTable n = true then .faulted else (s.sectN k).phase
    let retrains := fun (t : State) (lanes : Nat) => (t.linkN n).phase = .retraining ∧ (t.linkN n).wantLanes = lanes ∧ ∀ j, j ≠ n → t.linkN j = s.linkN j
    let bad := x.badLanes ||| 2 ^ lane.toNat
    let u := s.setReg (oXlink n) (v.toNat &&& 0x00FFFF3C)
    let greeting : Frame := { header := 15, data := padTo 256 (leBytes 2 (s.reg oChipId) ++ leBytes 1 n ++ leBytes 1 (laneCount x.wantLanes) ++ leBytes 1 x.wantLanes) }
    (x.phase = .training → exec (.linkUp l chip peer) s = goes ((s.setLinkN n { x with
      phase := .active, lanes := x.wantLanes, peerChip := chip.toNat, peerLink := peer.toNat,
      txq := x.txq.setIfInBounds 7 (x.txq.toList.getD 7 [] ++ [greeting]) }).event
          0x0701 0xFF (items [n, laneCount x.wantLanes, chip.toNat, peer.toNat]))) ∧
    (x.phase = .retraining → x.wantLanes ≠ 0 →
      let w := s.setLinkN n { x with phase := .active, lanes := x.wantLanes, retrainBit := false, resends := 0, resend := x.replay.length, nakSeen := true }
      exec (.linkDegraded l) s = goes (if laneCount x.wantLanes < laneCount x.lanes then
        (w.linkCount n 4 1).event 0x0702 0xFF (items [n, laneCount x.wantLanes, x.wantLanes]) else w)) ∧
    (x.phase = .retraining → ∃ t, exec (.linkDown l) s = goes t ∧ (t.linkN n).phase = .failed ∧ (t.linkN n).replay = [] ∧ stop t) ∧
    (x.phase = .active → x.lanes / 2 ^ lane.toNat % 2 = 1 →
      (s.autoDegrade n = false → ∃ t, exec (.laneLoss l lane) s = goes t ∧ retrains t x.lanes) ∧
      (s.autoDegrade n = true → ∃ t, exec (.laneLoss l lane) s = goes t ∧ (t.linkN n).badLanes = bad ∧ retrains t (smallerLanes x.lanes ({ x with badLanes := bad }).good) ∧
        (x.lanes = 15 → x.badLanes = 0 → x.excluded = 0 → (t.linkN n).wantLanes = if lane.toNat < 2 then 12 else 3)) ∧
      (symbols ≤ s.linkCtl n / 256 % 65536 → exec (.laneMonitor l lane symbols) s = goes s) ∧
      (s.linkCtl n / 256 % 65536 < symbols → s.autoDegrade n = true → ∃ t, exec (.laneMonitor l lane symbols) s = goes t ∧
        retrains t (smallerLanes x.lanes ({ x with badLanes := bad }).good))) ∧
    (s.ready = true →
      (v.toNat % 4 = 1 → x.phase = .idle → s.boot.verified = true → s.reg oChipId ≠ 0xFFFF → exec (.linkOpen l v) s = goes (u.setLinkN n
        { phase := .training, isOpen := true, excluded := x.excluded, peerChip := x.peerChip, peerLink := x.peerLink
          wantLanes := widestLanes (v.toNat / 4 % 4) (15 &&& (0xF ^^^ x.excluded)) })) ∧
      (v.toNat % 4 = 1 → x.phase = .idle → s.boot.verified = false ∨ s.reg oChipId = 0xFFFF →
        exec (.linkOpen l v) s = goes (s.setReg (oXlink n + 4) (s.reg (oXlink n + 4) ||| 0x200))) ∧
      (v.toNat % 4 = 0 → x.isOpen = true → ∃ t, exec (.linkClose l v) s = goes t ∧ (t.linkN n).phase = .idle ∧ (t.linkN n).isOpen = false ∧ stop t) ∧
      (v.toNat % 4 = 3 → x.phase = .active → ∃ t, exec (.retrain l v) s = goes t ∧ (t.linkN n).retrainBit = true ∧
        retrains t (widestLanes (v.toNat / 4 % 4) (15 &&& (0xF ^^^ x.excluded)))))

/-- R391, R408, R431-R436: every reset and a loss of power keep the counter store, but that sequences of a commit that had begun complete, and leave every other memory, register, ring, section, tile and link as after reset; a PERST# and a cold reset take the link and the loops, a hot reset the link, an FLR only the function's configuration with its MSI-X registers, a device reset neither. THERMTRIP_N is held until VIO18 is removed (R489): a loss of power takes the other rails first, then VIO18 and VHU (R490, log 221). Deasserting PERST# starts the AVSBus controller. What a reset keeps of the world outside (log 100), that readings and trims return to their reset values (log 101), when COLD_RESET and DEVICE_RESET act (log 113) and how many sequences of a commit complete (log 182) are the model's choices. -/
def Obligations.ResetsKeepTheCounterStore : Prop :=
  ∀ (s : State) (v : Word),
    let kept := fun (c : Instr) (p : State → Prop) => ∃ t, exec c s = goes t ∧ t.store = s.cutStore ∧ t.posted = s.posted ∧ t.pending = s.pending ∧
      t.tiles = [] ∧ t.spares = [] ∧ t.sects = Vector.replicate 16 {} ∧ t.hbm = [] ∧ t.hbmBad = [] ∧ t.regs = {} ∧ t.rings = [] ∧ t.boot = {} ∧ t.repair = {} ∧ t.tstamp = 0 ∧
      t.msgs = [] ∧ t.nodes = [] ∧ t.slices = Vector.replicate 4 [] ∧ t.pipes = Vector.replicate 32 {} ∧ t.links = Vector.replicate 32 {} ∧ t.snapRx = none ∧ t.glbPend = false ∧ p t
    let loops := fun (t : State) => ∀ i, (t.phys.loop i).ready = (s.phys.loop i).ready
    (s.boot.commit = none → s.cutStore = s.store) ∧ (storeOk s.store → storeOk s.cutStore) ∧
    itemValue s.cutStore 0 = itemValue s.store 0 ∧ itemValue s.cutStore 1 = itemValue s.store 1 ∧
    kept .perst (fun t => t.phys.perst = true ∧ t.pcie = {} ∧ ∀ i, (t.phys.loop i).ready = false) ∧
    kept .coldReset (fun t => t.phys = { powered := true, thermtrip := s.phys.thermtrip, pufReads := s.phys.pufReads } ∧ t.pcie = {}) ∧
    kept .powerDown (fun t => t.phys = (if s.phys.powered then { vioOnly := true, thermtrip := s.phys.thermtrip, pufReads := s.phys.pufReads } else { pufReads := s.phys.pufReads }) ∧ t.pcie = {}) ∧
    kept .hotReset (fun t => t.phys.perst = s.phys.perst ∧ t.pcie = {} ∧ loops t) ∧
    kept .flr (fun t => t.phys.perst = s.phys.perst ∧ t.pcie = { trained := s.pcie.trained, width := s.pcie.width, rate := s.pcie.rate } ∧ loops t) ∧
    kept (.deviceReset v true) (fun t => t.pcie = s.pcie ∧ loops t) ∧
    (s.ready = true → v.toNat % 2 = 1 → v.toNat / 256 % 256 = 0xD1 → kept (.deviceReset v false) (fun t => t.pcie = s.pcie ∧ loops t)) ∧
    (s.ready = true → v.toNat % 2 = 0 ∨ v.toNat / 256 % 256 ≠ 0xD1 → exec (.deviceReset v false) s = goes s) ∧
    (s.phys.powered = true → s.phys.perst = true → ∃ t, exec .perstDeassert s = goes t ∧ t.phys.perst = false ∧ { t with phys := s.phys } = s ∧ t.phys.loops = s.phys.loops ∧
      (s.phys.boscReady = true → t.phys.avs = [{ rail := 0, target := 750, purpose := 0 }, { rail := 1, target := 750, purpose := 0 }] ∧
        t.phys.avsRun = true ∧ (t.phys.rail 0).commanded = 750 ∧ (t.phys.rail 1).commanded = 750)) ∧
    (s.phys.powered = true → s.phys.perst = false → s.phys.boscReady = true → exec .smbusReady s = goes { s with phys := { s.phys with smbus := true } })

/-- R418-R420, R423-R425: the clocks. BOSC starts the AVSBus controller once PERST# is high; four good windows in a row make REFCLK present, a bad one or 64 BOSC cycles without an edge make it lost, every loop coasting; the trim follows a count outside its tolerance; a loop that locks becomes READY and the source of its island, one that leaves its band coasts and is reported. That the loops' ready state ends with REFCLK (log 104) and that a ready loop is taken only while CLK_SRC.SEL is 1 (log 105) are the model's readings. -/
def Obligations.Clocks : Prop :=
  ∀ (s : State) (edges count : Nat) (island : BitVec 7),
    let p := s.phys
    let lost := (({ s with phys := { p with refclk := false, windows := 0, lostAt := some s.tstamp, loops := p.loops.map fun (l : Loop) => { l with ready := false, coasting := true } } } : State).setReg
      oClkStatus (s.reg oClkStatus ||| 8)).event 0x0901 0xFF []
    let i := island.toNat
    p.powered = true →
      (p.boscReady = false → ∃ q, exec .boscReady s = goes { s with phys := q } ∧ q.boscReady = true ∧ q.loops = p.loops ∧
        (p.perst = false → q.avs = [{ rail := 0, target := 750, purpose := 0 }, { rail := 1, target := 750, purpose := 0 }]) ∧ (p.perst = true → q = { p with boscReady := true })) ∧
      (p.boscReady = true →
        (12000 ≤ edges → edges ≤ 23000 →
          (p.refclk = true ∨ p.windows < 3 → exec (.refclkWindow edges) s = goes { s with phys := { p with windows := min 4 (p.windows + 1) } }) ∧
          (p.refclk = false → 3 ≤ p.windows → p.lostAt = none → exec (.refclkWindow edges) s = goes { s with phys := { p with windows := 4, refclk := true } }) ∧
          (∀ a, p.refclk = false → 3 ≤ p.windows → p.lostAt = some a → a ≤ s.tstamp → s.tstamp < 2 ^ 64 → exec (.refclkWindow edges) s = goes
            (({ s with phys := { p with windows := 4, refclk := true, lostAt := none } } : State).event 0x0902 0xFF (items [s.tstamp - a])))) ∧
        (edges < 12000 ∨ 23000 < edges → exec (.refclkWindow edges) s = goes (if p.refclk then lost else { s with phys := { p with windows := 0 } })) ∧
        (exec .clkLost s = goes (if p.refclk then lost else { s with phys := { p with windows := 0 } })) ∧
        (p.refclk = true → 99 * 262144 ≤ 100 * count → 100 * count ≤ 101 * 262144 → exec (.boscTrim count) s = goes s) ∧
        (p.refclk = true → 100 * count < 99 * 262144 ∨ 101 * 262144 < 100 * count → exec (.boscTrim count) s = goes { s with phys := { p with boscTrim := Config.boscTrim p.boscTrim count } })) ∧
      (p.perst = false → p.refclk = true → i < 101 → ∃ q, exec (.loopReady island) s = goes { s with phys := q } ∧ (q.loop i).ready = true ∧ (q.loop i).coasting = false ∧
        { q with loops := p.loops } = p ∧ (s.reg oClkSrc % 2 = 1 → 64 ≤ i → (q.loop i).source = .loop) ∧ (s.reg oClkSrc % 2 = 0 → (q.loop i).source = (p.loop i).source)) ∧
      (p.refclk = true → (p.loop i).ready = true → exec (.loopUnlock island) s = goes
        (({ s with phys := p.setLoop i { p.loop i with ready := false, coasting := true } } : State).event 0x0904 0xFF (items [i])))

/-- R427, R429, R484: the readings of the supply rails. A reading within 10 mV ends the wait for a TRIMS voltage and tells that a raise of a device seal has arrived; a raise that has not arrived within its time is refused with AVS_FAULT (in the order of log 109). A TRIMS voltage not reached in its time is commanded back to 0.75 V and fails the boot with ERR AVS; a boot voltage not reached in its time is noted for the next boot, and a later reading in its window still ends the wait (log 222). A reading of a VCORE rail is judged by the value commanded at that moment, which ramps (logs 107 and 220). The 1 ms reading fills the TELEM block and posts RAIL_RANGE once per excursion, and AVS_FAULT when no answer comes or Status tells a fault. R304, R415, R437, R438, R489: the readings of temperatures, of the ECS counts and of V_HU: TEMP_WARN once until every sensor is 2 degrees below the threshold, THERMTRIP_N once at 115 degrees of a compute die as long as VIO18 is in range, HBM_ECS at a rise; which sensor TEMP_WARN names (log 110) and that HBM_ECS has no items (log 111) are the model's readings. -/
def Obligations.RailsAndSensors : Prop :=
  (∀ (s : State) (rail : BitVec 1) (r : BitVec 3) (mv amp c : Nat) (status : BitVec 16) (expired : Bool) (w : AvsWait),
    let p := s.phys
    let near := mv ≤ w.target + 10 ∧ w.target ≤ mv + 10
    let k := { s with phys := { p with avsOk := true } }
    let n := r.toNat
    let at_ := fun (x : Rail) => { p with avsOk := true, avs := p.avs.filter fun y => y != w, rails := p.rails.setIfInBounds w.rail x }
    let arrived := at_ { p.rail w.rail with origin := (p.rail w.rail).commanded }
    let back := at_ { p.rail w.rail with commanded := 750, rate := 10, origin := (p.rail w.rail).momentary s.tstamp, since := s.tstamp }
    (p.avs.find? (fun w => w.rail == rail.toNat && w.purpose < 3) = some w → (∀ y ∈ p.avs, y.rail = rail.toNat → y.purpose ≠ 4) →
      (¬ near → expired = false → exec (.avsReadback rail mv status expired) s = goes k) ∧
      (w.purpose = 1 → near → exec (.avsReadback rail mv status expired) s = goes { s with phys := arrived }) ∧
      (w.purpose = 1 → ¬ near → expired = true → exec (.avsReadback rail mv status expired) s = goes
        (if s.boot.phase = .starting then ({ s with phys := back } : State).bootFail 0x0D w.rail else { s with phys := back })) ∧
      (w.purpose = 2 → near → exec (.avsReadback rail mv status expired) s = goes { s with phys := { arrived with avs := (p.avs.filter fun x => x != w) ++ [{ w with purpose := 3 }] } }) ∧
      (w.purpose = 2 → ¬ near → expired = true → exec (.avsReadback rail mv status expired) s = goes ((k.refuseDevice oPwrOp).event 0x0906 0xFF (items [w.rail, status.toNat]))) ∧
      (w.purpose = 0 → ¬ near → expired = true → exec (.avsReadback rail mv status expired) s = goes { k with phys := { k.phys with avs := p.avs.map fun x => if x = w then { w with purpose := 4 } else x }, boot := { s.boot with
        avsFailed := if w.rail ∈ s.boot.avsFailed then s.boot.avsFailed else s.boot.avsFailed ++ [w.rail] } }) ∧
      (w.purpose = 0 → near → ∃ t, exec (.avsReadback rail mv status expired) s = goes t ∧ w ∉ t.phys.avs ∧ (∀ y ∈ p.avs, y ≠ w → y ∈ t.phys.avs) ∧ t.store = s.store ∧ t.regs = s.regs ∧ t.boot = s.boot)) ∧
    (p.avs.find? (fun w => w.rail == rail.toNat && w.purpose < 3) = none → p.avs.find? (fun w => w.rail == rail.toNat && w.purpose == 4) = some w →
      (¬ near → exec (.avsReadback rail mv status expired) s = goes s) ∧
      (near → ∃ t, exec (.avsReadback rail mv status expired) s = goes t ∧ w ∉ t.phys.avs ∧ (∀ y ∈ p.avs, y ≠ w → y ∈ t.phys.avs) ∧ t.store = s.store ∧ t.regs = s.regs ∧ t.boot = s.boot)) ∧
    (p.powered = true → p.perst = false → p.boscReady = true → n < 5 →
      (exec (.railMonitor r false mv amp c status) s = goes (({ s with phys := { p with avsOk := false } } : State).event 0x0906 0xFF (items [n, status.toNat]))) ∧
      (let inside := p.inRange s.tstamp n mv = true
       let t := { s with phys := { p with avsOk := true, rails := p.rails.setIfInBounds n { p.rail n with mv := min mv 4095, amp := min amp 4095, c := min c 255, posted := !p.inRange s.tstamp n mv } } }
       let u := if inside ∨ (p.rail n).posted = true then t else t.event 0x0907 0xFF (items [n, mv])
       exec (.railMonitor r true mv amp c status) s = goes (if Config.avsFault status then u.event 0x0906 0xFF (items [n, status.toNat]) else u))) ∧
    (p.inRange s.tstamp 2 mv = true ↔ 728 ≤ mv ∧ mv ≤ 772) ∧ (p.inRange s.tstamp 3 mv = true ↔ 728 ≤ mv ∧ mv ≤ 772) ∧ (p.inRange s.tstamp 4 mv = true ↔ 882 ≤ mv ∧ mv ≤ 918) ∧
    (n < 2 → (p.inRange s.tstamp n mv = true ↔ (p.rail n).momentary s.tstamp ≤ mv + 25 ∧ mv ≤ (p.rail n).momentary s.tstamp + 25)) ∧
    ((p.rail n).origin = (p.rail n).commanded → (p.rail n).momentary s.tstamp = (p.rail n).commanded)) ∧
  (∀ (s : State) (temps stackTemps counts : List Nat) (mv : Nat) (sensor : BitVec 6) (c : Nat),
    let p := s.phys
    let limit := s.reg oPwrTwarn % 128
    let seen := { p with temps := Vector.ofFn fun (i : Fin 76) => min 255 (temps.getD i.val 0) }
    let trip := ({ s with phys := { p with thermtrip := true } } : State).event 0x0909 0xFF (items [sensor.toNat])
    (c < 115 ∨ (p.powered = false ∧ p.vioOnly = false) → exec (.thermtripN sensor c) s = goes s) ∧
    (115 ≤ c → p.powered = true ∨ p.vioOnly = true → exec (.thermtripN sensor c) s = goes (if p.thermtrip then s else trip)) ∧
    (p.powered = true → p.boscReady = true →
      (temps.length = 76 →
        ((∀ r ∈ temps, r + 2 ≤ limit ∧ r < 115) → exec (.tempSample temps) s = goes { s with phys := { seen with warned := false } }) ∧
        ((∃ r ∈ temps, limit < r) → (∀ r ∈ temps, r < 115) → p.warned = true → exec (.tempSample temps) s = goes { s with phys := seen }) ∧
        (∀ i, i < 76 → (∀ j, j < i → temps.getD j 0 ≤ limit) → limit < temps.getD i 0 → (∀ r ∈ temps, r < 115) → p.warned = false →
          exec (.tempSample temps) s = goes (({ s with phys := { seen with warned := true } } : State).event 0x0908 0xFF (items [i, temps.getD i 0])))) ∧
      (exec (.hbmTempSample stackTemps) s = goes { s with phys := { p with hbmTemp := Vector.ofFn fun (i : Fin 8) => min 255 (stackTemps.getD i.val 0) } }) ∧
      (∃ m, (∀ i, i < counts.length → Sparse.get 0 m i = min 0xFFFFFF (counts.getD i 0)) ∧
        exec (.hbmEcs counts) s = goes (let t := ({ s with phys := { p with ecs := m } } : State)
          if ∃ i, i < counts.length ∧ Sparse.get 0 p.ecs i < min 0xFFFFFF (counts.getD i 0) then t.event 0x040A 0xFF [] else t)) ∧
      exec (.vHuMeasure mv) s = goes { s with boot := { s.boot with vhu := mv, vhuMeasured := true } }))

/-- R393-R397, R406, R409: the letterbox. With BOSC ready it takes the PUF start-up values and waits. GO takes addresses and lengths in WAITING or FAILED; a failed read or the first failing check ends in FAILED with its ERR and ITEM and the staging area cleared; with every check passed the body is staged, EPOCH is written one higher and the boot is STARTING, or waits while V_HU is below 3.0 V, 200 rechecks at most. The end of STARTING clears the staging area and makes the device READY; a training failure fails the chip. -/
def Obligations.Letterbox : Prop :=
  ∀ (s : State) (result : FetchResult) (mv : Nat),
    let b := s.boot
    let measured := fun (t : State) => ({ t with boot := { t.boot with vhu := mv, vhuMeasured := true } } : State)
    let starts := fun (r : Host.Outcome State Fault Refusal) => ∃ t, r = goes t ∧ t.boot.phase = .starting ∧ t.boot.verified = true ∧ t.boot.holdup = none ∧ t.boot.err = b.err ∧
      itemValue t.store 1 = (itemValue s.store 1 + 1) % 2 ^ 64 ∧ t.boot.epoch = itemValue t.store 1 ∧ (∀ i, i < 18 → i ≠ 1 → itemValue t.store i = itemValue s.store i)
    (∀ err item, (s.bootFail err item).boot = { b with
        phase := .failed, err := err, item := item, holdup := none, staged := 0, avsFailed := if err = 0x0D then [] else b.avsFailed } ∧
      { s.bootFail err item with boot := b, hbm := s.hbm } = s ∧
      ∀ o, (s.bootFail err item).hbm.read o = if hbmBase ≤ o ∧ o < hbmBase + b.staged then 0 else s.hbm.read o) ∧
    (s.phys.powered = true → s.phys.perst = false → s.phys.boscReady = true → b.phase = .reset → exec .letterboxReady s = goes { s with
      boot := { b with phase := .waiting, puf := padTo 16384 (Config.pufStartup s.phys.pufReads) }, phys := { s.phys with pufReads := s.phys.pufReads + 1 } }) ∧
    (b.phase = .waiting ∨ b.phase = .failed → exec .go s = goes { s with boot := { b with
      phase := .fetching, err := 0, item := 0, holdup := none, bundleAddr := s.reg oBundleLo + 2 ^ 32 * s.reg oBundleHi, bundleLen := s.reg oBundleLen
      recordAddr := s.reg oRecordLo + 2 ^ 32 * s.reg oRecordHi, recordLen := s.reg oRecordLen } }) ∧
    (b.phase ≠ .waiting → b.phase ≠ .failed → exec .go s = goes s) ∧
    (b.avsFailed = [] → s.fetchError .noManifest = some (1, 0) ∧
      (∀ bundle, (∀ e ∈ s.manifestErrors (b.splitFetch bundle []), e = none) → s.fetchError (.noRecord bundle) = some (1, 1)) ∧
      (∀ bundle record, (∀ e ∈ s.manifestErrors (b.splitFetch bundle record) ++ s.recordErrors (b.splitFetch bundle record), e = none) →
        s.fetchError (.noBody bundle record) = some (1, 2))) ∧
    (b.phase = .fetching → b.holdup = none →
      (∀ e, s.fetchError result = some e → exec (.fetchDone result mv) s = goes (s.bootFail e.1 e.2)) ∧
      (∀ bundle record, result = .fetched bundle record →
        let f := b.splitFetch bundle record
        let t := (s.stage f.body).keepFetched f
        s.fetchError result = s.bootError f ∧
        (s.bootError f = none → mv < 3000 → exec (.fetchDone result mv) s = goes { measured t with boot := { (measured t).boot with holdup := some 0 } }) ∧
        (s.bootError f = none → 3000 ≤ mv → itemGen s.store 1 < 2 ^ 32 - 1 → starts (exec (.fetchDone result mv) s)))) ∧
    (∀ n, b.phase = .fetching → b.holdup = some n →
      (mv < 3000 → n < 199 → exec (.holdupRecheck mv) s = goes { measured s with boot := { (measured s).boot with holdup := some (n + 1) } }) ∧
      (mv < 3000 → 199 ≤ n → exec (.holdupRecheck mv) s = goes ((measured s).bootFail 9 0)) ∧
      (3000 ≤ mv → itemGen s.store 1 < 2 ^ 32 - 1 → starts (exec (.holdupRecheck mv) s))) ∧
    (b.phase = .starting →
      (∀ d : BitVec 2, exec (.startingDone (some (.ucie d))) s = goes ((s.failChip 2 d.toNat).bootFail 0x0C d.toNat)) ∧
      (∀ k : BitVec 3, exec (.startingDone (some (.hbm k))) s = goes ((s.failChip 4 k.toNat).bootFail 0x0C (k.toNat / 2))) ∧
      ((∀ w ∈ s.phys.avs, w.purpose ≠ 1) → exec (.startingDone none) s = goes (if s.identityOk b.record then
        { s.clearStage with boot := { s.clearStage.boot with phase := .ready } } else s.bootFail 8 1)))

/-- R396, R397, R400-R405, R410: what passes the checks: the key is the one whose hash the ROM holds, both signatures verify, the body has the signed tree root, the record names the same root key and the device's secret, and no version lies below its counter. The first check that fails decides, in the order of log 135: the lowest failed rail (log 226) before the key, the key before the signature. -/
def Obligations.BootChecks : Prop :=
  ∀ (s : State) (f : Fetched),
    let pk := rootPk f.manifest
    (s.bootError f = none → s.boot.avsFailed = [] ∧ shake256 pk = Config.romKeyHash ∧ xmssVerify pk f.manifest f.manifestSig = true ∧
      xmssVerify pk f.record f.recordSig = true ∧ rootPk f.record = pk ∧ shake256 (2 :: s.bootSecret f.record) = (f.record.drop 32).take 32 ∧
      treeRoot (mfBlocks f.manifest) f.body = (f.manifest.drop 32).take 32 ∧ s.rolledBack (fieldAt f.manifest 16 1) (fieldAt f.manifest 12 4) = false ∧
      s.rolledBack 15 (fieldAt f.record 24 4) = false ∧ (∀ e ∈ mfEntries f.manifest, s.rolledBack (meCounter e) (meVersion e) = false) ∧
      (∀ i, i < 18 → (currentCopy s.store i).isSome = true)) ∧
    (∀ r, s.boot.avsFailed.min? = some r → s.bootError f = some (0x0D, r)) ∧
    (s.boot.avsFailed = [] → shake256 pk ≠ Config.romKeyHash → s.bootError f = some (3, 0)) ∧
    (s.boot.avsFailed = [] → shake256 pk = Config.romKeyHash → xmssVerify pk f.manifest f.manifestSig = false → s.bootError f = some (4, 0)) ∧
    (∀ c v, s.rolledBack c v = true ↔ c ≠ 0xFF ∧ v < s.minver c)

/-- R407, R408: a write sequence with V_HU at 3.0 V or more gives its item the new value and leaves every other item alone; below, it writes nothing; either way an item that had a valid copy has one. R410, R414: COMMIT takes the counters below the smallest VERSION that names them; its end raises each of them by a write sequence and posts COMMIT_DONE with the mask of those raised, or, where V_HU does not allow a sequence, the first or a later one, keeps the counters already raised and posts HOLDUP_LOW alone. DBG_OPEN is set once and posted. -/
def Obligations.CounterStoreWrites : Prop :=
  (∀ (s : State) (i value mv : Nat),
    let r := s.writeSequence i value mv
    { r.1 with store := s.store, boot := s.boot } = s ∧ r.1.boot = { s.boot with vhu := mv, vhuMeasured := true } ∧ (r.2 = true ↔ 3000 ≤ mv) ∧
    (mv < 3000 → r.1.store = s.store) ∧
    (3000 ≤ mv → (i < 18 → itemGen s.store i < 2 ^ 32 - 1 → itemValue r.1.store i = value) ∧ (∀ j, j < 18 → j ≠ i → itemValue r.1.store j = itemValue s.store j)) ∧
    (∀ j, j < 18 → (currentCopy s.store j).isSome = true → (currentCopy r.1.store j).isSome = true)) ∧
  (∀ (s : State) (mvs : List Nat),
    let b := s.boot
    (s.ready = true → b.commit = none → exec .commit s = goes { s with boot := { b with commit := some (s.raisable, 0) } }) ∧
    (s.ready = false ∨ b.commit ≠ none → exec .commit s = goes s) ∧
    (∀ c v, (c, v) ∈ s.raisable ↔ c < 16 ∧ b.smallest c = some v ∧ s.minver c < v) ∧
    (∀ raised rest mask, b.commit = some (raised ++ rest, mask) → mvs.length = (raised ++ rest).length → ((raised ++ rest).map (·.1)).Nodup →
      (∀ e ∈ raised ++ rest, e.1 < 16 ∧ itemGen s.store (2 + e.1) < 2 ^ 32 - 1) →
      (∀ mv ∈ mvs.take raised.length, 3000 ≤ mv) → rest = [] ∨ mvs.getD raised.length 0 < 3000 →
        ∃ u : State, { u with store := s.store, boot := s.boot } = s ∧ { u.boot with vhu := b.vhu, vhuMeasured := b.vhuMeasured } = { b with commit := none } ∧
          exec (.commitDone mvs) s = goes (if rest = [] then u.event 0x0804 0xFF (items [raised.foldl (fun m e => m + 2 ^ e.1) mask])
            else u.event 0x0801 0xFF (items [2, mvs.getD raised.length 0])) ∧
          (∀ e ∈ raised, itemValue u.store (2 + e.1) = e.2) ∧ (∀ i, i < 18 → (∀ e ∈ raised, i ≠ 2 + e.1) → itemValue u.store i = itemValue s.store i)) ∧
    (s.ready = true → exec .dbgOpen s = goes (if b.dbgOpen then s else ({ s with boot := { b with dbgOpen := true } } : State).event 0x0805 0xFF [])))

/-- R408, R411-R413: the DOE mailbox. The write sequences of a commit requested before run first. A quote is answered only after LEAF has been raised, and it is signed with the leaf it was raised from; one that is aborted after that is not answered and its leaf stays used; with no leaf left, or V_HU too low, none is answered. A certificate is that of the record. A malformed request is refused, and so is one outside READY, in the order of log 139; the layout of a discovery answer is that of log 140 (PRESUMED). -/
def Obligations.Franking : Prop :=
  ∀ (s : State) (request : List Byte) (mv : Nat) (index : Byte),
    let i := itemValue s.store 0
    let answer := fun (status : Byte) (data : List Byte) => (Reply.bytes (status :: 0 :: 0 :: 0 :: data))
    let nonce := (request.drop 4).take 32
    let body := s.quoteBody nonce i
    let k := s.bootSecret s.boot.record
    let pk := idPk s.boot.record
    let quoted := exec (.getQuote request mv) s
    (index = 0 → exec (.doeDiscovery index) s = goes { s with reply := .data 0x01000001 }) ∧
    (index = 1 → ∃ d, exec (.doeDiscovery index) s = goes { s with reply := .data d } ∧ d % 2 ^ 16 = Config.pcieVendor.toNat) ∧
    (2 ≤ index.toNat → exec (.doeDiscovery index) s = goes { s with reply := .data 0xFFFF }) ∧
    (fieldAt request 1 3 ≠ 0 ∨ (fieldAt request 0 1 ≠ 1 ∧ fieldAt request 0 1 ≠ 2) →
      quoted = goes { s with reply := answer 4 [] } ∧ exec (.getCert request) s = goes { s with reply := answer 4 [] }) ∧
    (fieldAt request 1 3 = 0 →
      (fieldAt request 0 1 = 2 → s.ready = true → exec (.getCert request) s = goes { s with reply := answer 0 (recordItem s.boot.record 4) }) ∧
      (fieldAt request 0 1 = 1 ∨ fieldAt request 0 1 = 2 → s.ready = false → quoted = goes { s with reply := answer 1 [] }) ∧
      (fieldAt request 0 1 = 1 → s.ready = true → quoted = exec (.getQuote request mv) (s.finishCommit (List.replicate 16 mv))) ∧
      (fieldAt request 0 1 = 1 → s.ready = true → s.boot.commit = none →
        (2 ^ 20 ≤ i → s.boot.exhaustedPosted = true → quoted = goes { s with reply := answer 2 [] }) ∧
        (i < 2 ^ 20 → mv < 3000 → ∃ t, quoted = goes t ∧ t.reply = answer 3 [] ∧ t.store = s.store) ∧
        (i < 2 ^ 20 → 3000 ≤ mv → itemGen s.store 0 < 2 ^ 32 - 1 → ∃ t, quoted = goes t ∧ itemValue t.store 0 = i + 1 ∧
          (∀ j, j < 18 → j ≠ 0 → itemValue t.store j = itemValue s.store j) ∧
          t.reply = if Config.quoteAborted i then .none else
            answer 0 (body ++ identitySet.sign (shake256 (3 :: k)) (shake256 (4 :: k)) (pkSeed pk) (pkRoot pk) i body))))

/-- R442, R444-R448: fences, chip failure and repair. A fence of a tile whose cluster is not busy takes it out of use and its tile store is lost; a second one, or one of a busy cluster, is refused. The first failure of a shared unit stops every section and is kept. A repair needs an idle device, an HBM address and a spare row; at its end uncorrectable units of the row are zero and correct. Fences of slots beyond 32 (log 130), the section byte (log 131), the causes of a failure (log 132), the order of a repair's refusals (log 133) and that the command tells of a spare row (log 134) are the model's choices. -/
def Obligations.FencesAndRepair : Prop :=
  ∀ (s : State) (v : Word) (spare : Bool) (cause : BitVec 3) (loc : BitVec 12),
    let phys := v.toNat % 4096
    let c := phys / 64
    let a := s.pprAddr
    let u := s.setReg oPprCmd (v.toNat &&& 2)
    (s.ready = true →
      (32 < phys % 64 → exec (.faultFence v) s = goes s) ∧
      (phys % 64 ≤ 32 → s.clusterBusy c = true → exec (.faultFence v) s = goes (s.event 0x0A03 (s.sectByte c) (items [phys, 1]))) ∧
      (phys % 64 ≤ 32 → s.clusterBusy c = false → phys ∈ s.repair.fenced → exec (.faultFence v) s = goes (s.event 0x0A03 (s.sectByte c) (items [phys, 2]))) ∧
      (phys % 64 ≤ 32 → s.clusterBusy c = false → phys ∉ s.repair.fenced → ∃ t, exec (.faultFence v) s = goes t ∧ t.repair.fenced = s.repair.fenced ++ [phys] ∧ t.hbm = s.hbm ∧ t.regs = s.regs ∧
        (∀ n, s.ltnOf phys = some n → (∀ o, (t.tileN n).ts.byte o = 0) ∧ (∀ b, b < 16 → ((t.tileN n).ts.bank b).st = .off) ∧ (t.tileN n).sp = (s.tileN n).sp) ∧
        (s.ltnOf phys = none → t.tiles = s.tiles))) ∧
    (s.repair.failed = false → 1 ≤ cause.toNat → cause.toNat ≤ 5 → ∃ t, exec (.chipFailed cause loc) s = goes t ∧ t.repair = { s.repair with failed := true, cause := cause.toNat, loc := loc.toNat } ∧
      (∀ k, k < 16 → (t.sectN k).phase = if (s.sectN k).phase = .off then .off else .faulted) ∧ t.hbm = s.hbm ∧ t.store = s.store) ∧
    (s.repair.failed = true → exec (.chipFailed cause loc) s = goes s) ∧
    (s.ready = true → v.toNat % 2 = 1 → s.repair.ppr = none →
      (u.pprBusy = false → inHbm a = true → spare = true → exec (.pprGo v spare) s = goes { u with repair := { s.repair with ppr := some (a, bitOf v.toNat 1) } }) ∧
      (u.pprBusy = true → inHbm a = true → exec (.pprGo v spare) s = goes (u.event 0x0A09 0xFF (items [(u.hbmPlace a).1, (u.hbmPlace a).2, 1]))) ∧
      (u.pprBusy = false → inHbm a = true → spare = false → exec (.pprGo v spare) s = goes (u.event 0x0A09 0xFF (items [(u.hbmPlace a).1, (u.hbmPlace a).2, 2])))) ∧
    (∀ r hard, s.repair.ppr = some (r, hard) → ∃ t, exec .pprDone s = goes t ∧ t.repair = { s.repair with ppr := none } ∧
      (∀ o, t.hbm.read o = if o / 64 ∈ s.rowBad r then 0 else s.hbm.read o) ∧ (∀ w, w ∈ t.hbmBad ↔ w ∈ s.hbmBad ∧ w ∉ s.rowBad r))

/-- R40, R391, R407, R430, R467: after power-up the letterbox is in RESET, every section is OFF, no ring runs, every item of the counter store is 0 with a valid copy, PERST# is asserted, HBM and the tiles' memories list nothing and no command waits. That registers without a reset value of the spec read as 0 (log 10) and that the machine at reset is a package as shipped (log 102) are the model's choices. -/
def Obligations.ResetState : Prop :=
  State.reset.boot.phase = .reset ∧ (∀ k, k < 16 → (State.reset.sectN k).phase = .off) ∧ (∀ r, r < 67 → State.reset.ringOn r = false) ∧
  (∀ i, i < 18 → itemValue State.reset.store i = 0) ∧ storeOk State.reset.store ∧ State.reset.hbm = [] ∧ State.reset.tiles = [] ∧ State.reset.phys.perst = true ∧ State.reset.pending = [] ∧
  (∀ l, l < 32 → (State.reset.linkN l).phase = .idle) ∧ State.reset.reg oChipId = 0xFFFF

/-- Every command is answered: exec answers some next state for every command and state, which is the same state where the command's condition does not hold (log 1, the model's choice), but for an internal debug instruction while DBG_OPEN is set, whose effect R414 does not give. -/
def Obligations.OnlyInternalDebugStops : Prop :=
  ∀ (s : State) (c : Instr), (∃ t, exec c s = goes t) ∨ (∃ op, c = .internalDebug op ∧ s.boot.dbgOpen = true ∧ exec c s = .refused .internalDebug)

/-- Commands come from outside: no command puts another into the queue or takes one out of it. -/
def Obligations.CommandsKeepTheQueue : Prop :=
  ∀ (s t : State) (c : Instr), exec c s = goes t → t.pending = s.pending

/-- R407, R408: every step keeps a valid copy of every item of the counter store. -/
def Obligations.CounterStoreStaysValid : Prop :=
  ∀ s t : State, storeOk s.store → step s = goes t → storeOk t.store

/-- The table of HBM keeps its canonical form in every step. -/
def Obligations.HbmStaysCanonical : Prop :=
  ∀ s t : State, s.hbm.wf = true → step s = goes t → t.hbm.wf = true

/-- R408, R411: LEAF never decreases, so that no leaf of the identity key signs two quotes; the premise on GEN rules out the wrap of a 32-bit count that no device reaches. -/
def Obligations.LeafNeverDecreases : Prop :=
  ∀ s t : State, storeOk s.store → itemGen s.store 0 < 2 ^ 32 - 1 → step s = goes t → itemValue s.store 0 ≤ itemValue t.store 0
end

