-- ==== Sys2Proof/Laws/Sparse.lean ====
section
/-! SUPPORT. Laws/Sparse.lean: what the operations over sparse tables and memories do: read after write, every other key unchanged, the canonical form kept. -/

namespace Sys2Proof.Machine

variable {α : Type}

theorem Sparse.get_insert_same (d : α) (m : Sparse α) (a : Nat) (x : α) : Sparse.get d (Sparse.insert m a x) a = x := by
  induction m with
  | nil => simp [Sparse.insert, Sparse.get]
  | cons e m ih =>
    obtain ⟨k, v⟩ := e
    unfold Sparse.insert
    split
    · simp [Sparse.get]
    · split
      · simp [Sparse.get]
      · rename_i h1 h2; simp [Sparse.get, h2, ih]

theorem Sparse.get_insert_other (d : α) (m : Sparse α) (a b : Nat) (x : α) (h : b ≠ a) :
    Sparse.get d (Sparse.insert m a x) b = Sparse.get d m b := by
  induction m with
  | nil => simp [Sparse.insert, Sparse.get, h]
  | cons e m ih =>
    obtain ⟨k, v⟩ := e
    unfold Sparse.insert
    split
    · simp [Sparse.get, h]
    · split
      · rename_i h1 h2; subst h2; simp [Sparse.get, h]
      · simp only [Sparse.get, ih]

theorem Sparse.get_filter_same (d : α) (m : Sparse α) (a : Nat) : Sparse.get d (m.filter (fun e => e.1 != a)) a = d := by
  induction m with
  | nil => rfl
  | cons e m ih =>
    obtain ⟨k, v⟩ := e
    by_cases h : k = a
    · simp [h, ih]
    · have h' : a ≠ k := fun e => h e.symm
      simp [h, Sparse.get, h', ih]

theorem Sparse.get_filter_other (d : α) (m : Sparse α) (a b : Nat) (h : b ≠ a) :
    Sparse.get d (m.filter (fun e => e.1 != a)) b = Sparse.get d m b := by
  induction m with
  | nil => rfl
  | cons e m ih =>
    obtain ⟨k, v⟩ := e
    by_cases hk : k = a
    · subst hk; simp [Sparse.get, h, ih]
    · simp [hk, Sparse.get, ih]

variable [DecidableEq α]

/-- Read after write at the same key. -/
@[simp] theorem Sparse.get_set_same (d : α) (m : Sparse α) (a : Nat) (x : α) : Sparse.get d (Sparse.set d m a x) a = x := by
  unfold Sparse.set; split
  · rename_i h; rw [Sparse.get_filter_same, h]
  · exact Sparse.get_insert_same d m a x

/-- A write leaves every other key alone. -/
theorem Sparse.get_set_other (d : α) (m : Sparse α) (a b : Nat) (x : α) (h : b ≠ a) :
    Sparse.get d (Sparse.set d m a x) b = Sparse.get d m b := by
  unfold Sparse.set; split
  · exact Sparse.get_filter_other d m a b h
  · exact Sparse.get_insert_other d m a b x h

theorem Sparse.above_mono (d : α) (m : Sparse α) : ∀ {lo lo' : Nat}, lo' ≤ lo → Sparse.above d lo m = true → Sparse.above d lo' m = true := by
  cases m with
  | nil => intros; rfl
  | cons e m =>
    obtain ⟨k, v⟩ := e
    intro lo lo' h hm
    simp only [Sparse.above, Bool.and_eq_true, decide_eq_true_eq] at hm ⊢
    exact ⟨⟨by omega, hm.1.2⟩, hm.2⟩

theorem Sparse.above_insert (d : α) (a : Nat) (x : α) (hx : x ≠ d) (m : Sparse α) :
    ∀ {lo : Nat}, lo ≤ a → Sparse.above d lo m = true → Sparse.above d lo (Sparse.insert m a x) = true := by
  induction m with
  | nil => intro lo h _; simp [Sparse.insert, Sparse.above, h, hx]
  | cons e m ih =>
    obtain ⟨k, v⟩ := e
    intro lo h hm
    simp only [Sparse.above, Bool.and_eq_true, decide_eq_true_eq] at hm
    unfold Sparse.insert
    split
    · simp only [Sparse.above, Bool.and_eq_true, decide_eq_true_eq]
      exact ⟨⟨h, hx⟩, ⟨by omega, hm.1.2⟩, hm.2⟩
    · split
      · rename_i h1 h2; subst h2
        simp only [Sparse.above, Bool.and_eq_true, decide_eq_true_eq]
        exact ⟨⟨h, hx⟩, hm.2⟩
      · simp only [Sparse.above, Bool.and_eq_true, decide_eq_true_eq]
        exact ⟨hm.1, ih (by omega) hm.2⟩

theorem Sparse.above_filter (d : α) (p : Nat × α → Bool) (m : Sparse α) :
    ∀ {lo : Nat}, Sparse.above d lo m = true → Sparse.above d lo (m.filter p) = true := by
  induction m with
  | nil => intros; rfl
  | cons e m ih =>
    obtain ⟨k, v⟩ := e
    intro lo hm
    simp only [Sparse.above, Bool.and_eq_true, decide_eq_true_eq] at hm
    simp only [List.filter_cons]
    split
    · simp only [Sparse.above, Bool.and_eq_true, decide_eq_true_eq]
      exact ⟨hm.1, ih hm.2⟩
    · exact Sparse.above_mono d _ (by omega) (ih hm.2)

/-- A write keeps the canonical form. -/
theorem Sparse.wf_set (d : α) (m : Sparse α) (a : Nat) (x : α) (h : Sparse.wf d m = true) : Sparse.wf d (Sparse.set d m a x) = true := by
  unfold Sparse.wf Sparse.set at *
  split
  · exact Sparse.above_filter d _ m h
  · rename_i hx; exact Sparse.above_insert d a x hx m (Nat.zero_le a) h

/-- Clearing a range keeps the canonical form. -/
theorem Sparse.wf_clearRange (d : α) (m : Sparse α) (lo hi : Nat) (h : Sparse.wf d m = true) :
    Sparse.wf d (Sparse.clearRange m lo hi) = true := Sparse.above_filter d _ m h

theorem Memory.write_wf (m : Memory) (a : Nat) (b : Byte) (h : m.wf = true) : (m.write a b).wf = true := Sparse.wf_set _ m a b h

/-- Every run of writes keeps the canonical form. -/
theorem Memory.writeBytes_wf (bs : List Byte) : ∀ (m : Memory) (a : Nat), m.wf = true → (m.writeBytes a bs).wf = true := by
  induction bs with
  | nil => intro m a h; exact h
  | cons b bs ih => intro m a h; exact ih _ _ (Memory.write_wf m a b h)

/-- A byte outside the run written reads as before. -/
theorem Memory.read_writeBytes_other (bs : List Byte) : ∀ (m : Memory) (a x : Nat), (x < a ∨ a + bs.length ≤ x) →
    (m.writeBytes a bs).read x = m.read x := by
  induction bs with
  | nil => intro m a x _; rfl
  | cons b bs ih =>
    intro m a x h
    simp only [List.length_cons] at h
    rw [Memory.writeBytes, ih _ _ _ (by omega)]
    exact Sparse.get_set_other _ m a x b (by omega)

theorem Memory.writeLe_wf (m : Memory) (a n v : Nat) (h : m.wf = true) : (m.writeLe a n v).wf = true := Memory.writeBytes_wf _ m a h

end Sys2Proof.Machine
end

