-- ==== Sys2Proof/Laws/Bytes.lean ====
section
/-! SUPPORT. Laws/Bytes.lean: numbers as bytes and back, runs of memory, and the CRC of a flight that is formed. -/

namespace Sys2Proof.Machine

@[simp] theorem leBytes_length (n : Nat) : ∀ v, (leBytes n v).length = n := by
  induction n with
  | zero => intro v; rfl
  | succ n ih => intro v; simp [leBytes, ih]

@[simp] theorem padTo_length (n : Nat) (bs : List Byte) : (padTo n bs).length = n := by
  simp [padTo]; omega

/-- The number of the n bytes of v is v modulo 256^n (R3). -/
theorem leNat_leBytes (n : Nat) : ∀ v, leNat (leBytes n v) = v % 256 ^ n := by
  induction n with
  | zero => intro v; simp [leBytes, leNat, Nat.mod_one]
  | succ n ih =>
    intro v
    simp only [leBytes, leNat, ih, BitVec.toNat_ofNat]
    rw [show (256 : Nat) ^ (n + 1) = 256 * 256 ^ n by rw [Nat.pow_succ, Nat.mul_comm], Nat.mod_mul]

/-- A field of n bytes that stands behind o bytes. -/
theorem fieldAt_append (a b : List Byte) (o n v : Nat) (h : a.length = o) : fieldAt (a ++ leBytes n v ++ b) o n = v % 256 ^ n := by
  have e : ((a ++ leBytes n v ++ b).drop o).take n = leBytes n v := by
    rw [List.append_assoc, List.drop_left' h, List.take_left' (leBytes_length n v)]
  rw [fieldAt, e, leNat_leBytes]

/-- A byte of a run that a memory holds after it has been written. -/
theorem Memory.read_writeBytes (bs : List Byte) : ∀ (m : Memory) (a i : Nat), i < bs.length → (m.writeBytes a bs).read (a + i) = bs.getD i 0 := by
  induction bs with
  | nil => intro m a i h; simp at h
  | cons b bs ih =>
    intro m a i h
    cases i with
    | zero =>
      rw [Memory.writeBytes, Nat.add_zero, Memory.read_writeBytes_other _ _ _ _ (by omega)]
      simp [Memory.write, Memory.read]
    | succ i =>
      rw [Memory.writeBytes, show a + (i + 1) = a + 1 + i by omega, ih _ _ _ (by simpa using h)]
      simp

/-- A flight carries the CRC-32 of its other bytes (R362). -/
theorem flightCrcOk_of_parts (head data : List Byte) (h : head.length = 28) :
    flightCrcOk (head ++ leBytes 4 (crc32 (head ++ data)).toNat ++ data) = true := by
  have t : (head ++ leBytes 4 (crc32 (head ++ data)).toNat ++ data).take 28 = head := by
    rw [List.append_assoc, ← h, List.take_left']; rfl
  have d : (head ++ leBytes 4 (crc32 (head ++ data)).toNat ++ data).drop 32 = data := by
    apply List.drop_left'; simp [h]
  rw [flightCrcOk, t, d, fieldAt_append _ _ _ _ _ h]
  have l := (crc32 (head ++ data)).isLt
  simp [Nat.mod_eq_of_lt l]

/-- A byte sequence cut into parts of k bytes is what the parts hold one after another. -/
theorem flatMap_chunks (k : Nat) (b : List Byte) : ∀ n, (List.range n).flatMap (fun i => (b.drop (k * i)).take k) = b.take (k * n)
  | 0 => by simp
  | n + 1 => by rw [List.range_succ, List.flatMap_append, flatMap_chunks k b n, Nat.mul_succ, List.take_add]; simp

/-- A flight is found in the blocks that carry it (R361). -/
theorem flightFound_flightBlocks (b : List Byte) (h : b.length = 800) : flightFound (flightBlocks b) = true := by
  have e : (flightBlocks b).dropWhile (fun e => !e.1) = flightBlocks b := by
    simp [flightBlocks, List.range_succ_eq_map (n := 24)]
  have n : (flightBlocks b).length = 25 := by simp [flightBlocks]
  have data : (flightBlocks b).drop 1 = (List.range 24).map fun i => (false, (b.drop (32 * (i + 1))).take 32) := by
    simp [flightBlocks, List.range_succ_eq_map (n := 24)]
  simp only [flightFound, e, List.take_of_length_le (Nat.le_of_eq n), n, data]
  simp only [flightBlocks, List.all_map, List.all_eq_true, Bool.and_eq_true, Function.comp, List.mem_range, beq_iff_eq, List.length_take, List.length_drop]
  exact ⟨⟨trivial, fun _ _ => rfl⟩, fun i hi => by omega⟩

/-- The flight read from the blocks that carry it (R361). -/
theorem flightOf_flightBlocks (b : List Byte) (h : b.length = 800) : flightOf (flightBlocks b) = b := by
  have e : (flightBlocks b).dropWhile (fun e => !e.1) = flightBlocks b := by
    simp [flightBlocks, List.range_succ_eq_map (n := 24)]
  rw [flightOf, e, List.take_of_length_le (by simp [flightBlocks]), flightBlocks, List.flatMap_map]
  simpa [h] using (flatMap_chunks 32 b 25).trans (List.take_of_length_le (by omega))

/-- A flight of three frames is 800 bytes (R361). -/
theorem Link.length_flightBytes (x : Link) (f : Flight) (h : f.frames.length = 3) (d : ∀ g ∈ f.frames, g.data.length ≤ 256) : (x.flightBytes f).length = 800 := by
  unfold Link.flightBytes
  match e : f.frames, h with
  | [a, b, c], _ =>
    simp only [e, List.mem_cons, List.not_mem_nil, or_false, forall_eq_or_imp, forall_eq] at d
    simp [padTo]
    omega

/-- The bytes of a flight of three frames pass the check. -/
theorem Link.flightCrcOk_flightBytes (x : Link) (f : Flight) (h : f.frames.length = 3) : flightCrcOk (x.flightBytes f) = true := by
  apply flightCrcOk_of_parts
  match e : f.frames, h with
  | [a, b, c], _ => simp

end Sys2Proof.Machine
end

