-- ==== Sys2Proof/Laws/Boot.lean ====
section
/-! SUPPORT. Laws/Boot.lean: the checks of the boot as a whole, and what the firmware bundle splits into. -/

namespace Sys2Proof.Machine

/-- A bundle and record that pass every check pass the boot (R396). -/
theorem State.bootError_none (s : State) (f : Fetched) (avs : s.boot.avsFailed = []) (key : shake256 (rootPk f.manifest) = Config.romKeyHash)
    (sig : xmssVerify (rootPk f.manifest) f.manifest f.manifestSig = true) (form : formatItem (manifestChecks f.block s.boot.bundleLen) = none)
    (sections : sectionBad f.manifest = none) (store : storeBad s.store = none) (version : s.rolledBack (fieldAt f.manifest 16 1) (fieldAt f.manifest 12 4) = false)
    (len : f.record.length % 64 = 0 ∧ f.record ≠ []) (recordSig : xmssVerify (rootPk f.manifest) f.record f.recordSig = true)
    (recordForm : formatItem (recordChecks f.record) = none) (sameKey : rootPk f.record = rootPk f.manifest)
    (secret : shake256 (2 :: s.bootSecret f.record) = (f.record.drop 32).take 32) (recordVersion : s.rolledBack 15 (fieldAt f.record 24 4) = false)
    (root : treeRoot (mfBlocks f.manifest) f.body = (f.manifest.drop 32).take 32)
    (versions : (mfEntries f.manifest).find? (fun e => s.rolledBack (meCounter e) (meVersion e)) = none) : s.bootError f = none := by
  simp [State.bootError, State.avsErrors, State.manifestErrors, State.recordErrors, State.bodyErrors, avs, key, sig, form, sections, store, version, len.1, len.2, recordSig, recordForm, sameKey, recordVersion, root, versions]
  exact secret

/-- A string no longer than n is padded with zeros. -/
theorem padTo_eq (n : Nat) (bs : List Byte) (h : bs.length ≤ n) : padTo n bs = bs ++ fillBytes (n - bs.length) 0 :=
  List.take_of_length_le (by simp; omega)

/-- The zeros that pad a string are zeros. -/
theorem zeroRun_fill (m : List Byte) (n lo hi : Nat) (h : m.length ≤ lo) : zeroRun (m ++ fillBytes n 0) lo hi = (lo, true) := by
  have e : (m ++ fillBytes n 0).drop lo = fillBytes (n - (lo - m.length)) 0 := by
    rw [List.drop_append, List.drop_eq_nil_of_le h, fillBytes, List.drop_replicate, List.nil_append, fillBytes]
  rw [zeroRun, e, fillBytes, List.take_replicate]
  simp [allZero]

end Sys2Proof.Machine
end

