-- ==== Sys2Proof/Laws/State.lean ====
section
/-! SUPPORT. Laws/State.lean: what each update of State leaves alone, one lemma per field, and what the operations that several meanings share can do: read after write, and posting a record changes the rings and what was sent to the host, nothing else. -/

namespace Sys2Proof.Machine

/-! ### Fields that an update leaves alone -/

@[simp] theorem State.setTile_spares (s : State) (n : Ltn) (x : Tile) : (s.setTile n x).spares = s.spares := by unfold State.setTile; rfl
@[simp] theorem State.setTile_sects (s : State) (n : Ltn) (x : Tile) : (s.setTile n x).sects = s.sects := by unfold State.setTile; rfl
@[simp] theorem State.setTile_hbm (s : State) (n : Ltn) (x : Tile) : (s.setTile n x).hbm = s.hbm := by unfold State.setTile; rfl
@[simp] theorem State.setTile_hbmBad (s : State) (n : Ltn) (x : Tile) : (s.setTile n x).hbmBad = s.hbmBad := by unfold State.setTile; rfl
@[simp] theorem State.setTile_regs (s : State) (n : Ltn) (x : Tile) : (s.setTile n x).regs = s.regs := by unfold State.setTile; rfl
@[simp] theorem State.setTile_glbPend (s : State) (n : Ltn) (x : Tile) : (s.setTile n x).glbPend = s.glbPend := by unfold State.setTile; rfl
@[simp] theorem State.setTile_glbBegun (s : State) (n : Ltn) (x : Tile) : (s.setTile n x).glbBegun = s.glbBegun := by unfold State.setTile; rfl
@[simp] theorem State.setTile_glbNext (s : State) (n : Ltn) (x : Tile) : (s.setTile n x).glbNext = s.glbNext := by unfold State.setTile; rfl
@[simp] theorem State.setTile_rings (s : State) (n : Ltn) (x : Tile) : (s.setTile n x).rings = s.rings := by unfold State.setTile; rfl
@[simp] theorem State.setTile_posted (s : State) (n : Ltn) (x : Tile) : (s.setTile n x).posted = s.posted := by unfold State.setTile; rfl
@[simp] theorem State.setTile_reply (s : State) (n : Ltn) (x : Tile) : (s.setTile n x).reply = s.reply := by unfold State.setTile; rfl
@[simp] theorem State.setTile_pcie (s : State) (n : Ltn) (x : Tile) : (s.setTile n x).pcie = s.pcie := by unfold State.setTile; rfl
@[simp] theorem State.setTile_msgs (s : State) (n : Ltn) (x : Tile) : (s.setTile n x).msgs = s.msgs := by unfold State.setTile; rfl
@[simp] theorem State.setTile_nodes (s : State) (n : Ltn) (x : Tile) : (s.setTile n x).nodes = s.nodes := by unfold State.setTile; rfl
@[simp] theorem State.setTile_slices (s : State) (n : Ltn) (x : Tile) : (s.setTile n x).slices = s.slices := by unfold State.setTile; rfl
@[simp] theorem State.setTile_pipes (s : State) (n : Ltn) (x : Tile) : (s.setTile n x).pipes = s.pipes := by unfold State.setTile; rfl
@[simp] theorem State.setTile_links (s : State) (n : Ltn) (x : Tile) : (s.setTile n x).links = s.links := by unfold State.setTile; rfl
@[simp] theorem State.setTile_snapRx (s : State) (n : Ltn) (x : Tile) : (s.setTile n x).snapRx = s.snapRx := by unfold State.setTile; rfl
@[simp] theorem State.setTile_boot (s : State) (n : Ltn) (x : Tile) : (s.setTile n x).boot = s.boot := by unfold State.setTile; rfl
@[simp] theorem State.setTile_store (s : State) (n : Ltn) (x : Tile) : (s.setTile n x).store = s.store := by unfold State.setTile; rfl
@[simp] theorem State.setTile_phys (s : State) (n : Ltn) (x : Tile) : (s.setTile n x).phys = s.phys := by unfold State.setTile; rfl
@[simp] theorem State.setTile_repair (s : State) (n : Ltn) (x : Tile) : (s.setTile n x).repair = s.repair := by unfold State.setTile; rfl
@[simp] theorem State.setTile_tstamp (s : State) (n : Ltn) (x : Tile) : (s.setTile n x).tstamp = s.tstamp := by unfold State.setTile; rfl
@[simp] theorem State.setTile_pending (s : State) (n : Ltn) (x : Tile) : (s.setTile n x).pending = s.pending := by unfold State.setTile; rfl

@[simp] theorem State.setTileN_spares (s : State) (n : Nat) (x : Tile) : (s.setTileN n x).spares = s.spares := by unfold State.setTileN; rfl
@[simp] theorem State.setTileN_sects (s : State) (n : Nat) (x : Tile) : (s.setTileN n x).sects = s.sects := by unfold State.setTileN; rfl
@[simp] theorem State.setTileN_hbm (s : State) (n : Nat) (x : Tile) : (s.setTileN n x).hbm = s.hbm := by unfold State.setTileN; rfl
@[simp] theorem State.setTileN_hbmBad (s : State) (n : Nat) (x : Tile) : (s.setTileN n x).hbmBad = s.hbmBad := by unfold State.setTileN; rfl
@[simp] theorem State.setTileN_regs (s : State) (n : Nat) (x : Tile) : (s.setTileN n x).regs = s.regs := by unfold State.setTileN; rfl
@[simp] theorem State.setTileN_glbPend (s : State) (n : Nat) (x : Tile) : (s.setTileN n x).glbPend = s.glbPend := by unfold State.setTileN; rfl
@[simp] theorem State.setTileN_glbBegun (s : State) (n : Nat) (x : Tile) : (s.setTileN n x).glbBegun = s.glbBegun := by unfold State.setTileN; rfl
@[simp] theorem State.setTileN_glbNext (s : State) (n : Nat) (x : Tile) : (s.setTileN n x).glbNext = s.glbNext := by unfold State.setTileN; rfl
@[simp] theorem State.setTileN_rings (s : State) (n : Nat) (x : Tile) : (s.setTileN n x).rings = s.rings := by unfold State.setTileN; rfl
@[simp] theorem State.setTileN_posted (s : State) (n : Nat) (x : Tile) : (s.setTileN n x).posted = s.posted := by unfold State.setTileN; rfl
@[simp] theorem State.setTileN_reply (s : State) (n : Nat) (x : Tile) : (s.setTileN n x).reply = s.reply := by unfold State.setTileN; rfl
@[simp] theorem State.setTileN_pcie (s : State) (n : Nat) (x : Tile) : (s.setTileN n x).pcie = s.pcie := by unfold State.setTileN; rfl
@[simp] theorem State.setTileN_msgs (s : State) (n : Nat) (x : Tile) : (s.setTileN n x).msgs = s.msgs := by unfold State.setTileN; rfl
@[simp] theorem State.setTileN_nodes (s : State) (n : Nat) (x : Tile) : (s.setTileN n x).nodes = s.nodes := by unfold State.setTileN; rfl
@[simp] theorem State.setTileN_slices (s : State) (n : Nat) (x : Tile) : (s.setTileN n x).slices = s.slices := by unfold State.setTileN; rfl
@[simp] theorem State.setTileN_pipes (s : State) (n : Nat) (x : Tile) : (s.setTileN n x).pipes = s.pipes := by unfold State.setTileN; rfl
@[simp] theorem State.setTileN_links (s : State) (n : Nat) (x : Tile) : (s.setTileN n x).links = s.links := by unfold State.setTileN; rfl
@[simp] theorem State.setTileN_snapRx (s : State) (n : Nat) (x : Tile) : (s.setTileN n x).snapRx = s.snapRx := by unfold State.setTileN; rfl
@[simp] theorem State.setTileN_boot (s : State) (n : Nat) (x : Tile) : (s.setTileN n x).boot = s.boot := by unfold State.setTileN; rfl
@[simp] theorem State.setTileN_store (s : State) (n : Nat) (x : Tile) : (s.setTileN n x).store = s.store := by unfold State.setTileN; rfl
@[simp] theorem State.setTileN_phys (s : State) (n : Nat) (x : Tile) : (s.setTileN n x).phys = s.phys := by unfold State.setTileN; rfl
@[simp] theorem State.setTileN_repair (s : State) (n : Nat) (x : Tile) : (s.setTileN n x).repair = s.repair := by unfold State.setTileN; rfl
@[simp] theorem State.setTileN_tstamp (s : State) (n : Nat) (x : Tile) : (s.setTileN n x).tstamp = s.tstamp := by unfold State.setTileN; rfl
@[simp] theorem State.setTileN_pending (s : State) (n : Nat) (x : Tile) : (s.setTileN n x).pending = s.pending := by unfold State.setTileN; rfl

@[simp] theorem State.setSectN_tiles (s : State) (n : Nat) (x : Section) : (s.setSectN n x).tiles = s.tiles := by unfold State.setSectN; rfl
@[simp] theorem State.setSectN_spares (s : State) (n : Nat) (x : Section) : (s.setSectN n x).spares = s.spares := by unfold State.setSectN; rfl
@[simp] theorem State.setSectN_hbm (s : State) (n : Nat) (x : Section) : (s.setSectN n x).hbm = s.hbm := by unfold State.setSectN; rfl
@[simp] theorem State.setSectN_hbmBad (s : State) (n : Nat) (x : Section) : (s.setSectN n x).hbmBad = s.hbmBad := by unfold State.setSectN; rfl
@[simp] theorem State.setSectN_regs (s : State) (n : Nat) (x : Section) : (s.setSectN n x).regs = s.regs := by unfold State.setSectN; rfl
@[simp] theorem State.setSectN_glbPend (s : State) (n : Nat) (x : Section) : (s.setSectN n x).glbPend = s.glbPend := by unfold State.setSectN; rfl
@[simp] theorem State.setSectN_glbBegun (s : State) (n : Nat) (x : Section) : (s.setSectN n x).glbBegun = s.glbBegun := by unfold State.setSectN; rfl
@[simp] theorem State.setSectN_glbNext (s : State) (n : Nat) (x : Section) : (s.setSectN n x).glbNext = s.glbNext := by unfold State.setSectN; rfl
@[simp] theorem State.setSectN_rings (s : State) (n : Nat) (x : Section) : (s.setSectN n x).rings = s.rings := by unfold State.setSectN; rfl
@[simp] theorem State.setSectN_posted (s : State) (n : Nat) (x : Section) : (s.setSectN n x).posted = s.posted := by unfold State.setSectN; rfl
@[simp] theorem State.setSectN_reply (s : State) (n : Nat) (x : Section) : (s.setSectN n x).reply = s.reply := by unfold State.setSectN; rfl
@[simp] theorem State.setSectN_pcie (s : State) (n : Nat) (x : Section) : (s.setSectN n x).pcie = s.pcie := by unfold State.setSectN; rfl
@[simp] theorem State.setSectN_msgs (s : State) (n : Nat) (x : Section) : (s.setSectN n x).msgs = s.msgs := by unfold State.setSectN; rfl
@[simp] theorem State.setSectN_nodes (s : State) (n : Nat) (x : Section) : (s.setSectN n x).nodes = s.nodes := by unfold State.setSectN; rfl
@[simp] theorem State.setSectN_slices (s : State) (n : Nat) (x : Section) : (s.setSectN n x).slices = s.slices := by unfold State.setSectN; rfl
@[simp] theorem State.setSectN_pipes (s : State) (n : Nat) (x : Section) : (s.setSectN n x).pipes = s.pipes := by unfold State.setSectN; rfl
@[simp] theorem State.setSectN_links (s : State) (n : Nat) (x : Section) : (s.setSectN n x).links = s.links := by unfold State.setSectN; rfl
@[simp] theorem State.setSectN_snapRx (s : State) (n : Nat) (x : Section) : (s.setSectN n x).snapRx = s.snapRx := by unfold State.setSectN; rfl
@[simp] theorem State.setSectN_boot (s : State) (n : Nat) (x : Section) : (s.setSectN n x).boot = s.boot := by unfold State.setSectN; rfl
@[simp] theorem State.setSectN_store (s : State) (n : Nat) (x : Section) : (s.setSectN n x).store = s.store := by unfold State.setSectN; rfl
@[simp] theorem State.setSectN_phys (s : State) (n : Nat) (x : Section) : (s.setSectN n x).phys = s.phys := by unfold State.setSectN; rfl
@[simp] theorem State.setSectN_repair (s : State) (n : Nat) (x : Section) : (s.setSectN n x).repair = s.repair := by unfold State.setSectN; rfl
@[simp] theorem State.setSectN_tstamp (s : State) (n : Nat) (x : Section) : (s.setSectN n x).tstamp = s.tstamp := by unfold State.setSectN; rfl
@[simp] theorem State.setSectN_pending (s : State) (n : Nat) (x : Section) : (s.setSectN n x).pending = s.pending := by unfold State.setSectN; rfl

@[simp] theorem State.setRing_tiles (s : State) (n : Nat) (x : Ring) : (s.setRing n x).tiles = s.tiles := by unfold State.setRing; rfl
@[simp] theorem State.setRing_spares (s : State) (n : Nat) (x : Ring) : (s.setRing n x).spares = s.spares := by unfold State.setRing; rfl
@[simp] theorem State.setRing_sects (s : State) (n : Nat) (x : Ring) : (s.setRing n x).sects = s.sects := by unfold State.setRing; rfl
@[simp] theorem State.setRing_hbm (s : State) (n : Nat) (x : Ring) : (s.setRing n x).hbm = s.hbm := by unfold State.setRing; rfl
@[simp] theorem State.setRing_hbmBad (s : State) (n : Nat) (x : Ring) : (s.setRing n x).hbmBad = s.hbmBad := by unfold State.setRing; rfl
@[simp] theorem State.setRing_regs (s : State) (n : Nat) (x : Ring) : (s.setRing n x).regs = s.regs := by unfold State.setRing; rfl
@[simp] theorem State.setRing_glbPend (s : State) (n : Nat) (x : Ring) : (s.setRing n x).glbPend = s.glbPend := by unfold State.setRing; rfl
@[simp] theorem State.setRing_glbBegun (s : State) (n : Nat) (x : Ring) : (s.setRing n x).glbBegun = s.glbBegun := by unfold State.setRing; rfl
@[simp] theorem State.setRing_glbNext (s : State) (n : Nat) (x : Ring) : (s.setRing n x).glbNext = s.glbNext := by unfold State.setRing; rfl
@[simp] theorem State.setRing_posted (s : State) (n : Nat) (x : Ring) : (s.setRing n x).posted = s.posted := by unfold State.setRing; rfl
@[simp] theorem State.setRing_reply (s : State) (n : Nat) (x : Ring) : (s.setRing n x).reply = s.reply := by unfold State.setRing; rfl
@[simp] theorem State.setRing_pcie (s : State) (n : Nat) (x : Ring) : (s.setRing n x).pcie = s.pcie := by unfold State.setRing; rfl
@[simp] theorem State.setRing_msgs (s : State) (n : Nat) (x : Ring) : (s.setRing n x).msgs = s.msgs := by unfold State.setRing; rfl
@[simp] theorem State.setRing_nodes (s : State) (n : Nat) (x : Ring) : (s.setRing n x).nodes = s.nodes := by unfold State.setRing; rfl
@[simp] theorem State.setRing_slices (s : State) (n : Nat) (x : Ring) : (s.setRing n x).slices = s.slices := by unfold State.setRing; rfl
@[simp] theorem State.setRing_pipes (s : State) (n : Nat) (x : Ring) : (s.setRing n x).pipes = s.pipes := by unfold State.setRing; rfl
@[simp] theorem State.setRing_links (s : State) (n : Nat) (x : Ring) : (s.setRing n x).links = s.links := by unfold State.setRing; rfl
@[simp] theorem State.setRing_snapRx (s : State) (n : Nat) (x : Ring) : (s.setRing n x).snapRx = s.snapRx := by unfold State.setRing; rfl
@[simp] theorem State.setRing_boot (s : State) (n : Nat) (x : Ring) : (s.setRing n x).boot = s.boot := by unfold State.setRing; rfl
@[simp] theorem State.setRing_store (s : State) (n : Nat) (x : Ring) : (s.setRing n x).store = s.store := by unfold State.setRing; rfl
@[simp] theorem State.setRing_phys (s : State) (n : Nat) (x : Ring) : (s.setRing n x).phys = s.phys := by unfold State.setRing; rfl
@[simp] theorem State.setRing_repair (s : State) (n : Nat) (x : Ring) : (s.setRing n x).repair = s.repair := by unfold State.setRing; rfl
@[simp] theorem State.setRing_tstamp (s : State) (n : Nat) (x : Ring) : (s.setRing n x).tstamp = s.tstamp := by unfold State.setRing; rfl
@[simp] theorem State.setRing_pending (s : State) (n : Nat) (x : Ring) : (s.setRing n x).pending = s.pending := by unfold State.setRing; rfl

@[simp] theorem State.setLinkN_tiles (s : State) (n : Nat) (x : Link) : (s.setLinkN n x).tiles = s.tiles := by unfold State.setLinkN; rfl
@[simp] theorem State.setLinkN_spares (s : State) (n : Nat) (x : Link) : (s.setLinkN n x).spares = s.spares := by unfold State.setLinkN; rfl
@[simp] theorem State.setLinkN_sects (s : State) (n : Nat) (x : Link) : (s.setLinkN n x).sects = s.sects := by unfold State.setLinkN; rfl
@[simp] theorem State.setLinkN_hbm (s : State) (n : Nat) (x : Link) : (s.setLinkN n x).hbm = s.hbm := by unfold State.setLinkN; rfl
@[simp] theorem State.setLinkN_hbmBad (s : State) (n : Nat) (x : Link) : (s.setLinkN n x).hbmBad = s.hbmBad := by unfold State.setLinkN; rfl
@[simp] theorem State.setLinkN_regs (s : State) (n : Nat) (x : Link) : (s.setLinkN n x).regs = s.regs := by unfold State.setLinkN; rfl
@[simp] theorem State.setLinkN_glbPend (s : State) (n : Nat) (x : Link) : (s.setLinkN n x).glbPend = s.glbPend := by unfold State.setLinkN; rfl
@[simp] theorem State.setLinkN_glbBegun (s : State) (n : Nat) (x : Link) : (s.setLinkN n x).glbBegun = s.glbBegun := by unfold State.setLinkN; rfl
@[simp] theorem State.setLinkN_glbNext (s : State) (n : Nat) (x : Link) : (s.setLinkN n x).glbNext = s.glbNext := by unfold State.setLinkN; rfl
@[simp] theorem State.setLinkN_rings (s : State) (n : Nat) (x : Link) : (s.setLinkN n x).rings = s.rings := by unfold State.setLinkN; rfl
@[simp] theorem State.setLinkN_posted (s : State) (n : Nat) (x : Link) : (s.setLinkN n x).posted = s.posted := by unfold State.setLinkN; rfl
@[simp] theorem State.setLinkN_reply (s : State) (n : Nat) (x : Link) : (s.setLinkN n x).reply = s.reply := by unfold State.setLinkN; rfl
@[simp] theorem State.setLinkN_pcie (s : State) (n : Nat) (x : Link) : (s.setLinkN n x).pcie = s.pcie := by unfold State.setLinkN; rfl
@[simp] theorem State.setLinkN_msgs (s : State) (n : Nat) (x : Link) : (s.setLinkN n x).msgs = s.msgs := by unfold State.setLinkN; rfl
@[simp] theorem State.setLinkN_nodes (s : State) (n : Nat) (x : Link) : (s.setLinkN n x).nodes = s.nodes := by unfold State.setLinkN; rfl
@[simp] theorem State.setLinkN_slices (s : State) (n : Nat) (x : Link) : (s.setLinkN n x).slices = s.slices := by unfold State.setLinkN; rfl
@[simp] theorem State.setLinkN_pipes (s : State) (n : Nat) (x : Link) : (s.setLinkN n x).pipes = s.pipes := by unfold State.setLinkN; rfl
@[simp] theorem State.setLinkN_snapRx (s : State) (n : Nat) (x : Link) : (s.setLinkN n x).snapRx = s.snapRx := by unfold State.setLinkN; rfl
@[simp] theorem State.setLinkN_boot (s : State) (n : Nat) (x : Link) : (s.setLinkN n x).boot = s.boot := by unfold State.setLinkN; rfl
@[simp] theorem State.setLinkN_store (s : State) (n : Nat) (x : Link) : (s.setLinkN n x).store = s.store := by unfold State.setLinkN; rfl
@[simp] theorem State.setLinkN_phys (s : State) (n : Nat) (x : Link) : (s.setLinkN n x).phys = s.phys := by unfold State.setLinkN; rfl
@[simp] theorem State.setLinkN_repair (s : State) (n : Nat) (x : Link) : (s.setLinkN n x).repair = s.repair := by unfold State.setLinkN; rfl
@[simp] theorem State.setLinkN_tstamp (s : State) (n : Nat) (x : Link) : (s.setLinkN n x).tstamp = s.tstamp := by unfold State.setLinkN; rfl
@[simp] theorem State.setLinkN_pending (s : State) (n : Nat) (x : Link) : (s.setLinkN n x).pending = s.pending := by unfold State.setLinkN; rfl

@[simp] theorem State.hostWrite_tiles (s : State) (n : Nat) (x : List Byte) : (s.hostWrite n x).tiles = s.tiles := by unfold State.hostWrite; rfl
@[simp] theorem State.hostWrite_spares (s : State) (n : Nat) (x : List Byte) : (s.hostWrite n x).spares = s.spares := by unfold State.hostWrite; rfl
@[simp] theorem State.hostWrite_sects (s : State) (n : Nat) (x : List Byte) : (s.hostWrite n x).sects = s.sects := by unfold State.hostWrite; rfl
@[simp] theorem State.hostWrite_hbm (s : State) (n : Nat) (x : List Byte) : (s.hostWrite n x).hbm = s.hbm := by unfold State.hostWrite; rfl
@[simp] theorem State.hostWrite_hbmBad (s : State) (n : Nat) (x : List Byte) : (s.hostWrite n x).hbmBad = s.hbmBad := by unfold State.hostWrite; rfl
@[simp] theorem State.hostWrite_regs (s : State) (n : Nat) (x : List Byte) : (s.hostWrite n x).regs = s.regs := by unfold State.hostWrite; rfl
@[simp] theorem State.hostWrite_glbPend (s : State) (n : Nat) (x : List Byte) : (s.hostWrite n x).glbPend = s.glbPend := by unfold State.hostWrite; rfl
@[simp] theorem State.hostWrite_glbBegun (s : State) (n : Nat) (x : List Byte) : (s.hostWrite n x).glbBegun = s.glbBegun := by unfold State.hostWrite; rfl
@[simp] theorem State.hostWrite_glbNext (s : State) (n : Nat) (x : List Byte) : (s.hostWrite n x).glbNext = s.glbNext := by unfold State.hostWrite; rfl
@[simp] theorem State.hostWrite_rings (s : State) (n : Nat) (x : List Byte) : (s.hostWrite n x).rings = s.rings := by unfold State.hostWrite; rfl
@[simp] theorem State.hostWrite_reply (s : State) (n : Nat) (x : List Byte) : (s.hostWrite n x).reply = s.reply := by unfold State.hostWrite; rfl
@[simp] theorem State.hostWrite_pcie (s : State) (n : Nat) (x : List Byte) : (s.hostWrite n x).pcie = s.pcie := by unfold State.hostWrite; rfl
@[simp] theorem State.hostWrite_msgs (s : State) (n : Nat) (x : List Byte) : (s.hostWrite n x).msgs = s.msgs := by unfold State.hostWrite; rfl
@[simp] theorem State.hostWrite_nodes (s : State) (n : Nat) (x : List Byte) : (s.hostWrite n x).nodes = s.nodes := by unfold State.hostWrite; rfl
@[simp] theorem State.hostWrite_slices (s : State) (n : Nat) (x : List Byte) : (s.hostWrite n x).slices = s.slices := by unfold State.hostWrite; rfl
@[simp] theorem State.hostWrite_pipes (s : State) (n : Nat) (x : List Byte) : (s.hostWrite n x).pipes = s.pipes := by unfold State.hostWrite; rfl
@[simp] theorem State.hostWrite_links (s : State) (n : Nat) (x : List Byte) : (s.hostWrite n x).links = s.links := by unfold State.hostWrite; rfl
@[simp] theorem State.hostWrite_snapRx (s : State) (n : Nat) (x : List Byte) : (s.hostWrite n x).snapRx = s.snapRx := by unfold State.hostWrite; rfl
@[simp] theorem State.hostWrite_boot (s : State) (n : Nat) (x : List Byte) : (s.hostWrite n x).boot = s.boot := by unfold State.hostWrite; rfl
@[simp] theorem State.hostWrite_store (s : State) (n : Nat) (x : List Byte) : (s.hostWrite n x).store = s.store := by unfold State.hostWrite; rfl
@[simp] theorem State.hostWrite_phys (s : State) (n : Nat) (x : List Byte) : (s.hostWrite n x).phys = s.phys := by unfold State.hostWrite; rfl
@[simp] theorem State.hostWrite_repair (s : State) (n : Nat) (x : List Byte) : (s.hostWrite n x).repair = s.repair := by unfold State.hostWrite; rfl
@[simp] theorem State.hostWrite_tstamp (s : State) (n : Nat) (x : List Byte) : (s.hostWrite n x).tstamp = s.tstamp := by unfold State.hostWrite; rfl
@[simp] theorem State.hostWrite_pending (s : State) (n : Nat) (x : List Byte) : (s.hostWrite n x).pending = s.pending := by unfold State.hostWrite; rfl

@[simp] theorem State.msix_tiles (s : State) (n : Nat) : (s.msix n).tiles = s.tiles := by unfold State.msix; rfl
@[simp] theorem State.msix_spares (s : State) (n : Nat) : (s.msix n).spares = s.spares := by unfold State.msix; rfl
@[simp] theorem State.msix_sects (s : State) (n : Nat) : (s.msix n).sects = s.sects := by unfold State.msix; rfl
@[simp] theorem State.msix_hbm (s : State) (n : Nat) : (s.msix n).hbm = s.hbm := by unfold State.msix; rfl
@[simp] theorem State.msix_hbmBad (s : State) (n : Nat) : (s.msix n).hbmBad = s.hbmBad := by unfold State.msix; rfl
@[simp] theorem State.msix_regs (s : State) (n : Nat) : (s.msix n).regs = s.regs := by unfold State.msix; rfl
@[simp] theorem State.msix_glbPend (s : State) (n : Nat) : (s.msix n).glbPend = s.glbPend := by unfold State.msix; rfl
@[simp] theorem State.msix_glbBegun (s : State) (n : Nat) : (s.msix n).glbBegun = s.glbBegun := by unfold State.msix; rfl
@[simp] theorem State.msix_glbNext (s : State) (n : Nat) : (s.msix n).glbNext = s.glbNext := by unfold State.msix; rfl
@[simp] theorem State.msix_rings (s : State) (n : Nat) : (s.msix n).rings = s.rings := by unfold State.msix; rfl
@[simp] theorem State.msix_reply (s : State) (n : Nat) : (s.msix n).reply = s.reply := by unfold State.msix; rfl
@[simp] theorem State.msix_pcie (s : State) (n : Nat) : (s.msix n).pcie = s.pcie.raised n := by unfold State.msix; rfl
@[simp] theorem State.msix_msgs (s : State) (n : Nat) : (s.msix n).msgs = s.msgs := by unfold State.msix; rfl
@[simp] theorem State.msix_nodes (s : State) (n : Nat) : (s.msix n).nodes = s.nodes := by unfold State.msix; rfl
@[simp] theorem State.msix_slices (s : State) (n : Nat) : (s.msix n).slices = s.slices := by unfold State.msix; rfl
@[simp] theorem State.msix_pipes (s : State) (n : Nat) : (s.msix n).pipes = s.pipes := by unfold State.msix; rfl
@[simp] theorem State.msix_links (s : State) (n : Nat) : (s.msix n).links = s.links := by unfold State.msix; rfl
@[simp] theorem State.msix_snapRx (s : State) (n : Nat) : (s.msix n).snapRx = s.snapRx := by unfold State.msix; rfl
@[simp] theorem State.msix_boot (s : State) (n : Nat) : (s.msix n).boot = s.boot := by unfold State.msix; rfl
@[simp] theorem State.msix_store (s : State) (n : Nat) : (s.msix n).store = s.store := by unfold State.msix; rfl
@[simp] theorem State.msix_phys (s : State) (n : Nat) : (s.msix n).phys = s.phys := by unfold State.msix; rfl
@[simp] theorem State.msix_repair (s : State) (n : Nat) : (s.msix n).repair = s.repair := by unfold State.msix; rfl
@[simp] theorem State.msix_tstamp (s : State) (n : Nat) : (s.msix n).tstamp = s.tstamp := by unfold State.msix; rfl
@[simp] theorem State.msix_pending (s : State) (n : Nat) : (s.msix n).pending = s.pending := by unfold State.msix; rfl

@[simp] theorem State.setReg_tiles (s : State) (n v : Nat) : (s.setReg n v).tiles = s.tiles := by unfold State.setReg; rfl
@[simp] theorem State.setReg_spares (s : State) (n v : Nat) : (s.setReg n v).spares = s.spares := by unfold State.setReg; rfl
@[simp] theorem State.setReg_sects (s : State) (n v : Nat) : (s.setReg n v).sects = s.sects := by unfold State.setReg; rfl
@[simp] theorem State.setReg_hbm (s : State) (n v : Nat) : (s.setReg n v).hbm = s.hbm := by unfold State.setReg; rfl
@[simp] theorem State.setReg_hbmBad (s : State) (n v : Nat) : (s.setReg n v).hbmBad = s.hbmBad := by unfold State.setReg; rfl
@[simp] theorem State.setReg_glbPend (s : State) (n v : Nat) : (s.setReg n v).glbPend = s.glbPend := by unfold State.setReg; rfl
@[simp] theorem State.setReg_glbBegun (s : State) (n v : Nat) : (s.setReg n v).glbBegun = s.glbBegun := by unfold State.setReg; rfl
@[simp] theorem State.setReg_glbNext (s : State) (n v : Nat) : (s.setReg n v).glbNext = s.glbNext := by unfold State.setReg; rfl
@[simp] theorem State.setReg_rings (s : State) (n v : Nat) : (s.setReg n v).rings = s.rings := by unfold State.setReg; rfl
@[simp] theorem State.setReg_posted (s : State) (n v : Nat) : (s.setReg n v).posted = s.posted := by unfold State.setReg; rfl
@[simp] theorem State.setReg_reply (s : State) (n v : Nat) : (s.setReg n v).reply = s.reply := by unfold State.setReg; rfl
@[simp] theorem State.setReg_pcie (s : State) (n v : Nat) : (s.setReg n v).pcie = s.pcie := by unfold State.setReg; rfl
@[simp] theorem State.setReg_msgs (s : State) (n v : Nat) : (s.setReg n v).msgs = s.msgs := by unfold State.setReg; rfl
@[simp] theorem State.setReg_nodes (s : State) (n v : Nat) : (s.setReg n v).nodes = s.nodes := by unfold State.setReg; rfl
@[simp] theorem State.setReg_slices (s : State) (n v : Nat) : (s.setReg n v).slices = s.slices := by unfold State.setReg; rfl
@[simp] theorem State.setReg_pipes (s : State) (n v : Nat) : (s.setReg n v).pipes = s.pipes := by unfold State.setReg; rfl
@[simp] theorem State.setReg_links (s : State) (n v : Nat) : (s.setReg n v).links = s.links := by unfold State.setReg; rfl
@[simp] theorem State.setReg_snapRx (s : State) (n v : Nat) : (s.setReg n v).snapRx = s.snapRx := by unfold State.setReg; rfl
@[simp] theorem State.setReg_boot (s : State) (n v : Nat) : (s.setReg n v).boot = s.boot := by unfold State.setReg; rfl
@[simp] theorem State.setReg_store (s : State) (n v : Nat) : (s.setReg n v).store = s.store := by unfold State.setReg; rfl
@[simp] theorem State.setReg_phys (s : State) (n v : Nat) : (s.setReg n v).phys = s.phys := by unfold State.setReg; rfl
@[simp] theorem State.setReg_repair (s : State) (n v : Nat) : (s.setReg n v).repair = s.repair := by unfold State.setReg; rfl
@[simp] theorem State.setReg_tstamp (s : State) (n v : Nat) : (s.setReg n v).tstamp = s.tstamp := by unfold State.setReg; rfl
@[simp] theorem State.setReg_pending (s : State) (n v : Nat) : (s.setReg n v).pending = s.pending := by unfold State.setReg; rfl

@[simp] theorem State.count_tiles (s : State) (n m v : Nat) : (s.count n m v).tiles = s.tiles := by unfold State.count; rfl
@[simp] theorem State.count_spares (s : State) (n m v : Nat) : (s.count n m v).spares = s.spares := by unfold State.count; rfl
@[simp] theorem State.count_sects (s : State) (n m v : Nat) : (s.count n m v).sects = s.sects := by unfold State.count; rfl
@[simp] theorem State.count_hbm (s : State) (n m v : Nat) : (s.count n m v).hbm = s.hbm := by unfold State.count; rfl
@[simp] theorem State.count_hbmBad (s : State) (n m v : Nat) : (s.count n m v).hbmBad = s.hbmBad := by unfold State.count; rfl
@[simp] theorem State.count_glbPend (s : State) (n m v : Nat) : (s.count n m v).glbPend = s.glbPend := by unfold State.count; rfl
@[simp] theorem State.count_glbBegun (s : State) (n m v : Nat) : (s.count n m v).glbBegun = s.glbBegun := by unfold State.count; rfl
@[simp] theorem State.count_glbNext (s : State) (n m v : Nat) : (s.count n m v).glbNext = s.glbNext := by unfold State.count; rfl
@[simp] theorem State.count_rings (s : State) (n m v : Nat) : (s.count n m v).rings = s.rings := by unfold State.count; rfl
@[simp] theorem State.count_posted (s : State) (n m v : Nat) : (s.count n m v).posted = s.posted := by unfold State.count; rfl
@[simp] theorem State.count_reply (s : State) (n m v : Nat) : (s.count n m v).reply = s.reply := by unfold State.count; rfl
@[simp] theorem State.count_pcie (s : State) (n m v : Nat) : (s.count n m v).pcie = s.pcie := by unfold State.count; rfl
@[simp] theorem State.count_msgs (s : State) (n m v : Nat) : (s.count n m v).msgs = s.msgs := by unfold State.count; rfl
@[simp] theorem State.count_nodes (s : State) (n m v : Nat) : (s.count n m v).nodes = s.nodes := by unfold State.count; rfl
@[simp] theorem State.count_slices (s : State) (n m v : Nat) : (s.count n m v).slices = s.slices := by unfold State.count; rfl
@[simp] theorem State.count_pipes (s : State) (n m v : Nat) : (s.count n m v).pipes = s.pipes := by unfold State.count; rfl
@[simp] theorem State.count_links (s : State) (n m v : Nat) : (s.count n m v).links = s.links := by unfold State.count; rfl
@[simp] theorem State.count_snapRx (s : State) (n m v : Nat) : (s.count n m v).snapRx = s.snapRx := by unfold State.count; rfl
@[simp] theorem State.count_boot (s : State) (n m v : Nat) : (s.count n m v).boot = s.boot := by unfold State.count; rfl
@[simp] theorem State.count_store (s : State) (n m v : Nat) : (s.count n m v).store = s.store := by unfold State.count; rfl
@[simp] theorem State.count_phys (s : State) (n m v : Nat) : (s.count n m v).phys = s.phys := by unfold State.count; rfl
@[simp] theorem State.count_repair (s : State) (n m v : Nat) : (s.count n m v).repair = s.repair := by unfold State.count; rfl
@[simp] theorem State.count_tstamp (s : State) (n m v : Nat) : (s.count n m v).tstamp = s.tstamp := by unfold State.count; rfl
@[simp] theorem State.count_pending (s : State) (n m v : Nat) : (s.count n m v).pending = s.pending := by unfold State.count; rfl

/-! ### Readers of other fields -/

/-- Which tiles a section owns is read from the registers (R36). -/
theorem State.ltns_congr {s t : State} (h : s.regs = t.regs) (k : Nat) : s.ltns k = t.ltns k := by
  have e : s.inSect k = t.inSect k := by
    funext c
    simp only [State.inSect, State.sectMask, State.reg, h]
  simp only [State.ltns, State.clusters, e]

@[simp] theorem State.sectN_setTile (s : State) (n : Ltn) (x : Tile) (k : Nat) : (s.setTile n x).sectN k = s.sectN k := by simp only [State.sectN, State.setTile_sects]
@[simp] theorem State.ring_setTile (s : State) (n : Ltn) (x : Tile) (k : Nat) : (s.setTile n x).ring k = s.ring k := by simp only [State.ring, State.setTile_rings]
@[simp] theorem State.linkN_setTile (s : State) (n : Ltn) (x : Tile) (k : Nat) : (s.setTile n x).linkN k = s.linkN k := by simp only [State.linkN, State.setTile_links]
@[simp] theorem State.reg_setTile (s : State) (n : Ltn) (x : Tile) (k : Nat) : (s.setTile n x).reg k = s.reg k := by simp only [State.reg, State.setTile_regs]
@[simp] theorem State.ringCtl_setTile (s : State) (n : Ltn) (x : Tile) (k : Nat) : (s.setTile n x).ringCtl k = s.ringCtl k := by simp only [State.ringCtl, State.reg, State.setTile_regs]
@[simp] theorem State.ringOn_setTile (s : State) (n : Ltn) (x : Tile) (k : Nat) : (s.setTile n x).ringOn k = s.ringOn k := by simp only [State.ringOn, State.ringCtl, State.reg, State.setTile_regs]
@[simp] theorem State.ltns_setTile (s : State) (n : Ltn) (x : Tile) (k : Nat) : (s.setTile n x).ltns k = s.ltns k := State.ltns_congr (State.setTile_regs s n x) k

@[simp] theorem State.sectN_setTileN (s : State) (n : Nat) (x : Tile) (k : Nat) : (s.setTileN n x).sectN k = s.sectN k := by simp only [State.sectN, State.setTileN_sects]
@[simp] theorem State.ring_setTileN (s : State) (n : Nat) (x : Tile) (k : Nat) : (s.setTileN n x).ring k = s.ring k := by simp only [State.ring, State.setTileN_rings]
@[simp] theorem State.linkN_setTileN (s : State) (n : Nat) (x : Tile) (k : Nat) : (s.setTileN n x).linkN k = s.linkN k := by simp only [State.linkN, State.setTileN_links]
@[simp] theorem State.reg_setTileN (s : State) (n : Nat) (x : Tile) (k : Nat) : (s.setTileN n x).reg k = s.reg k := by simp only [State.reg, State.setTileN_regs]
@[simp] theorem State.ringCtl_setTileN (s : State) (n : Nat) (x : Tile) (k : Nat) : (s.setTileN n x).ringCtl k = s.ringCtl k := by simp only [State.ringCtl, State.reg, State.setTileN_regs]
@[simp] theorem State.ringOn_setTileN (s : State) (n : Nat) (x : Tile) (k : Nat) : (s.setTileN n x).ringOn k = s.ringOn k := by simp only [State.ringOn, State.ringCtl, State.reg, State.setTileN_regs]
@[simp] theorem State.ltns_setTileN (s : State) (n : Nat) (x : Tile) (k : Nat) : (s.setTileN n x).ltns k = s.ltns k := State.ltns_congr (State.setTileN_regs s n x) k

@[simp] theorem State.tile_setSectN (s : State) (n : Nat) (x : Section) (k : Ltn) : (s.setSectN n x).tile k = s.tile k := by simp only [State.tile, State.setSectN_tiles]
@[simp] theorem State.tileN_setSectN (s : State) (n : Nat) (x : Section) (k : Nat) : (s.setSectN n x).tileN k = s.tileN k := by simp only [State.tileN, State.setSectN_tiles]
@[simp] theorem State.ring_setSectN (s : State) (n : Nat) (x : Section) (k : Nat) : (s.setSectN n x).ring k = s.ring k := by simp only [State.ring, State.setSectN_rings]
@[simp] theorem State.linkN_setSectN (s : State) (n : Nat) (x : Section) (k : Nat) : (s.setSectN n x).linkN k = s.linkN k := by simp only [State.linkN, State.setSectN_links]
@[simp] theorem State.reg_setSectN (s : State) (n : Nat) (x : Section) (k : Nat) : (s.setSectN n x).reg k = s.reg k := by simp only [State.reg, State.setSectN_regs]
@[simp] theorem State.ringCtl_setSectN (s : State) (n : Nat) (x : Section) (k : Nat) : (s.setSectN n x).ringCtl k = s.ringCtl k := by simp only [State.ringCtl, State.reg, State.setSectN_regs]
@[simp] theorem State.ringOn_setSectN (s : State) (n : Nat) (x : Section) (k : Nat) : (s.setSectN n x).ringOn k = s.ringOn k := by simp only [State.ringOn, State.ringCtl, State.reg, State.setSectN_regs]
@[simp] theorem State.ltns_setSectN (s : State) (n : Nat) (x : Section) (k : Nat) : (s.setSectN n x).ltns k = s.ltns k := State.ltns_congr (State.setSectN_regs s n x) k

@[simp] theorem State.tile_setRing (s : State) (n : Nat) (x : Ring) (k : Ltn) : (s.setRing n x).tile k = s.tile k := by simp only [State.tile, State.setRing_tiles]
@[simp] theorem State.tileN_setRing (s : State) (n : Nat) (x : Ring) (k : Nat) : (s.setRing n x).tileN k = s.tileN k := by simp only [State.tileN, State.setRing_tiles]
@[simp] theorem State.sectN_setRing (s : State) (n : Nat) (x : Ring) (k : Nat) : (s.setRing n x).sectN k = s.sectN k := by simp only [State.sectN, State.setRing_sects]
@[simp] theorem State.linkN_setRing (s : State) (n : Nat) (x : Ring) (k : Nat) : (s.setRing n x).linkN k = s.linkN k := by simp only [State.linkN, State.setRing_links]
@[simp] theorem State.reg_setRing (s : State) (n : Nat) (x : Ring) (k : Nat) : (s.setRing n x).reg k = s.reg k := by simp only [State.reg, State.setRing_regs]
@[simp] theorem State.ringCtl_setRing (s : State) (n : Nat) (x : Ring) (k : Nat) : (s.setRing n x).ringCtl k = s.ringCtl k := by simp only [State.ringCtl, State.reg, State.setRing_regs]
@[simp] theorem State.ringOn_setRing (s : State) (n : Nat) (x : Ring) (k : Nat) : (s.setRing n x).ringOn k = s.ringOn k := by simp only [State.ringOn, State.ringCtl, State.reg, State.setRing_regs]
@[simp] theorem State.ltns_setRing (s : State) (n : Nat) (x : Ring) (k : Nat) : (s.setRing n x).ltns k = s.ltns k := State.ltns_congr (State.setRing_regs s n x) k

@[simp] theorem State.tile_setLinkN (s : State) (n : Nat) (x : Link) (k : Ltn) : (s.setLinkN n x).tile k = s.tile k := by simp only [State.tile, State.setLinkN_tiles]
@[simp] theorem State.tileN_setLinkN (s : State) (n : Nat) (x : Link) (k : Nat) : (s.setLinkN n x).tileN k = s.tileN k := by simp only [State.tileN, State.setLinkN_tiles]
@[simp] theorem State.sectN_setLinkN (s : State) (n : Nat) (x : Link) (k : Nat) : (s.setLinkN n x).sectN k = s.sectN k := by simp only [State.sectN, State.setLinkN_sects]
@[simp] theorem State.ring_setLinkN (s : State) (n : Nat) (x : Link) (k : Nat) : (s.setLinkN n x).ring k = s.ring k := by simp only [State.ring, State.setLinkN_rings]
@[simp] theorem State.reg_setLinkN (s : State) (n : Nat) (x : Link) (k : Nat) : (s.setLinkN n x).reg k = s.reg k := by simp only [State.reg, State.setLinkN_regs]
@[simp] theorem State.ringCtl_setLinkN (s : State) (n : Nat) (x : Link) (k : Nat) : (s.setLinkN n x).ringCtl k = s.ringCtl k := by simp only [State.ringCtl, State.reg, State.setLinkN_regs]
@[simp] theorem State.ringOn_setLinkN (s : State) (n : Nat) (x : Link) (k : Nat) : (s.setLinkN n x).ringOn k = s.ringOn k := by simp only [State.ringOn, State.ringCtl, State.reg, State.setLinkN_regs]
@[simp] theorem State.ltns_setLinkN (s : State) (n : Nat) (x : Link) (k : Nat) : (s.setLinkN n x).ltns k = s.ltns k := State.ltns_congr (State.setLinkN_regs s n x) k

@[simp] theorem State.tile_hostWrite (s : State) (n : Nat) (x : List Byte) (k : Ltn) : (s.hostWrite n x).tile k = s.tile k := by simp only [State.tile, State.hostWrite_tiles]
@[simp] theorem State.tileN_hostWrite (s : State) (n : Nat) (x : List Byte) (k : Nat) : (s.hostWrite n x).tileN k = s.tileN k := by simp only [State.tileN, State.hostWrite_tiles]
@[simp] theorem State.sectN_hostWrite (s : State) (n : Nat) (x : List Byte) (k : Nat) : (s.hostWrite n x).sectN k = s.sectN k := by simp only [State.sectN, State.hostWrite_sects]
@[simp] theorem State.ring_hostWrite (s : State) (n : Nat) (x : List Byte) (k : Nat) : (s.hostWrite n x).ring k = s.ring k := by simp only [State.ring, State.hostWrite_rings]
@[simp] theorem State.linkN_hostWrite (s : State) (n : Nat) (x : List Byte) (k : Nat) : (s.hostWrite n x).linkN k = s.linkN k := by simp only [State.linkN, State.hostWrite_links]
@[simp] theorem State.reg_hostWrite (s : State) (n : Nat) (x : List Byte) (k : Nat) : (s.hostWrite n x).reg k = s.reg k := by simp only [State.reg, State.hostWrite_regs]
@[simp] theorem State.ringCtl_hostWrite (s : State) (n : Nat) (x : List Byte) (k : Nat) : (s.hostWrite n x).ringCtl k = s.ringCtl k := by simp only [State.ringCtl, State.reg, State.hostWrite_regs]
@[simp] theorem State.ringOn_hostWrite (s : State) (n : Nat) (x : List Byte) (k : Nat) : (s.hostWrite n x).ringOn k = s.ringOn k := by simp only [State.ringOn, State.ringCtl, State.reg, State.hostWrite_regs]
@[simp] theorem State.ltns_hostWrite (s : State) (n : Nat) (x : List Byte) (k : Nat) : (s.hostWrite n x).ltns k = s.ltns k := State.ltns_congr (State.hostWrite_regs s n x) k

@[simp] theorem State.tile_msix (s : State) (n : Nat) (k : Ltn) : (s.msix n).tile k = s.tile k := by simp only [State.tile, State.msix_tiles]
@[simp] theorem State.tileN_msix (s : State) (n : Nat) (k : Nat) : (s.msix n).tileN k = s.tileN k := by simp only [State.tileN, State.msix_tiles]
@[simp] theorem State.sectN_msix (s : State) (n : Nat) (k : Nat) : (s.msix n).sectN k = s.sectN k := by simp only [State.sectN, State.msix_sects]
@[simp] theorem State.ring_msix (s : State) (n : Nat) (k : Nat) : (s.msix n).ring k = s.ring k := by simp only [State.ring, State.msix_rings]
@[simp] theorem State.linkN_msix (s : State) (n : Nat) (k : Nat) : (s.msix n).linkN k = s.linkN k := by simp only [State.linkN, State.msix_links]
@[simp] theorem State.reg_msix (s : State) (n : Nat) (k : Nat) : (s.msix n).reg k = s.reg k := by simp only [State.reg, State.msix_regs]
@[simp] theorem State.ringCtl_msix (s : State) (n : Nat) (k : Nat) : (s.msix n).ringCtl k = s.ringCtl k := by simp only [State.ringCtl, State.reg, State.msix_regs]
@[simp] theorem State.ringOn_msix (s : State) (n : Nat) (k : Nat) : (s.msix n).ringOn k = s.ringOn k := by simp only [State.ringOn, State.ringCtl, State.reg, State.msix_regs]
@[simp] theorem State.ltns_msix (s : State) (n : Nat) (k : Nat) : (s.msix n).ltns k = s.ltns k := State.ltns_congr (State.msix_regs s n) k

@[simp] theorem State.tile_setReg (s : State) (n v : Nat) (k : Ltn) : (s.setReg n v).tile k = s.tile k := by simp only [State.tile, State.setReg_tiles]
@[simp] theorem State.tileN_setReg (s : State) (n v : Nat) (k : Nat) : (s.setReg n v).tileN k = s.tileN k := by simp only [State.tileN, State.setReg_tiles]
@[simp] theorem State.sectN_setReg (s : State) (n v : Nat) (k : Nat) : (s.setReg n v).sectN k = s.sectN k := by simp only [State.sectN, State.setReg_sects]
@[simp] theorem State.ring_setReg (s : State) (n v : Nat) (k : Nat) : (s.setReg n v).ring k = s.ring k := by simp only [State.ring, State.setReg_rings]
@[simp] theorem State.linkN_setReg (s : State) (n v : Nat) (k : Nat) : (s.setReg n v).linkN k = s.linkN k := by simp only [State.linkN, State.setReg_links]

@[simp] theorem State.tile_count (s : State) (n m v : Nat) (k : Ltn) : (s.count n m v).tile k = s.tile k := by simp only [State.tile, State.count_tiles]
@[simp] theorem State.tileN_count (s : State) (n m v : Nat) (k : Nat) : (s.count n m v).tileN k = s.tileN k := by simp only [State.tileN, State.count_tiles]
@[simp] theorem State.sectN_count (s : State) (n m v : Nat) (k : Nat) : (s.count n m v).sectN k = s.sectN k := by simp only [State.sectN, State.count_sects]
@[simp] theorem State.ring_count (s : State) (n m v : Nat) (k : Nat) : (s.count n m v).ring k = s.ring k := by simp only [State.ring, State.count_rings]
@[simp] theorem State.linkN_count (s : State) (n m v : Nat) (k : Nat) : (s.count n m v).linkN k = s.linkN k := by simp only [State.linkN, State.count_links]

/-! ### Read after write -/

@[simp] theorem State.tileN_setTileN_same (s : State) (n : Nat) (x : Tile) : (s.setTileN n x).tileN n = x := Sparse.get_set_same _ _ _ _
theorem State.tileN_setTileN_other (s : State) (n k : Nat) (x : Tile) (h : k ≠ n) : (s.setTileN n x).tileN k = s.tileN k := Sparse.get_set_other _ _ _ _ _ h
@[simp] theorem State.tile_setTile_same (s : State) (t : Ltn) (x : Tile) : (s.setTile t x).tile t = x := Sparse.get_set_same _ _ _ _
theorem State.tile_setTile_other (s : State) (t u : Ltn) (x : Tile) (h : u ≠ t) : (s.setTile t x).tile u = s.tile u :=
  Sparse.get_set_other _ _ _ _ _ fun e => h (BitVec.eq_of_toNat_eq e)
theorem State.tile_eq_tileN (s : State) (t : Ltn) : s.tile t = s.tileN t.toNat := rfl
theorem State.setTile_eq_setTileN (s : State) (t : Ltn) (x : Tile) : s.setTile t x = s.setTileN t.toNat x := rfl
@[simp] theorem State.ring_setRing_same (s : State) (n : Nat) (x : Ring) : (s.setRing n x).ring n = x := Sparse.get_set_same _ _ _ _
theorem State.ring_setRing_other (s : State) (n k : Nat) (x : Ring) (h : k ≠ n) : (s.setRing n x).ring k = s.ring k := Sparse.get_set_other _ _ _ _ _ h

theorem State.sectN_setSectN_same (s : State) (k : Nat) (x : Section) (h : k < 16) : (s.setSectN k x).sectN k = x := by
  simp [State.sectN, State.setSectN, h]
theorem State.sectN_setSectN_other (s : State) (k j : Nat) (x : Section) (h : j ≠ k) : (s.setSectN k x).sectN j = s.sectN j := by
  simp [State.sectN, State.setSectN, Ne.symm h]
theorem State.linkN_setLinkN_same (s : State) (l : Nat) (x : Link) (h : l < 32) : (s.setLinkN l x).linkN l = x := by
  simp [State.linkN, State.setLinkN, h]
theorem State.linkN_setLinkN_other (s : State) (l j : Nat) (x : Link) (h : j ≠ l) : (s.setLinkN l x).linkN j = s.linkN j := by
  simp [State.linkN, State.setLinkN, Ne.symm h]

/-! ### Posting records (R342, R343, R357) -/

/-- Raising a vector changes pending bits alone. -/
theorem Pcie.raised_eq (p : Pcie) (v : Nat) : ∃ bits, p.raised v = { p with msixPending := bits } := by
  unfold Pcie.raised; split
  · exact ⟨_, rfl⟩
  · exact ⟨p.msixPending, rfl⟩

/-- t differs from s in rings, in that more has been sent to the host, and in the pending bits of MSI-X. -/
def PostsOnly (s t : State) : Prop :=
  ∃ rings sent bits, t = { s with rings := rings, posted := s.posted ++ sent, pcie := { s.pcie with msixPending := bits } }

theorem PostsOnly.refl (s : State) : PostsOnly s s := ⟨s.rings, [], s.pcie.msixPending, by simp⟩
theorem PostsOnly.trans {s t u : State} : PostsOnly s t → PostsOnly t u → PostsOnly s u := by
  rintro ⟨r, p, b, rfl⟩ ⟨r', p', b', rfl⟩; exact ⟨r', p ++ p', b', by simp⟩
theorem postsOnly_setRing (s : State) (r : Nat) (x : Ring) : PostsOnly s (s.setRing r x) :=
  ⟨Sparse.set {} s.rings r x, [], s.pcie.msixPending, by simp [State.setRing]⟩
theorem postsOnly_hostWrite (s : State) (a : Nat) (bs : List Byte) : PostsOnly s (s.hostWrite a bs) := ⟨s.rings, _, s.pcie.msixPending, rfl⟩
theorem postsOnly_msix (s : State) (v : Nat) : PostsOnly s (s.msix v) := by
  obtain ⟨bits, h⟩ := s.pcie.raised_eq v
  exact ⟨s.rings, _, bits, by unfold State.msix; rw [h]⟩
theorem postsOnly_writeBack (s : State) (r i : Nat) : PostsOnly s (s.writeBack r i) := by
  unfold State.writeBack; split
  · exact .refl s
  · exact postsOnly_hostWrite ..
theorem postsOnly_announce (s : State) (r : Nat) (b : Bool) : PostsOnly s (s.announce r b) := by
  unfold State.announce
  dsimp only
  split
  · exact (postsOnly_setRing ..).trans (postsOnly_msix ..)
  · split
    · split
      · exact (postsOnly_setRing ..).trans (postsOnly_msix ..)
      · exact postsOnly_setRing ..
    · exact .refl s
theorem postsOnly_writeEntries (r : Nat) : ∀ (n : Nat) (s : State) (bs : List Byte), PostsOnly s (s.writeEntries r n bs) := by
  intro n
  induction n with
  | zero => intro s bs; exact .refl s
  | succ n ih =>
    intro s bs
    cases bs with
    | nil => exact .refl s
    | cons b bs => exact ((postsOnly_hostWrite ..).trans (postsOnly_setRing ..)).trans (ih _ _)
theorem postsOnly_ringWrite (s : State) (r : Nat) (rec : List Byte) (b : Bool) : PostsOnly s (s.ringWrite r rec b) :=
  ((postsOnly_writeEntries ..).trans (postsOnly_writeBack ..)).trans (postsOnly_announce ..)
theorem postsOnly_ringPost (s : State) (r : Nat) (rec : List Byte) (b : Bool) : PostsOnly s (s.ringPost r rec b) := by
  unfold State.ringPost
  dsimp only
  split
  · exact .refl s
  · split
    · exact postsOnly_ringWrite ..
    · split <;> exact postsOnly_setRing ..
theorem postsOnly_ringDrain (r : Nat) : ∀ (n : Nat) (s : State), PostsOnly s (s.ringDrain r n) := by
  intro n
  induction n with
  | zero => intro s; exact .refl s
  | succ n ih =>
    intro s
    unfold State.ringDrain
    dsimp only
    split
    · exact .refl s
    · split
      · exact ((postsOnly_setRing ..).trans (postsOnly_ringWrite ..)).trans (ih _)
      · exact .refl s
theorem postsOnly_ringSeq (s : State) (r : Nat) : PostsOnly s (s.ringSeq r).1 := by
  unfold State.ringSeq; split
  · exact postsOnly_setRing ..
  · exact .refl s
/-- An event changes rings and what was sent. -/
theorem postsOnly_event (s : State) (code sect : Nat) (data : List Byte) : PostsOnly s (s.event code sect data) :=
  (postsOnly_ringSeq s 64).trans (postsOnly_ringPost ..)
/-- So does a dead letter, -/
theorem postsOnly_deadLetter (s : State) (reason source : Nat) (write : Bool) (addr origin len : Nat) : PostsOnly s (s.deadLetter reason source write addr origin len) :=
  (postsOnly_ringSeq s 65).trans (postsOnly_ringPost ..)
/-- a completion, -/
theorem postsOnly_complete (s : State) (k : Nat) (c : Completion) : PostsOnly s (s.complete k c) := (postsOnly_ringSeq s (48 + k)).trans (postsOnly_ringPost ..)
/-- and a postbook record. -/
theorem postsOnly_postbook (s : State) (type sect record : Nat) (captured : Bool) (payload : List Byte) : PostsOnly s (s.postbook type sect record captured payload) := by
  unfold State.postbook
  dsimp only
  exact (postsOnly_ringSeq s 66).trans (postsOnly_ringPost ..)

/-- While the event ring does not run an event changes nothing. -/
theorem State.event_off (s : State) (code sect : Nat) (data : List Byte) (h : s.ringOn 64 = false) : s.event code sect data = s := by
  simp [State.event, State.ringSeq, State.ringPost, h]

/-! ### HBM -/

theorem State.hbmWrite_read_other (s : State) (a o : Nat) (bs : List Byte) (h : o < a ∨ a + bs.length ≤ o) : (s.hbmWrite a bs).hbm.read o = s.hbm.read o :=
  Memory.read_writeBytes_other _ _ _ _ h
theorem State.hbmWrite_wf (s : State) (a : Nat) (bs : List Byte) (h : s.hbm.wf = true) : (s.hbmWrite a bs).hbm.wf = true := Memory.writeBytes_wf _ _ _ h

/-! ### Tiles of a section -/

/-- Mapping over the tiles of a section leaves every other tile alone, and every other field of the state. -/
theorem State.foldl_setTileN_frame (f : Nat → Tile → Tile) : ∀ (l : List Nat) (s : State),
    (∃ m, l.foldl (fun s n => s.setTileN n (f n (s.tileN n))) s = { s with tiles := m }) ∧
    ∀ i, i ∉ l → (l.foldl (fun s n => s.setTileN n (f n (s.tileN n))) s).tileN i = s.tileN i := by
  intro l
  induction l with
  | nil => intro s; exact ⟨⟨s.tiles, rfl⟩, fun _ _ => rfl⟩
  | cons n l ih =>
    intro s
    obtain ⟨⟨m, e⟩, o⟩ := ih (s.setTileN n (f n (s.tileN n)))
    refine ⟨⟨m, by simpa [State.setTileN] using e⟩, fun i h => ?_⟩
    simp only [List.mem_cons, not_or] at h
    rw [List.foldl_cons, o i h.2, State.tileN_setTileN_other _ _ _ _ h.1]

theorem State.mapTiles_frame (s : State) (k : Nat) (f : Nat → Tile → Tile) :
    (∃ m, s.mapTiles k f = { s with tiles := m }) ∧ ∀ i, i ∉ s.ltns k → (s.mapTiles k f).tileN i = s.tileN i :=
  State.foldl_setTileN_frame f (s.ltns k) s

/-- Over a list without repeats every tile of it is mapped once. -/
theorem State.foldl_setTileN_mem (f : Nat → Tile → Tile) : ∀ (l : List Nat) (s : State), l.Nodup →
    ∀ i ∈ l, (l.foldl (fun s n => s.setTileN n (f n (s.tileN n))) s).tileN i = f i (s.tileN i) := by
  intro l
  induction l with
  | nil => intro s _ i h; simp at h
  | cons n l ih =>
    intro s hn i h
    rw [List.nodup_cons] at hn
    rw [List.foldl_cons]
    rcases List.mem_cons.mp h with rfl | h
    · rw [(State.foldl_setTileN_frame f l _).2 i hn.1, State.tileN_setTileN_same]
    · rw [ih _ hn.2 i h, State.tileN_setTileN_other _ _ _ _ (fun e => hn.1 (by rw [← e]; exact h))]

/-- The tiles of a section are without repeats. -/
theorem State.ltns_nodup (s : State) (k : Nat) : (s.ltns k).Nodup := by
  unfold State.ltns
  rw [← List.flatMap_def]
  refine List.pairwise_flatMap.mpr ⟨fun c _ => ?_, ?_⟩
  · exact List.pairwise_map.mpr (List.Pairwise.imp (fun h e => h (by omega)) List.nodup_range)
  · refine List.Pairwise.imp ?_ (List.Pairwise.filter _ (List.nodup_range (n := 64)))
    intro a b hab x hx y hy
    simp only [List.mem_map, List.mem_range] at hx hy
    obtain ⟨u, hu, rfl⟩ := hx
    obtain ⟨v, hv, rfl⟩ := hy
    intro e
    exact hab (by omega)

theorem State.mapTiles_mem (s : State) (k : Nat) (f : Nat → Tile → Tile) (i : Nat) (h : i ∈ s.ltns k) : (s.mapTiles k f).tileN i = f i (s.tileN i) :=
  State.foldl_setTileN_mem f _ s (s.ltns_nodup k) i h

end Sys2Proof.Machine
end

