-- ==== Sys2Proof/Laws/Tile.lean ====
section
/-! SUPPORT. Laws/Tile.lean: what a sequencer step, a scratchpad write, a tile-store write and an engine access do, said once, for proofs that do not unfold them. -/

namespace Sys2Proof.Machine

/-! ### Tables with cleared ranges -/

theorem Sparse.get_filter {α : Type} (d : α) (p : Nat → Bool) (m : Sparse α) (a : Nat) :
    Sparse.get d (m.filter (fun e => p e.1)) a = if p a then Sparse.get d m a else d := by
  induction m with
  | nil => simp [Sparse.get]
  | cons e m ih =>
    obtain ⟨k, v⟩ := e
    by_cases hk : p k = true
    · rw [List.filter_cons_of_pos (by simpa using hk)]
      by_cases e : a = k
      · subst e; simp [Sparse.get, hk]
      · simp only [Sparse.get, e, if_false]; exact ih
    · rw [List.filter_cons_of_neg (by simpa using hk), ih]
      by_cases e : a = k
      · subst e; simp [hk]
      · simp [Sparse.get, e]

/-- A key inside a cleared range reads as an unlisted one; every other key as before. -/
theorem Sparse.get_clearRange {α : Type} (d : α) (m : Sparse α) (lo hi a : Nat) :
    Sparse.get d (Sparse.clearRange m lo hi) a = if lo ≤ a ∧ a < hi then d else Sparse.get d m a := by
  have e := Sparse.get_filter d (fun k => decide (k < lo) || decide (hi ≤ k)) m a
  rw [Sparse.clearRange, e]
  by_cases h : lo ≤ a ∧ a < hi
  · rw [if_neg (by simp; omega), if_pos h]
  · rw [if_pos (by simp; omega), if_neg h]

/-- Setting the keys of a list to the unlisted value. -/
theorem Sparse.get_foldl_clear (ws : List Nat) : ∀ (f : Sparse Nat) (w : Nat),
    Sparse.get 0 (ws.foldl (fun f w => Sparse.set 0 f w 0) f) w = if w ∈ ws then 0 else Sparse.get 0 f w := by
  induction ws with
  | nil => intro f w; simp
  | cons v ws ih =>
    intro f w
    rw [List.foldl_cons, ih]
    by_cases h : w ∈ ws
    · simp [h]
    · by_cases e : w = v
      · subst e; simp
      · simp [h, e, Sparse.get_set_other _ _ _ _ _ e]

/-! ### Words of a range -/

theorem mem_wordsOf {a n k w : Nat} (hk : 0 < k) : w ∈ wordsOf a n k ↔ 0 < n ∧ k * w < a + n ∧ a < k * w + k := by
  unfold wordsOf
  by_cases hn : n = 0
  · simp [hn]
  · have h1 : (a + n - 1) / k * k ≤ a + n - 1 := Nat.div_mul_le_self _ _
    have h2 : a / k * k ≤ a := Nat.div_mul_le_self _ _
    have h3 : a < (a / k + 1) * k := Nat.lt_mul_of_div_lt (Nat.lt_succ_self _) hk
    have h4 : a + n - 1 < ((a + n - 1) / k + 1) * k := Nat.lt_mul_of_div_lt (Nat.lt_succ_self _) hk
    rw [if_neg hn]
    simp only [List.mem_map, List.mem_range]
    constructor
    · rintro ⟨i, hi, rfl⟩
      have h5 : (i + a / k) ≤ (a + n - 1) / k := by omega
      have h6 : k * (i + a / k) ≤ (a + n - 1) / k * k := by rw [Nat.mul_comm]; exact Nat.mul_le_mul_right k h5
      have h7 : (a / k + 1) * k ≤ k * (i + a / k) + k := by
        rw [← Nat.mul_succ, Nat.mul_comm]; exact Nat.mul_le_mul_left k (by omega)
      exact ⟨by omega, by omega, by omega⟩
    · rintro ⟨_, h5, h6⟩
      have h7 : a / k ≤ w := by
        apply Nat.le_of_lt_succ
        rw [Nat.div_lt_iff_lt_mul hk, Nat.succ_mul, Nat.mul_comm]; exact h6
      have h8 : w ≤ (a + n - 1) / k := by
        rw [Nat.le_div_iff_mul_le hk, Nat.mul_comm]; omega
      exact ⟨w - a / k, by omega, by omega⟩

/-! ### Scratchpad (R199-R203) -/

@[simp] theorem byteOf_zero (i : Nat) : byteOf 0 i = 0 := by simp [byteOf]

theorem Scratchpad.word_of_clean {m : Scratchpad} {w : Nat} (h : Sparse.get 0 m.flips w = 0) : m.word w = .clean 0 := by
  simp [Scratchpad.word, h]

theorem Scratchpad.openRow_rowValid (m : Scratchpad) (r a : Nat) : (m.openRow r).rowValid a = (m.rowValid a || decide (a / 64 = r)) := by
  unfold Scratchpad.openRow
  split
  · rename_i h
    by_cases e : a / 64 = r
    · simp [Scratchpad.rowValid, e, h]
    · simp [e]
  · rename_i h
    by_cases e : a / 64 = r
    · simp [Scratchpad.rowValid, e]
    · simp [Scratchpad.rowValid, e, Sparse.get_set_other _ _ _ _ _ e]

theorem Scratchpad.openRow_word (m : Scratchpad) (r w : Nat) : (m.openRow r).word w = m.word w := by
  by_cases h : Sparse.get false m.valid r = true
  · rw [Scratchpad.openRow, if_pos h]
  · by_cases e : w / 4 = r
    · have e' : 16 * w / 64 = r := by omega
      have hv : m.rowValid (16 * w) = false := by simpa [Scratchpad.rowValid, e'] using h
      have hc : Sparse.get 0 (m.openRow r).flips w = 0 := by
        rw [Scratchpad.openRow, if_neg h]; simp only [Sparse.get_clearRange]; rw [if_pos (by omega)]
      rw [Scratchpad.word_of_clean hc]
      simp [Scratchpad.word, hv]
    · have e' : 16 * w / 64 ≠ r := by omega
      have hv : (m.openRow r).rowValid (16 * w) = m.rowValid (16 * w) := by rw [Scratchpad.openRow_rowValid]; simp [e']
      have hf : Sparse.get 0 (m.openRow r).flips w = Sparse.get 0 m.flips w := by
        rw [Scratchpad.openRow, if_neg h]; simp only [Sparse.get_clearRange]; rw [if_neg (by omega)]
      have hw : (m.openRow r).wmode = m.wmode := by rw [Scratchpad.openRow, if_neg h]
      simp only [Scratchpad.word, hf, hv, hw]

theorem Scratchpad.openRow_byte (m : Scratchpad) (r a : Nat) : (m.openRow r).byte a = m.byte a := by
  by_cases h : Sparse.get false m.valid r = true
  · rw [Scratchpad.openRow, if_pos h]
  · unfold Scratchpad.byte
    rw [Scratchpad.openRow_word, Scratchpad.openRow_rowValid]
    by_cases e : a / 64 = r
    · have hv : m.rowValid a = false := by simpa [Scratchpad.rowValid, e] using h
      have hb : (m.openRow r).bytes.read a = 0 := by
        rw [Scratchpad.openRow, if_neg h]
        show Sparse.get Memory.empty (Sparse.clearRange m.bytes _ _) a = 0
        rw [Sparse.get_clearRange, if_pos (by omega)]; rfl
      have hw : m.word (a / 16) = .clean 0 := by
        have : m.rowValid (16 * (a / 16)) = false := by
          have e2 : 16 * (a / 16) / 64 = a / 64 := by omega
          simpa [Scratchpad.rowValid, e2] using hv
        simp [Scratchpad.word, this]
      rw [hb, hw]; simp [hv, EccResult.residual]
    · have hb : (m.openRow r).bytes.read a = m.bytes.read a := by
        rw [Scratchpad.openRow, if_neg h]
        show Sparse.get Memory.empty (Sparse.clearRange m.bytes _ _) a = _
        rw [Sparse.get_clearRange, if_neg (by omega)]; rfl
      simp [hb, e]

theorem Scratchpad.openRow_cls (m : Scratchpad) (r : Nat) : (m.openRow r).cls = m.cls ∧ (m.openRow r).wmode = m.wmode := by
  unfold Scratchpad.openRow; split <;> exact ⟨rfl, rfl⟩

theorem Scratchpad.openRows_spec (rs : List Nat) : ∀ m : Scratchpad,
    (∀ a, (m.openRows rs).byte a = m.byte a) ∧ (m.openRows rs).cls = m.cls ∧ (m.openRows rs).wmode = m.wmode ∧
      ∀ a, (m.openRows rs).rowValid a = (m.rowValid a || decide (a / 64 ∈ rs)) := by
  induction rs with
  | nil => intro m; simp [Scratchpad.openRows]
  | cons r rs ih =>
    intro m
    obtain ⟨h1, h2, h3, h4⟩ := ih (m.openRow r)
    refine ⟨fun a => by rw [Scratchpad.openRows, h1, Scratchpad.openRow_byte], by rw [Scratchpad.openRows, h2, (m.openRow_cls r).1],
      by rw [Scratchpad.openRows, h3, (m.openRow_cls r).2], fun a => ?_⟩
    rw [Scratchpad.openRows, h4, Scratchpad.openRow_rowValid]
    by_cases e : a / 64 = r <;> simp [e]

@[simp] theorem Scratchpad.read_length (m : Scratchpad) (n : Nat) : ∀ a, (m.read a n).length = n := by
  induction n with
  | zero => intro a; rfl
  | succ n ih => intro a; simp [Scratchpad.read, ih]

theorem Scratchpad.read_getD (m : Scratchpad) (n : Nat) : ∀ a i, i < n → (m.read a n).getD i 0 = m.byte (a + i) := by
  induction n with
  | zero => intro a i h; omega
  | succ n ih =>
    intro a i h
    cases i with
    | zero => simp [Scratchpad.read]
    | succ i => rw [Scratchpad.read, List.getD_cons_succ, ih _ _ (by omega), show a + 1 + i = a + (i + 1) by omega]

/-- Settling a word: what reads deliver stays, and its check bits are those of what is delivered. -/
theorem Scratchpad.settle_spec (ws : List Nat) : ∀ m : Scratchpad,
    (∀ a, (m.settle ws).byte a = m.byte a) ∧ (m.settle ws).cls = m.cls ∧ (m.settle ws).wmode = m.wmode ∧ (m.settle ws).valid = m.valid ∧
      ∀ w, Sparse.get 0 (m.settle ws).flips w = if w ∈ ws then 0 else Sparse.get 0 m.flips w := by
  induction ws with
  | nil => intro m; simp [Scratchpad.settle]
  | cons v ws ih =>
    intro m
    unfold Scratchpad.settle
    split
    · rename_i h
      obtain ⟨h1, h2, h3, h4, h5⟩ := ih m
      refine ⟨h1, h2, h3, h4, fun w => ?_⟩
      rw [h5]
      by_cases e : w = v
      · subst e; simp [h]
      · simp [e]
    · rename_i h
      let k : Scratchpad := { m with bytes := m.bytes.writeBytes (16 * v) (m.read (16 * v) 16), flips := Sparse.set 0 m.flips v 0 }
      obtain ⟨h1, h2, h3, h4, h5⟩ := ih k
      refine ⟨fun a => ?_, h2, h3, h4, fun w => ?_⟩
      · rw [h1]
        show (if k.rowValid a then _ else _) = if m.rowValid a then _ else _
        have hr : k.rowValid a = m.rowValid a := rfl
        rw [hr]
        by_cases hv : m.rowValid a = true
        · rw [if_pos hv, if_pos hv]
          by_cases e : a / 16 = v
          · have hc : k.word (a / 16) = .clean 0 := Scratchpad.word_of_clean (by simp [k, e])
            have hb : k.bytes.read a = m.byte a := by
              have := Memory.read_writeBytes (m.read (16 * v) 16) m.bytes (16 * v) (a - 16 * v) (by simp; omega)
              rw [show 16 * v + (a - 16 * v) = a by omega, Scratchpad.read_getD _ _ _ _ (by omega), show 16 * v + (a - 16 * v) = a by omega] at this
              exact this
            rw [hc, hb]
            simp [EccResult.residual, Scratchpad.byte, hv]
          · have hb : k.bytes.read a = m.bytes.read a := Memory.read_writeBytes_other _ _ _ _ (by simp; omega)
            have hw : k.word (a / 16) = m.word (a / 16) := by
              have hf : Sparse.get 0 k.flips (a / 16) = Sparse.get 0 m.flips (a / 16) := Sparse.get_set_other 0 m.flips v (a / 16) 0 e
              simp only [Scratchpad.word, hf]; rfl
            rw [hb, hw]
        · rw [if_neg hv, if_neg hv]
      · rw [h5]
        by_cases e : w = v
        · subst e; simp [k]
        · simp [e, k, Sparse.get_set_other _ _ _ _ _ e]

/-- A write to the scratchpad: the bytes written read back, every other byte reads as before, bank classes and modes stay (R202, R203). -/
theorem Scratchpad.write_spec (m : Scratchpad) (a : Nat) (bs : List Byte) :
    (∀ i, i < bs.length → (m.write a bs).byte (a + i) = bs.getD i 0) ∧ (∀ o, o < a ∨ a + bs.length ≤ o → (m.write a bs).byte o = m.byte o) ∧
      (m.write a bs).cls = m.cls ∧ (m.write a bs).wmode = m.wmode := by
  obtain ⟨o1, o2, o3, o4⟩ := Scratchpad.openRows_spec (wordsOf a bs.length 64) m
  -- the memory before the bytes are written: delivers what m delivers, and the words of the range have correct check bits
  have key : ∃ k : Scratchpad, m.write a bs = { k with bytes := k.bytes.writeBytes a bs } ∧ (∀ o, o < a ∨ a + bs.length ≤ o → k.byte o = m.byte o) ∧
      k.cls = m.cls ∧ k.wmode = m.wmode ∧ (∀ o, k.rowValid o = (m.rowValid o || decide (o / 64 ∈ wordsOf a bs.length 64))) ∧
      ∀ w ∈ wordsOf a bs.length 16, Sparse.get 0 k.flips w = 0 := by
    unfold Scratchpad.write
    by_cases h : (m.openRows (wordsOf a bs.length 64)).flips.isEmpty = true
    · refine ⟨_, by simp [h], fun o _ => o1 o, o2, o3, o4, fun w _ => ?_⟩
      rw [List.isEmpty_iff.mp h]; rfl
    · obtain ⟨s1, s2, s3, s4, s5⟩ := Scratchpad.settle_spec (partialWords a bs.length) (m.openRows (wordsOf a bs.length 64))
      refine ⟨{ (m.openRows (wordsOf a bs.length 64)).settle (partialWords a bs.length) with
        flips := (wordsOf a bs.length 16).foldl (fun f w => Sparse.set 0 f w 0) ((m.openRows (wordsOf a bs.length 64)).settle (partialWords a bs.length)).flips },
        by simp only [h, Bool.false_eq_true, if_false], fun o ho => ?_, s2.trans o2, s3.trans o3, fun o => ?_, fun w hw => ?_⟩
      · rw [← o1 o, ← s1 o]
        simp only [Scratchpad.byte, Scratchpad.rowValid, Scratchpad.word]
        have : Sparse.get 0 ((wordsOf a bs.length 16).foldl (fun f w => Sparse.set 0 f w 0) ((m.openRows (wordsOf a bs.length 64)).settle (partialWords a bs.length)).flips) (o / 16)
            = Sparse.get 0 ((m.openRows (wordsOf a bs.length 64)).settle (partialWords a bs.length)).flips (o / 16) := by
          rw [Sparse.get_foldl_clear]
          split
          · rename_i hw
            rw [s5, if_pos]
            simp only [partialWords, List.mem_filter, hw, true_and]
            rw [mem_wordsOf (by omega)] at hw
            simp only [Bool.or_eq_true, decide_eq_true_eq]
            omega
          · rfl
        rw [this]
        rfl
      · rw [← o4 o]; simp only [Scratchpad.rowValid, s4]
      · rw [Sparse.get_foldl_clear, if_pos hw]
  obtain ⟨k, e, k1, k2, k3, k4, k5⟩ := key
  rw [e]
  refine ⟨fun i hi => ?_, fun o ho => ?_, k2, k3⟩
  · have hv : k.rowValid (a + i) = true := by
      rw [k4]
      have : (a + i) / 64 ∈ wordsOf a bs.length 64 := by rw [mem_wordsOf (by omega)]; omega
      simp [this]
    have hf : Sparse.get 0 k.flips ((a + i) / 16) = 0 := k5 _ (by rw [mem_wordsOf (by omega)]; omega)
    have hb := Memory.read_writeBytes bs k.bytes a i hi
    have hw : ({ k with bytes := k.bytes.writeBytes a bs } : Scratchpad).word ((a + i) / 16) = .clean 0 := Scratchpad.word_of_clean hf
    have hr : ({ k with bytes := k.bytes.writeBytes a bs } : Scratchpad).rowValid (a + i) = true := hv
    rw [Scratchpad.byte, if_pos hr, hw]
    simp only [EccResult.residual, byteOf_zero]
    rw [show ({ k with bytes := k.bytes.writeBytes a bs } : Scratchpad).bytes.read (a + i) = bs.getD i 0 from hb]
    simp
  · rw [← k1 o ho]
    have hb := Memory.read_writeBytes_other bs k.bytes a o ho
    show (if k.rowValid o then _ else _) = if k.rowValid o then _ else _
    rw [hb]; rfl

end Sys2Proof.Machine
end

