-- ==== Sys2Proof/Tests/Slice0.lean ====
section
/-! SUPPORT. Slice0.lean: tests of the model and, for every obligation with hypotheses, concrete states and operands that meet them. -/

namespace Sys2Proof.Tests

set_option Elab.async false

open Sys2Proof Sys2Proof.Machine Sys2Proof.Claims

/-! ### Ill-formed commands (WellFormed) -/

theorem test_wf_step_descriptor : (Instr.step 0 (fillBytes 63 0) (fillBytes 64 0)).wf = false := by decide
theorem test_wf_step_values : (Instr.step 0 (fillBytes 64 0) (fillBytes 65 0)).wf = false := by decide
theorem test_wf_descriptors :
    (Instr.switch 0 []).wf = false ∧ (Instr.load 0 []).wf = false ∧ (Instr.save 0 []).wf = false ∧ (Instr.ingest 0 []).wf = false ∧ (Instr.seal 0 []).wf = false ∧
    (Instr.fence 0 []).wf = false ∧ (Instr.barrier 0 []).wf = false ∧ (Instr.nop 0 []).wf = false ∧ (Instr.ingestDescriptor 0 [] none).wf = false ∧
    (Instr.sectionReset 0 1 [[]]).wf = false := by decide
theorem test_wf_queues : (Instr.commandStart 0 3).wf = false ∧ (Instr.commandComplete 0 3).wf = false := by decide
theorem test_wf_rings :
    (Instr.coalesceTimeout 67).wf = false ∧ (Instr.ringPressure 48).wf = false ∧ (Instr.eventLost 66).wf = false ∧ (Instr.ringEnable 67 1).wf = false ∧ (Instr.ringError 48).wf = false := by decide
theorem test_wf_readings :
    (Instr.flightReceive 0 [] 0 0).wf = false ∧ (Instr.tempSample []).wf = false ∧ (Instr.hbmTempSample []).wf = false ∧ (Instr.hbmEcs []).wf = false ∧
    (Instr.railMonitor 5 true 0 0 0 0).wf = false ∧ (Instr.loopReady 101).wf = false ∧ (Instr.loopUnlock 101).wf = false := by decide
theorem test_wf_accepts : (Instr.step 0 (fillBytes 64 0) (fillBytes 64 0)).wf = true ∧ (Instr.railMonitor 4 true 0 0 0 0).wf = true ∧ (Instr.loopReady 100).wf = true := by decide

/-! ### Words of the sequencer, written out bit by bit from the formats of R74 and the codes of R76 -/

theorem test_word_alu : seqDecode 0b000000_00001_00010_00011_00000000101 = some (.alu .sll 1 2 3) := by decide
theorem test_word_imm : seqDecode 0b000001_00001_00010_1111111111111110 = some (.imm .addi 1 2 0xFFFE) := by decide
theorem test_word_shi : seqDecode 0b000111_11111_00010_10_000000000_11111 = some (.shift .sra 31 2 31) ∧ seqDecode 0b000111_11111_00010_10_000000001_11111 = none := by decide
theorem test_word_load : seqDecode 0b001001_00001_00010_0000000000000110 = some (.load .lh 1 2 6) := by decide
theorem test_word_store : seqDecode 0b001111_00001_00010_0000000000000111 = some (.store .sb 1 2 7) := by decide
theorem test_word_jumps :
    seqDecode 0b010000_00001_00010_0000000000001000 = some (.jalr 1 2 8) ∧ seqDecode 0b010100_00001_00010_1111111111111111 = some (.br .bge 1 2 0xFFFF) ∧
    seqDecode 0b011000_00001_100000000000000000001 = some (.lui 1 0x100001) ∧ seqDecode 0b011001_00001_111111111111111111111 = some (.jal 1 0x1FFFFF) := by decide
theorem test_word_queue :
    seqDecode 0b100000_0110_00001_00010_000000000011 = some (.cmd 6 1 2 3) ∧ seqDecode 0b100001_1111_00001_00000_000000000000 = some (.waits 15 1) ∧
    seqDecode 0b100010_1111_00000_00000_000000000000 = some (.qwait 15) ∧ seqDecode 0b100001_1111_00001_00001_000000000000 = none := by decide
theorem test_word_sync_trap :
    seqDecode 0b101000_00000_00011_0000000000000000 = some (.sync 3) ∧ seqDecode 0b110000_00000_000000000000000000101 = some (.trap 5) ∧
    seqDecode 0b110000_00001_000000000000000000101 = none := by decide

/-! ### Small states -/

/-- A running tile with the instruction i at pc 0, code region [0, 0x100), and registers set. -/
def tileAt (i : SeqInsn) (regs : List (Nat × Word)) : Tile :=
  { seq := { status := .running, regs := regs.foldl (fun v e => v.setIfInBounds e.1 e.2) (Vector.replicate 32 0) }
    info := Memory.writeLe [] 0x24 4 0x100
    sp := ({} : Scratchpad).write 0 (leBytes 4 (seqEncode i).toNat) }

/-- The state whose only tile that is not at rest is LTN 0. -/
def one (x : Tile) : State := { tiles := [(0, x)] }

/-- Registers of the sequencer's witnesses: g2 = 0x7FFF_FFFF and g3 = 0x8000_0021, so that signs, carries and shift amounts of 32 and more matter. -/
def edgeRegs : List (Nat × Word) := [(2, 0x7FFFFFFF), (3, 0x80000021)]

/-- The state in which i is next. -/
def stAt (i : SeqInsn) : State := one (tileAt i edgeRegs)

/-- A descriptor of n bytes with fields (offset, length, value). -/
def bytesOf (n : Nat) (fields : List (Nat × Nat × Nat)) : List Byte := Memory.readBytes (fields.foldl (fun m f => Memory.writeLe m f.1 f.2.1 f.2.2) []) 0 n

/-- AtPc by evaluation. -/
theorem atPc_of {s : State} {t : Ltn} {i : SeqInsn}
    (h : s.fencedLtn t.toNat = false ∧ (s.tile t).seq.status = .running ∧ (s.tile t).fault = none ∧ (s.tile t).seq.parityFaults i = [] ∧ (s.tile t).fetch = .insn (seqEncode i) i) : AtPc s t i :=
  ⟨h.1, h.2.1, h.2.2.1, h.2.2.2.1, _, h.2.2.2.2⟩

/-! ### Witnesses: the sequencer -/

theorem witness_StepTakesFrontCommand : ({ pending := [] } : State).pending = [] := rfl
theorem witness_RegisterFile : (31 : GReg) ≠ 0 ∧ (0 : GReg) ≠ 31 := by decide

theorem witness_ArithmeticResults_alu (op : AluOp) : AtPc (stAt (.alu op 1 2 3)) 0 (.alu op 1 2 3) := by
  cases op <;> exact atPc_of (by decide)
theorem witness_ArithmeticResults_imm (op : ImmOp) : AtPc (stAt (.imm op 1 2 0x8000)) 0 (.imm op 1 2 0x8000) := by
  cases op <;> exact atPc_of (by decide)
theorem witness_ArithmeticResults_shift (op : ShiftOp) : AtPc (stAt (.shift op 1 3 31)) 0 (.shift op 1 3 31) ∧ AtPc (stAt (.lui 31 0x1FFFFF)) 0 (.lui 31 0x1FFFFF) := by
  cases op <;> exact ⟨atPc_of (by decide), atPc_of (by decide)⟩

/-- A load or store at an address that g4 holds. -/
def atAddr (i : SeqInsn) (a : Nat) : State := one (tileAt i [(4, BitVec.ofNat 32 a), (3, 0x80000021)])

theorem witness_SequencerLoads_scratchpad (op : LoadOp) :
    let s := atAddr (.load op 1 4 0) 0xFFFFC
    AtPc s 0 (.load op 1 4 0) ∧ addrOf s 0 4 0 % 4 = 0 ∧ addrOf s 0 4 0 < 0x100000 ∧ NoWriter (s.tile 0) (addrOf s 0 4 0) 4 ∧ (s.tile 0).sp.check (addrOf s 0 4 0) 4 = (0, none) := by
  cases op <;> exact ⟨atPc_of (by decide), by decide, by decide, by unfold NoWriter; decide, by decide⟩
theorem witness_SequencerLoads_windows :
    let i : SeqInsn := .load .lw 1 4 0
    let m := fun a => atAddr i a
    AtPc (m 0x20E3FC) 0 i ∧ addrOf (m 0x20E3FC) 0 4 0 = 0x200000 + 0x4000 * 3 + 4 * (48 * 47 + 47) ∧ ((m 0x20E3FC).tile 0).queue 0 = [] ∧
    AtPc (m 0x303FFC) 0 i ∧ addrOf (m 0x303FFC) 0 4 0 = 0x300000 + 4 * 4095 ∧ ((m 0x303FFC).tile 0).queue 1 = [] ∧
    AtPc (m 0x40013C) 0 i ∧ addrOf (m 0x40013C) 0 4 0 = 0x400000 + 0x13C ∧
    AtPc (m 0x500070) 0 i ∧ addrOf (m 0x500070) 0 4 0 = 0x500000 + 16 * 7 ∧ AtPc (m 0x500074) 0 i ∧ addrOf (m 0x500074) 0 4 0 = 0x500000 + 16 * 7 + 4 ∧
    AtPc (m 0x50007C) 0 i ∧ addrOf (m 0x50007C) 0 4 0 = 0x500000 + 16 * 7 + 12 := by
  refine ⟨atPc_of (by decide), by decide, by decide, atPc_of (by decide), by decide, by decide, atPc_of (by decide), by decide, atPc_of (by decide), by decide,
    atPc_of (by decide), by decide, atPc_of (by decide), by decide⟩
theorem witness_SequencerStores (op : StoreOp) :
    let s := atAddr (.store op 3 4 0) 0xFFFFC
    let e := atAddr (.store .sw 3 4 0) 0x303FFC
    (AtPc s 0 (.store op 3 4 0) ∧ addrOf s 0 4 0 % 4 = 0 ∧ addrOf s 0 4 0 < 0x100000 ∧ ¬ ((s.tile 0).codeBase ≤ addrOf s 0 4 0 ∧ addrOf s 0 4 0 < (s.tile 0).codeLimit) ∧
      NoUser (s.tile 0) (addrOf s 0 4 0) 4 ∧ (s.tile 0).sp.checkPartial (addrOf s 0 4 0) 4 = (0, none)) ∧
    AtPc e 0 (.store .sw 3 4 0) ∧ addrOf e 0 4 0 = 0x300000 + 4 * 4095 ∧ (e.tile 0).queue 1 = [] := by
  cases op <;> exact ⟨⟨atPc_of (by decide), by decide, by decide, by decide, by unfold NoUser; decide, by decide⟩, atPc_of (by decide), by decide, by decide⟩
theorem witness_JumpsAndBranches (op : BrOp) :
    AtPc (stAt (.br op 2 3 0xFFFF)) 0 (.br op 2 3 0xFFFF) ∧ AtPc (stAt (.jal 1 0x1FFFFF)) 0 (.jal 1 0x1FFFFF) ∧ ((stAt (.jal 1 0x1FFFFF)).tile 0).seq.pc.toNat % 4 = 0 ∧
    AtPc (stAt (.jalr 1 3 0xFFFF)) 0 (.jalr 1 3 0xFFFF) ∧ addrOf (stAt (.jalr 1 3 0xFFFF)) 0 3 0xFFFF % 4 = 0 := by
  cases op <;> exact ⟨atPc_of (by decide), atPc_of (by decide), by decide, atPc_of (by decide), by decide⟩

/-- A tile about to issue a FILL of 64 bytes at 0x1000, whose descriptor stands at 0xC0. -/
def cmdTile : Tile :=
  let x := tileAt (.cmd 7 4 3 0xABC) [(4, 0xC0), (3, 0x12345)]
  { x with sp := x.sp.write 0xC0 (bytesOf 64 [(0, 2, 1), (8, 4, 0x1000), (12, 4, 64), (32, 4, 0x1000), (36, 4, 64)]) }

theorem witness_CmdIssues :
    let x := (one cmdTile).tile 0
    AtPc (one cmdTile) 0 (.cmd 7 4 3 0xABC) ∧ cmdLong (x.sp.read 0xC0 64) = false ∧ (x.queue 7).length < 16 ∧ NoWriter x 0xC0 64 ∧ x.sp.check 0xC0 64 = (0, none) ∧
    (regOf (one cmdTile) 0 4).toNat = 0xC0 ∧ descRefused x 7 (x.sp.read 0xC0 64) = false :=
  ⟨atPc_of (by decide +kernel), by decide +kernel, by decide +kernel, by unfold NoWriter; decide +kernel, by decide +kernel, by decide +kernel, by decide +kernel⟩
/-- Section 0 owns cluster 0; EVAL, HBM and the other registers stand as after reset. -/
def owned : RegFile := { eff := [(regKey (oSect 0 + sMapLo) 0, 1)] }

/-- A timetable with ID 128, one record and WHOLE of two supersteps; LTN 0 sends twice in record 0 and expects one message. -/
def tt3 : Timetable :=
  { header := bytesOf 64 [(0, 2, 128), (8, 4, 2), (44, 4, 1), (48, 4, 0x100)]
    tiles := [{ ltn := 0, sendsOff := 0x200, records := [bytesOf 16 [(0, 4, 100), (8, 2, 2), (10, 2, 1)]], sends := [bytesOf 24 [(8, 4, 64)], bytesOf 24 [(8, 4, 64)]] }] }

/-- The tile store of LTN 0 with that record and its send entries. -/
def ttStore : TileStore :=
  (({} : TileStore).write 0x100 (bytesOf 16 [(0, 4, 100), (8, 2, 2), (10, 2, 1)])).write 0x200 (bytesOf 32 [(8, 4, 64)] ++ bytesOf 32 [(8, 4, 64), (14, 2, 1)])

/-- A program with that timetable. -/
def prog0 : ProgImage := { entries := [(0, 0), (0x40, 0), (0x80, 0), (0xC0, 0), (0x100, 0)], timetables := [tt3] }

/-- The run of a WHOLE step with postmark 7 on timetable 128. -/
def run7 : StepRun :=
  { desc := bytesOf 64 [(0, 1, 1), (8, 2, 128), (12, 4, 7)], values := fillBytes 64 1, index := 0, tt := 128, named := false, probe := false, code := 0, segIndex := 0, segCount := 0 }

/-- A section that runs that step. -/
def sectRun : Section := { phase := .running, progValid := true, programs := [(0, some prog0)], run := some run7, postmark := 6, fresh := false }

/-- Sections with section 0 given. -/
def sect0 (x : Section) : Vector Section 16 := (Vector.replicate 16 ({} : Section)).set 0 x

/-- A tile of section 0 in its step. -/
def inStep (x : Tile) : State := { tiles := [(0, x)], regs := owned, sects := sect0 sectRun }

theorem witness_WaitsAndSyncs :
    let w := one (let x := tileAt (.waits 15 4) [(4, 0x10001)]
      { x with seq := { x.seq with sems := x.seq.sems.set 15 0x8000 } })
    let v := one (tileAt (.waits 15 4) [(4, 0x10001)])
    let q := stAt (.qwait 15)
    let r := stAt (.qwait 0)
    let busy := fun i => one { tileAt i edgeRegs with queues := (Vector.replicate 8 []).set 0 [{ desc := [], cmdPc := 0, thr := 0, tag := 0, order := 0 }] }
    let y := inStep (tileAt (.sync 4) [])
    let z := inStep (tileAt (.sync 4) [(4, 0xFFFFFFFF)])
    (AtPc w 0 (.waits 15 4) ∧ (((w.tile 0).seq.sems.get 15).toInt - ((regOf w 0 4).toNat : Int)) % 65536 < 32768) ∧
    (AtPc v 0 (.waits 15 4) ∧ ¬ (((v.tile 0).seq.sems.get 15).toInt - ((regOf v 0 4).toNat : Int)) % 65536 < 32768) ∧
    (AtPc q 0 (.qwait 15) ∧ ∀ es ∈ (q.tile 0).queues.toList, es = []) ∧ (AtPc r 0 (.qwait 0) ∧ (r.tile 0).queue 0 = []) ∧
    (AtPc (busy (.qwait 15)) 0 (.qwait 15) ∧ ∃ es ∈ ((busy (.qwait 15)).tile 0).queues.toList, es ≠ []) ∧ (AtPc (busy (.qwait 0)) 0 (.qwait 0) ∧ ((busy (.qwait 0)).tile 0).queue 0 ≠ []) ∧
    (AtPc y 0 (.sync 4) ∧ (regOf y 0 4).toNat < y.tileRecords 0 ∧ (y.tile 0).seq.lastEnd = false) ∧
    (AtPc z 0 (.sync 4) ∧ (regOf z 0 4).toNat = 0xFFFFFFFF ∧ (z.tile 0).seq.syncs = (z.tile 0).info.readLe 0x14 4) := by
  refine ⟨⟨atPc_of (by decide +kernel), by decide +kernel⟩, ⟨atPc_of (by decide +kernel), by decide +kernel⟩, ⟨atPc_of (by decide +kernel), by decide +kernel⟩,
    ⟨atPc_of (by decide +kernel), by decide +kernel⟩, ⟨atPc_of (by decide +kernel), by decide +kernel⟩, ⟨atPc_of (by decide +kernel), by decide +kernel⟩,
    ⟨atPc_of (by decide +kernel), by decide +kernel, by decide +kernel⟩, ⟨atPc_of (by decide +kernel), by decide +kernel, by decide +kernel⟩⟩

theorem witness_SequencerFaults :
    let out := one (let x := tileAt (.qwait 15) []
      { x with seq := { x.seq with pc := 0x100 } })
    let bad := one { tileAt (.qwait 15) [] with sp := ({} : Scratchpad).write 0 (leBytes 4 0x11) }
    let m := fun i a => atAddr i a
    let p := one (let x := tileAt (.load .lw 1 4 0) []
      { x with seq := { x.seq with badRegs := [4] } })
    let y := inStep (tileAt (.sync 4) [(4, 1)])
    AtPc (stAt (.trap 0x1FFFFF)) 0 (.trap 0x1FFFFF) ∧
    ((out.tile 0).seq.status = .running ∧ (out.tile 0).fault = none ∧ ¬ ((out.tile 0).codeBase ≤ (out.tile 0).seq.pc.toNat ∧ (out.tile 0).seq.pc.toNat < (out.tile 0).codeLimit)) ∧
    ((bad.tile 0).seq.status = .running ∧ (bad.tile 0).seq.badLines = [] ∧ (bad.tile 0).sp.check 0 4 = (0, none) ∧
      seqDecode (BitVec.ofNat 32 (leNat ((bad.tile 0).sp.read 0 4))) = none) ∧
    (AtPc (m (.load .lw 1 4 0) 0xFFFFD) 0 (.load .lw 1 4 0) ∧ addrOf (m (.load .lw 1 4 0) 0xFFFFD) 0 4 0 % 4 ≠ 0) ∧
    (AtPc (m (.store .sh 3 4 0) 0xFFFFD) 0 (.store .sh 3 4 0) ∧ addrOf (m (.store .sh 3 4 0) 0xFFFFD) 0 4 0 % 2 ≠ 0) ∧
    (AtPc (m (.jalr 1 4 0) 2) 0 (.jalr 1 4 0) ∧ addrOf (m (.jalr 1 4 0) 2) 0 4 0 % 4 ≠ 0) ∧
    (AtPc (m (.load .lw 1 4 0) 0x100000) 0 (.load .lw 1 4 0) ∧ AtPc (m (.load .lw 1 4 0) 0x500080) 0 (.load .lw 1 4 0) ∧ addrOf (m (.load .lw 1 4 0) 0x500080) 0 4 0 = 0x500080) ∧
    (AtPc (m (.load .lbu 1 4 0) 0x300000) 0 (.load .lbu 1 4 0) ∧ addrOf (m (.load .lbu 1 4 0) 0x300000) 0 4 0 = 0x300000) ∧
    (AtPc (m (.store .sw 3 4 0) 0xFC) 0 (.store .sw 3 4 0) ∧ addrOf (m (.store .sw 3 4 0) 0xFC) 0 4 0 = 0xFC ∧ AtPc (m (.store .sw 3 4 0) 0x400000) 0 (.store .sw 3 4 0)) ∧
    ((p.tile 0).fetch = .insn 0x20240000 (.load .lw 1 4 0) ∧ (4 : GReg).toNat ∈ (p.tile 0).seq.badRegs) ∧
    (AtPc y 0 (.sync 4) ∧ y.tileRecords 0 ≤ (regOf y 0 4).toNat ∧ regOf y 0 4 ≠ 0xFFFFFFFF) := by
  refine ⟨atPc_of (by decide +kernel), by decide +kernel, by decide +kernel, ⟨atPc_of (by decide +kernel), by decide +kernel⟩, ⟨atPc_of (by decide +kernel), by decide +kernel⟩,
    ⟨atPc_of (by decide +kernel), by decide +kernel⟩, ⟨atPc_of (by decide +kernel), atPc_of (by decide +kernel), by decide +kernel⟩, ⟨atPc_of (by decide +kernel), by decide +kernel⟩,
    ⟨atPc_of (by decide +kernel), by decide +kernel, atPc_of (by decide +kernel)⟩, by decide +kernel, ⟨atPc_of (by decide +kernel), by decide +kernel⟩⟩

/-! ### Witnesses: the command queues -/

/-- A queue entry of a descriptor. -/
def entry (d : List Byte) (st : CmdStatus) : QEntry := { desc := d, cmdPc := 8, thr := 0, tag := 5, order := 1, status := st }

/-- A tile whose queue q holds one command. -/
def queued (q : Nat) (d : List Byte) (st : CmdStatus) : Tile := { queues := (Vector.replicate 8 []).setIfInBounds q [entry d st] }

/-- FILL that waits on semaphore 5 and signals semaphore 15; COPY. -/
def fillDesc : List Byte := bytesOf 64 [(0, 2, 1), (2, 1, 0x85), (3, 1, 0x8F), (8, 4, 0xFFFC0), (12, 4, 64), (32, 4, 0xFFFC0), (36, 4, 64), (40, 4, 0xDEADBEEF)]
def copyDesc : List Byte := bytesOf 64 [(0, 2, 2), (8, 4, 0x1000), (12, 4, 64), (16, 4, 0), (20, 4, 64), (32, 4, 0x1000), (36, 4, 64)]
/-- TS_READ, TS_WRITE, TFILL, TCOPY at the end of the tile store, TPWR of bank 15 to RETAIN. -/
def tsReadDesc : List Byte := bytesOf 64 [(0, 2, 1), (8, 4, 0x1000), (12, 4, 64), (16, 4, 0x817FFFC0), (20, 4, 64), (32, 4, 0x1000), (36, 4, 0x17FFFC0), (40, 4, 64)]
def tsWriteDesc : List Byte := bytesOf 64 [(0, 2, 2), (16, 4, 0x1000), (20, 4, 64), (8, 4, 0x817FFFC0), (12, 4, 64), (32, 4, 0x1000), (36, 4, 0x17FFFC0), (40, 4, 64)]
def tfillDesc : List Byte := bytesOf 64 [(0, 2, 3), (8, 4, 0x817FFFC0), (12, 4, 64), (36, 4, 0x17FFFC0), (40, 4, 64), (48, 4, 0x12345678)]
def tcopyDesc : List Byte := bytesOf 64 [(0, 2, 4), (8, 4, 0x817FFFC0), (12, 4, 64), (16, 4, 0x80000000), (20, 4, 64), (36, 4, 0x17FFFC0), (40, 4, 64)]
def tpwrDesc : List Byte := bytesOf 64 [(0, 2, 5), (8, 4, 0x81680000), (12, 4, 0x180000), (52, 2, 0x010F)]
/-- HREAD and HWRITE of host memory, HREAD of HBM, USEND, UCOUNT. -/
def hreadDesc : List Byte := bytesOf 64 [(0, 2, 1), (8, 4, 0x1000), (12, 4, 64), (32, 8, 0x8000000000001000), (40, 4, 0x1000), (44, 4, 64)]
def hreadHbmDesc : List Byte := bytesOf 64 [(0, 2, 1), (8, 4, 0x81000000), (12, 4, 64), (32, 8, 0xFFFFFFFFC0), (40, 4, 0x1000000), (44, 4, 64)]
def hwriteDesc (host : Bool) : List Byte :=
  bytesOf 64 [(0, 2, 2), (16, 4, 0x1000), (20, 4, 64), (32, 8, if host then 0x8000000000001000 else 0x8000000000), (40, 4, 0x1000), (44, 4, 64)]
def usendDesc : List Byte := bytesOf 64 [(0, 2, 1), (16, 4, 0x1000), (20, 4, 11520), (32, 4, 0x1000), (36, 4, 11520), (40, 4, 3)]
def ucountDesc : List Byte := bytesOf 64 [(0, 2, 2), (32, 2, 1023), (34, 1, 1), (36, 4, 9)]

/-- A version range over the last bytes of the tile store. -/
def range0 (st : RangeState) : VRange := { prog := 0, group := 1, slotB := false, off := 0x17FFF80, len := 128, st := st, stamp := 3, before := 2, rows := [] }

/-- A started front command. -/
theorem started_of {s : State} {t : Ltn} {q op : Nat} {e : QEntry}
    (h : s.fencedLtn t.toNat = false ∧ (s.tile t).fault = none ∧ ((s.tile t).queue q).head? = some e ∧ e.status = .started ∧ cmdOp e.desc = op) : Started s t q op e := by
  refine ⟨h.1, h.2.1, ?_, h.2.2.2.1, h.2.2.2.2⟩
  obtain ⟨-, -, h, -⟩ := h
  cases hq : (s.tile t).queue q with
  | nil => simp [hq] at h
  | cons a as => exact ⟨as, by simpa [hq] using h⟩

theorem witness_CommandsStart :
    let s := one { queued 7 fillDesc .queued with seq := { sems := (Vector.replicate 16 0).set 5 0x7FFF } }
    let r := one { queued 6 tsWriteDesc .queued with ranges := [range0 .old] }
    let p := one (queued 6 tpwrDesc .queued)
    let h := one { queued 7 copyDesc .queued with queues := ((Vector.replicate 8 []).set 7 [entry copyDesc .queued]).set 6 [{ entry tsReadDesc .started with order := 0 }] }
    ((s.tile 0).fault = none ∧ (s.tile 0).queue 7 = [entry fillDesc .queued] ∧ cmdWaitEn fillDesc = true ∧ ((((s.tile 0).seq.sem (cmdWaitSem fillDesc)).toNat - (0 : Int)) % 65536 < 32768) ∧
      (s.tile 0).engineChecks (s.sectN (s.sectNo 0)) 0 7 fillDesc = [] ∧ ((s.tile 0).sp.check (startRead 7 fillDesc).1 (startRead 7 fillDesc).2).2 = none) ∧
    ((r.tile 0).queue 6 = [entry tsWriteDesc .queued] ∧ (r.tile 0).engineChecks (r.sectN (r.sectNo 0)) 0 6 tsWriteDesc = [] ∧ tsReadFp tsWriteDesc = none ∧
      tsWriteFp tsWriteDesc = some { off := 0x17FFFC0, len := 64, ts := true } ∧ (∀ b, b < 16 → ((r.tile 0).ts.bank b).st = .on) ∧
      ∀ v ∈ (r.tile 0).ranges, v.meets 0x17FFFC0 64 = true ∧ v.st = .old) ∧
    ((p.tile 0).queue 6 = [entry tpwrDesc .queued] ∧ (p.tile 0).engineChecks (p.sectN (p.sectNo 0)) 0 6 tpwrDesc = []) ∧
    ((h.tile 0).fault = none ∧ (h.tile 0).queue 7 = [entry copyDesc .queued] ∧ cmdWaitEn copyDesc = false ∧ (h.tile 0).queue 6 = [{ entry tsReadDesc .started with order := 0 }] ∧
      (fpWr copyDesc).meets (fpWr tsReadDesc) = true ∧ ((h.tile 0).sp.check (startRead 7 copyDesc).1 (startRead 7 copyDesc).2).2 = none) := by decide +kernel

theorem witness_CommandsComplete :
    let s := one (queued 7 fillDesc .executed)
    let b := one (queued 6 tpwrDesc .executed)
    let m := bytesOf 128 [(0, 2, 1), (4, 2, 1), (78, 2, 0x10), (82, 1, 0x8F), (84, 2, 0)]
    let h := one (queued 0 m .executed)
    ((s.tile 0).fault = none ∧ (s.tile 0).queue 7 = [entry fillDesc .executed] ∧ cmdSigEn fillDesc = true) ∧
    ((b.tile 0).queue 6 = [entry tpwrDesc .executed] ∧ ∀ i, i < tpwrCount tpwrDesc → ((b.tile 0).ts.bank (tpwrFirst tpwrDesc + i)).target = none) ∧
    ((h.tile 0).fault = none ∧ (h.tile 0).queue 0 = [entry m .executed] ∧ (mmaDesc m).isEnd = true ∧ (h.tile 0).me.dbFull = false ∧ mmaHoldEn m = true ∧
      ((((h.tile 0).seq.sem (mmaHoldSem m)).toNat - ((mmaHoldT m).toNat : Int)) % 65536 < 32768) ∧ (h.tile 0).seq.status = .stopped) := by decide +kernel

/-- A scratchpad whose word at 0x1000 holds two flipped bits, so that it is uncorrectable. -/
def badSp : Scratchpad := { ({} : Scratchpad).write 0x1000 (fillBytes 64 7) with flips := [(0x100, 3)] }

theorem witness_ScratchpadEngines :
    let f : Footprint := { off := 0x1000, len := 64, ts := false }
    let x : Tile := { sp := badSp }
    (wordsOf 0x1020 0x40 64 = [0x40, 0x41] ∧ rowPart 0x1020 0x40 0x41 = (0x1040, 0x20) ∧ ¬ Inside f 0x1040 0x20 ∧ rowPart 0x1020 0x40 0x40 = (0x1020, 0x20) ∧ Inside f 0x1020 0x20 ∧
      ({} : Tile).sp.check 0x1020 0x20 = (0, none) ∧ ({} : Tile).sp.checkPartial 0x1020 0x20 = (0, none)) ∧
    (wordsOf 0xFFF 2 64 = [0x3F, 0x40] ∧ rowPart 0xFFF 2 0x3F = (0xFFF, 1) ∧ ¬ Inside f 0xFFF 1 ∧ ({} : Tile).sp.check 0xFFF 0 = (0, none)) ∧ Inside f 0x103F 1 ∧ (({} : Tile).sp.check 0x103F 1 = (0, none)) ∧ Inside f 0x1000 1 ∧ (x.sp.check 0x1000 1).2 = some 0x1000 ∧
    (({} : Tile).sp.checkPartial 0x103F 1 = (0, none)) ∧ moChecks fillDesc = [] ∧ moChecks copyDesc = [] ∧ ({} : Tile).sp.check 0 64 = (0, none) := by
  unfold Inside; decide +kernel
theorem witness_FillAndCopy :
    Started (one (queued 7 fillDesc .started)) 0 7 1 (entry fillDesc .started) ∧ Started (one (queued 7 copyDesc .started)) 0 7 2 (entry copyDesc .started) :=
  ⟨started_of (by decide +kernel), started_of (by decide +kernel)⟩

theorem witness_TileStoreMoves :
    let x := ({} : Tile)
    let k := one { x with ts := { x.ts with banks := x.ts.banks.set 15 { target := some .retain } } }
    Started (one (queued 6 tsReadDesc .started)) 0 6 1 (entry tsReadDesc .started) ∧ Started (one (queued 6 tsWriteDesc .started)) 0 6 2 (entry tsWriteDesc .started) ∧
    Started (one (queued 6 tfillDesc .started)) 0 6 3 (entry tfillDesc .started) ∧ Started (one (queued 6 tcopyDesc .started)) 0 6 4 (entry tcopyDesc .started) ∧
    Started (one (queued 6 tpwrDesc .started)) 0 6 5 (entry tpwrDesc .started) ∧
    (∀ d ∈ [tsReadDesc, tsWriteDesc, tfillDesc, tcopyDesc], dlOk d = true) ∧ x.ts.check 0x17FFFC0 64 = (0, none) ∧ x.ts.check 0 64 = (0, none) ∧ x.sp.check 0x1000 64 = (0, none) ∧
    (((k.tile 0).ts.bank 15).target = some .retain ∧ ((k.tile 0).ts.bank 15).inWrites = 0 ∧ ((k.tile 0).ts.bank 15).inReads = 0 ∧ (k.tile 0).ts.held = []) :=
  ⟨started_of (by decide +kernel), started_of (by decide +kernel), started_of (by decide +kernel), started_of (by decide +kernel), started_of (by decide +kernel), by decide +kernel⟩

theorem witness_VersionRangesOnWrites :
    (range0 .old).meets 0x17FFF40 64 = false ∧ (range0 .current).st = .current ∧ ((range0 .old).meets 0x17FFF80 64 = true ∧ (range0 .old).st = .old) ∧
    ((range0 .open).meets 0x17FFFC0 64 = true ∧ (range0 .open).st = .open ∧ (range0 .open).off % 64 = 0 ∧ (range0 .open).rows.Pairwise (· < ·)) ∧
    (markWrite 9 0x17FFFC0 64 { range0 .old with rows := [1, 0] }).rows = [393215] := by decide +kernel

theorem witness_HostAndUpdateMoves :
    Started (one (queued 4 hreadDesc .started)) 0 4 1 (entry hreadDesc .started) ∧ Started (one (queued 4 hreadHbmDesc .started)) 0 4 1 (entry hreadHbmDesc .started) ∧
    Started (one (queued 4 (hwriteDesc true) .started)) 0 4 2 (entry (hwriteDesc true) .started) ∧ Started (one (queued 4 (hwriteDesc false) .started)) 0 4 2 (entry (hwriteDesc false) .started) ∧
    Started (one (queued 5 usendDesc .started)) 0 5 1 (entry usendDesc .started) ∧ Started (one (queued 5 ucountDesc .started)) 0 5 2 (entry ucountDesc .started) ∧
    (∀ d ∈ [hreadDesc, hreadHbmDesc, hwriteDesc true, hwriteDesc false], dhOk d = true) ∧ duOk usendDesc = true ∧ duOk ucountDesc = true ∧
    dhHost hreadDesc = true ∧ dhHost hreadHbmDesc = false ∧ (fillBytes 64 1).length = dhLen hreadDesc ∧ (one {}).hbmBadUnit (dhAddr hreadHbmDesc) 64 = none ∧
    (fpWr hreadDesc).ts = false ∧ (fpWr hreadHbmDesc).ts = true ∧ ({} : Tile).sp.check 0x1000 64 = (0, none) ∧ ({} : Tile).sp.check 0x1000 11520 = (0, none) :=
  ⟨started_of (by decide +kernel), started_of (by decide +kernel), started_of (by decide +kernel), started_of (by decide +kernel), started_of (by decide +kernel), started_of (by decide +kernel), by decide +kernel⟩

/-- An MMA of one k-step of INT8 blocks with a preload mode. -/
def mmaBytes (preload : Nat) : List Byte :=
  bytesOf 128 [(0, 2, 1), (4, 2, 1), (16, 4, 0), (20, 4, 2304), (24, 4, 0x1000), (28, 4, 2304), (32, 4, 0x2000), (36, 4, 11520), (44, 4, 0x1000), (48, 4, 0x2000), (52, 4, 1),
    (76, 2, 0x944), (78, 2, preload), (88, 8, 2 ^ 47)]
/-- A drain to packed ACC40 in which only rows 0 and 1 are not skipped. -/
def drainBytes (op : Nat) : List Byte :=
  bytesOf 128 [(0, 2, op), (4, 2, 1), (8, 4, 0x4000), (12, 4, 480), (24, 4, 0), (28, 4, 480), (32, 4, 0x4000), (36, 4, 240), (40, 4, 0), (64, 4, 240), (80, 2, 9), (96, 8, 2 ^ 48 - 4)]

theorem witness_MatrixCommands :
    (∀ p ∈ [0, 1, 2], Started (one (queued 0 (mmaBytes p) .started)) 0 0 1 (entry (mmaBytes p) .started)) ∧
    (∀ p ∈ [0, 1, 2, 3], let d := mmaBytes p
      let m := mmaDesc d
      Fmt.ofCode m.fmtA = some .int8 ∧ Fmt.ofCode m.fmtB = some .int8 ∧ m.kSteps = 1 ∧ Inside (fpRd0 d) m.aSrc (Fmt.bytes .int8 2304) ∧ Inside (fpRd1 d) m.bSrc (Fmt.bytes .int8 2304) ∧
      Inside (fpRd2 d) m.preSrc (((Fmt.ofCode m.fmtP).getD .fp32).bytes 48) ∧ Inside (fpRd2 d) m.preSrc (((Fmt.ofCode m.fmtP).getD .fp32).bytes 2304)) ∧
    (∀ sp : Bool, let d := drainBytes (if sp then 2 else 1)
      let x := { queued 1 d .started with me := { dbFull := true, dbInt := true, dbSkip := 2 ^ 48 - 4 } }
      Started (one x) 0 1 (if sp then 2 else 1) (entry d .started) ∧ (drainDesc d).accOut = true ∧ (if sp then (drainDesc d).skip else x.me.dbSkip) = 2 ^ 48 - 4 ∧
      Inside (fpWr d) ((drainDesc d).dst) 240 ∧ Inside (fpWr d) ((drainDesc d).dst + (drainDesc d).dstStride) 240 ∧ Inside (fpRd1 d) ((drainDesc d).src + (drainDesc d).srcStride) 240) := by
  refine ⟨?_, by unfold Inside; decide +kernel, ?_⟩
  · intro p hp
    simp only [List.mem_cons, List.not_mem_nil, or_false] at hp
    obtain rfl | rfl | rfl := hp <;> exact started_of (by decide +kernel)
  · intro sp
    cases sp <;> exact ⟨started_of (by decide +kernel), by unfold Inside; decide +kernel⟩

theorem witness_MatrixDatapath :
    (Fmt.decode .accF (0x7FF8000000 : Acc).toNat).isNan = true ∧ (Fmt.decode .accF (0 : Acc).toNat).isNan = false ∧ (f32 0x7F800000).isFin = false ∧ (drainDesc (drainBytes 1)).srEn = false ∧
    (drainDesc (drainBytes 1)).statEn = false ∧ (drainDesc (drainBytes 1)).deriv = false ∧ (f32 0x3F800000).isFin = true := by decide +kernel

/-- A VPROG of one lane: IOTA and a store. -/
def vprogBytes : List Byte :=
  bytesOf 128 [(0, 2, 1), (4, 2, 1), (8, 4, 0x2000), (12, 4, 64), (16, 4, 0x1000), (20, 4, 64), (32, 4, 0x1000), (36, 1, 2), (40, 4, 1), (56, 4, 0x2000), (60, 1, 0x77), (92, 4, 0x2000)]
/-- SCAND of two scores, SMERGE and SPICK of lists of one candidate. -/
def scandBytes : List Byte := bytesOf 64 [(0, 2, 2), (8, 4, 0x2000), (12, 4, 64), (16, 4, 0x1000), (20, 4, 64), (32, 4, 0x1000), (36, 4, 2), (48, 2, 1), (50, 1, 7), (52, 4, 0x2000)]
def smergeBytes : List Byte := bytesOf 64 [(0, 2, 3), (8, 4, 0x2000), (12, 4, 64), (16, 4, 0x1000), (20, 4, 64), (32, 4, 0x1000), (36, 4, 0x1008), (40, 4, 0x2000), (44, 2, 1)]
def spickBytes : List Byte := bytesOf 64 [(0, 2, 4), (8, 4, 0x2000), (12, 4, 64), (16, 4, 0x1000), (20, 4, 64), (32, 4, 0x1000), (36, 2, 1), (44, 4, 0x2000)]

theorem witness_VectorCommands :
    Started (one { queued 2 vprogBytes .started with sp := ({} : Scratchpad).write 0x1000 [0, 0, 0, 5, 0, 0, 0, 2] }) 0 2 1 (entry vprogBytes .started) ∧
    Started (one (queued 2 scandBytes .started)) 0 2 2 (entry scandBytes .started) ∧ Started (one (queued 2 smergeBytes .started)) 0 2 3 (entry smergeBytes .started) ∧
    Started (one (queued 2 spickBytes .started)) 0 2 4 (entry spickBytes .started) ∧
    (let d := vprogBytes
     let ms := vList (({} : Scratchpad).write 0x1000 [0, 0, 0, 5, 0, 0, 0, 2]) d
     vN d = 1 ∧ vNops d = 2 ∧ Inside (fpRd0 d) (vProg d) (4 * vNops d) ∧ ms.map (·.op) = [5, 2] ∧ (∀ m ∈ ms, m.op = 2 ∨ m.op = 3 → Inside (fpWr d) (vStream d m.vd).off (vStreamLen d m.vd))) ∧
    (Inside (fpRd0 scandBytes) 0x1000 8 ∧ Inside (fpWr scandBytes) 0x2000 8 ∧ Inside (fpRd0 smergeBytes) 0x1008 8 ∧ Inside (fpWr smergeBytes) 0x2000 8 ∧
      Inside (fpRd0 spickBytes) 0x1000 8 ∧ Inside (fpWr spickBytes) 0x2000 16) := by
  refine ⟨started_of (by decide +kernel), started_of (by decide +kernel), started_of (by decide +kernel), started_of (by decide +kernel), ?_⟩
  unfold Inside; decide +kernel

theorem witness_VectorDatapath : (f32 0xFF800000).isNan = false ∧ [candPad].length ≤ 1 ∧ ((0, 3) : Cand) ≠ candPad := by decide +kernel

/-- A served tile reads and writes at once. -/
theorem witness_Served : Served {} := by unfold Served; decide +kernel

theorem witness_Scrubbing :
    let s : State := { tiles := [(0, { sp := badSp })] }
    let one_ : State := { tiles := [(0, { sp := { badSp with flips := [(0x100, 1)] }, scrub := (Vector.replicate 32 0).set 0 64 })] }
    let last := one { ts := { ({} : TileStore) with flips := [(98300, 1)] }, scrub := (Vector.replicate 32 0).set 16 24575 }
    let off := one { ts := { ({} : TileStore) with banks := ({} : TileStore).banks.set 3 { st := .retain } } }
    bitOf (s.reg oScrubCfg) 16 = true ∧ s.fencedLtn 0 = false ∧ (s.tile 0).sp.rowValid 0 = false ∧
    ((one_.tile 0).sp.rowValid 0x1000 = true ∧ (one_.tile 0).sp.check 0x1000 64 = (1, none)) ∧
    ((s.tile 0).sp.rowValid 0x1000 = true ∧ (s.tile 0).sp.check 0x1000 64 = (0, some 0x1000)) ∧
    (((last.tile 0).ts.bank 0).st = .on ∧ (last.tile 0).ts.check (64 * 24575) 64 = (1, none)) ∧ ((off.tile 0).ts.bank 3).st ≠ .on := by decide +kernel

/-- Group 3 of slot 0: die 1, one slice of 48 rows and 48 columns, masters at the start of die 1's master partition. -/
def grp3 : List Byte := bytesOf 128 [(0, 2, 3), (2, 1, 2), (4, 1, 3), (8, 4, 48), (12, 4, 48), (32, 8, 0xA000000000), (40, 8, 0xA000100000), (56, 8, 0xA000200000)]

/-- Section 0 in a step with group 3, a slice of it at die 1 with a target word, and groups' fields given. -/
def sliceState (v : Group) (target : Nat) (data : List Byte) (x : Section) : State :=
  { regs := owned, sects := sect0 { x with groups := [(3, some v)] }, slices := (Vector.replicate 4 []).set 1 [{ sect := 0, target := target, data := data, origin := 0 }]
    hbm := Memory.writeBytes [] 0xA000200000 (bytesOf 16 [(8, 4, 0x100000)]) }

/-! ### Witnesses: exchange, sections, descriptors -/

/-- Tables of the offices of section 0: office 0 has route 1 to a tile, 2 north, 3 to a node, 4 missing, and node 1 adds two integer elements. -/
def tables1 : OfficeTables :=
  { routes := [{ office := 0, index := 1, bytes := [5] }, { office := 0, index := 2, bytes := [2] }, { office := 0, index := 3, bytes := [8] }, { office := 0, index := 5, bytes := [9] },
      { office := 0, index := 6, bytes := [0x26] }]
    nodes := [{ office := 0, index := 1, bytes := bytesOf 16 [(6, 2, 5), (8, 4, 2)] }] }

/-- Section 0 with a program of these tables. -/
def prog1 : ProgImage :=
  { prog0 with routes := tables1.routes, nodes := tables1.nodes }

/-- A step in its exchange phase. -/
def sectEx : Section := { sectRun with programs := [(0, some prog1)], offices := tables1, exchange := some 0 }

/-- Tile 0 in step 2 and 3 of SYNC 0 with sends and counts given. -/
def inPhase0 (sends : List (List Byte)) (got want : Nat) : State :=
  { tiles := [(0, { seq := { status := .exchange 0 }, ts := ttStore, ex := { sends := sends, got := got, want := want } })], regs := owned, sects := sect0 sectEx }

theorem witness_MessagesTravel :
    let s := inPhase0 [bytesOf 24 [(8, 4, 64), (14, 2, 1)]] 0 0
    let m := fun r => ({ sect := 0, route := r, node := 1, dest := if r = 4 then 0 else 0, circ := false, isPartial := false, dst := 0, parts := [(0, fillBytes 64 1)], source := 0 } : Mess)
    let port := fun r => fieldAt (tableEntry (s.image 0).routes 0 r) 0 4 % 16
    let b : NodeBuf := { sect := 0, office := 0, node := 1, left := [{ data := fillBytes 64 1, flips := [(0, 1)] }], right := [{ data := fillBytes 64 2 }] }
    let n := { s with nodes := [b] }
    let e := tableEntry (n.image 0).nodes 0 1
    let full : List Byte := leBytes 5 0x7FFFFFFFFF ++ fillBytes 59 0
    let u := sliceState { prog := 0, desc := grp3 } 12 [] sectRun
    (((s.tile 0).seq.status = .exchange 0 ∧ (s.tile 0).ex.sends = [bytesOf 24 [(8, 4, 64), (14, 2, 1)]] ∧ (s.tile 0).sp.check (sendSrc (bytesOf 24 [(8, 4, 64), (14, 2, 1)])) 64 = (0, none)) ∧
    (port 1 = 5 ∧ clusterOf (m 1).dest = 0 ∧ s.fencedLtn 0 = false) ∧ (port 1 = 5 ∧ clusterOf 32 ≠ 0) ∧ port 4 = 0 ∧ port 3 = 8 ∧ port 5 = 9 ∧ (port 2 = 2 ∧ neighbour 0 2 = some 4)) ∧
    (circOffices [] 0 64 [] 0 ≠ none ∧ circOffices [{ office := 0, index := 0, bytes := [2] }, { office := 4, index := 0, bytes := [1] }] 0 64 [] 0 = none) ∧ (port 6 = 6 ∧ officeLink 0 0 = some 0) ∧
    (n.nodes.find? (fun b => b.office == 0 && b.node == 1) = some b ∧ ndPadded e = 64 ∧ ndOutU e = false ∧ (flitCheck [(0, 1)]).2 = false ∧ (flitCheck [(0, 3)]).2 = true ∧
      (nodeResult e (fillBytes 64 1) (fillBytes 64 2)).2 = 0 ∧ ndMode e ≤ 1 ∧ ndElements e = 2) ∧ 0 < (nodeResult e full full).2 ∧
    u.sliceReady { sect := 0, target := 12, data := [], origin := 0 } = false ∧ u.sliceReady { sect := 0, target := 16, data := [], origin := 0 } = true := by decide +kernel

theorem witness_MessagesArrive :
    let m : Msg := { sect := 0, ltn := 0, dst := 0x1000, parts := [(0, fillBytes 64 1), (64, fillBytes 64 2)], source := 9 }
    let bad := { m with flips := [(0, 3)] }
    let f := { inPhase0 [] 0 1 with msgs := [m], repair := { fenced := [0] } }
    let s := { inPhase0 [] 0 1 with msgs := [{ m with ltn := 7 }, m] }
    let e := { inPhase0 [] 1 1 with msgs := [m] }
    ((s.msgs.zipIdx.filter fun e => e.1.ltn == 0)[0]? = some (m, 1) ∧ (s.tile 0).seq.status = .exchange 0 ∧ (s.tile 0).ex.got < (s.tile 0).ex.want ∧ (s.tile 0).sp.flips = []) ∧
    ((e.msgs.zipIdx.filter fun e => e.1.ltn == 0)[0]? = some (m, 0) ∧ (e.tile 0).ex.want ≤ (e.tile 0).ex.got ∧ (e.tile 0).fault = none) ∧
    ((e.tile 0).seq.status = .exchange 0 ∧ (e.tile 0).ex.sends = [] ∧ (e.tile 0).ex.got = (e.tile 0).ex.want ∧ recBound (e.recordOf (e.sectNo 0) 0 0) = 100 ∧
      e.reg (oSect (e.sectNo 0) + sOvr) % 16 = 4 ∧ (∀ b ∈ e.nodes, b.sect = 0 → b.left = [] ∨ b.right = []) ∧ 0 ∉ (e.sectN 0).overran) ∧
    (let b : NodeBuf := { sect := 0, office := 0, node := 1, left := [{ data := [] }], right := [{ data := [] }] }
     b.sect = e.sectNo 0 ∧ b.left ≠ [] ∧ b.right ≠ [] ∧ b ∈ ({ e with nodes := [b] } : State).nodes) ∧
    (let o := { (inStep {}) with msgs := [m] }
     (o.tile 0).seq.status = .stopped ∧ (o.sectN 0).phase = .running ∧ (o.tile 0).fault = none ∧ o.fencedLtn 0 = false) ∧
    (flitCheck m.flips).2 = false ∧ (flitCheck bad.flips).2 = true ∧ f.fencedLtn 0 = true ∧ e.fencedLtn 0 = false ∧
    m.parts.Pairwise (fun a b => a.1 + a.2.length ≤ b.1 ∨ b.1 + b.2.length ≤ a.1) := by decide +kernel

theorem witness_SectionFaults :
    let s := inStep {}
    let e := { s with sects := sect0 { sectRun with run := some { run7 with began := true, ended := true } } }
    (s.sectN 1).phase = .off ∧ ((s.sectN 0).phase ≠ .off ∧ (s.sectN 0).phase ≠ .faulted ∧ 31 ∈ s.ltns 0 ∧ 32 ∉ s.ltns 0) ∧
    (s.atSealPoint 0 = false ∧ e.atSealPoint 0 = true ∧ (e.sectN 0).run.map (·.sealed) = some false) := by decide +kernel

theorem witness_SectionStops :
    let s := inStep { fault := some { fpc := 0, fcode := 9, faddr := 0, ftag := 0, fmulti := false } }
    let e := inPhase0 [] 0 0
    let b := inStep { seq := { status := .arrived 0 } }
    s.newFaults 0 ≠ [] ∧
    ((e.sectN 0).exchange = some 0 ∧ (e.sectN 0).phase = .running ∧ e.inSect 0 0 = true ∧ e.inPhase 0 = true ∧ e.reg (oSect 0 + sOvr) % 16 ≠ 15) ∧
    (b.someArrived 0 = true ∧ b.uncounted 0 = false ∧ (b.sectN 0).phase = .running) := by decide +kernel

/-- Every tile of cluster 0 at the barrier with an index. -/
def arrivedAll (k : Nat) (x : Section) : State :=
  { tiles := (List.range 32).map fun n => (n, { seq := { status := .arrived k }, ts := if n = 0 then ttStore else {} }), regs := owned, sects := sect0 x }

/-- A section at step 3 of a switch. -/
def switchSect : Section := { phase := .switching, progValid := true, programs := [(0, some prog0)], atSwitch := true, switching := some { desc := fillBytes 64 0, index := 0 } }

theorem witness_BarrierReleases :
    let s := arrivedAll 0 sectRun
    let e := arrivedAll 0xFFFFFFFF { sectRun with exchange := some 0, run := some { run7 with began := true } }
    let b := { (inStep {}) with sects := sect0 { phase := .idle, barrier := some { desc := fillBytes 64 0, index := 0 } } }
    let w := { (inStep {}) with sects := sect0 switchSect }
    (s.joined 0 = false ∧ s.glbPend = false ∧ (s.sectN 0).sealPend = false ∧ (s.sectN 0).sealNext = false ∧ (s.sectN 0).linkUse = [] ∧ s.replaying 0 = false) ∧
    (b.joined 0 = false ∧ (b.sectN 0).barrier.isSome = true ∧ b.replaying 0 = false) ∧
    (w.joined 0 = false ∧ (w.sectN 0).barrier = none ∧ (w.sectN 0).atSwitch = true ∧ (w.sectN 0).phase = .switching) ∧
    ((s.sectN 0).barrier = none ∧ (s.sectN 0).atSwitch = false ∧ (s.sectN 0).phase = .running ∧ (s.sectN 0).run = some run7 ∧ (s.sectN 0).timetable = some tt3 ∧ (s.sectN 0).fillDue 0 = false ∧
      s.ltns 0 ≠ [] ∧ (∀ i ∈ s.ltns 0, (s.tileN i).seq.status = .arrived 0) ∧ s.isHandover 0 0 = false ∧
      (∀ l, l < 32 → s.linkSect l = some 0 → ∀ v, v < 5 → (s.linkN l).rxq.toList.getD v [] = [])) ∧
    (tt3.ssOffset = 0x100 ∧ ∀ i ∈ s.ltns 0, s.fencedLtn i = false ∧ ((s.tileN i).ts.flips = [] ∧ ∀ b, b < 16 → ((s.tileN i).ts.bank b).st = .on ∧ ((s.tileN i).ts.bank b).target = none) ∧
      (tt3.tile i).sendsOff + 32 * (recSendFirst (s.recordOf 0 i 0) + recSendCount (s.recordOf 0 i 0)) ≤ 0x1800000) ∧ recSendCount (s.recordOf 0 0 0) = 2 ∧
    ((e.sectN 0).fillDue 0xFFFFFFFF = false ∧ (∀ i ∈ e.ltns 0, (e.tileN i).seq.status = .arrived 0xFFFFFFFF) ∧ run7.code = 0) := by decide +kernel

/-- Ring 0, completion ring 0, the event ring and the postbook ring enabled; section 0 owns cluster 0. -/
def ringRegs : RegFile :=
  { eff := [(regKey (oRing 0 + 0xC) 0, 1), (regKey (oRing 48 + 0xC) 0, 1), (regKey (oRing 64 + 0xC) 0, 1), (regKey (oRing 66 + 0xC) 0, 1), (regKey (oSect 0 + sMapLo) 0, 1)] }

/-- Job ring 0 with two entries announced and room in the rings that Dyndirix produces. -/
def jobState (x : Section) : State :=
  { regs := ringRegs, rings := [(0, { size := 8, tail := 2 }), (48, { size := 8 }), (64, { size := 8 }), (66, { size := 64 })], sects := sect0 x, boot := { phase := .ready } }

/-- An IDLE section with a resident program after step 6. -/
def idleSect : Section := { phase := .idle, progValid := true, programs := [(0, some prog0)], postmark := 6, fresh := false }

/-- A WHOLE descriptor of postmark 7 on timetable 128 of slot 0. -/
def wholeDesc : List Byte := bytesOf 64 [(0, 1, 1), (8, 2, 128), (12, 4, 7)]

theorem witness_StepsAreTaken :
    let s := jobState idleSect
    let w := jobState { idleSect with progValid := false }
    let l := jobState { idleSect with fresh := true, loaded := some 3 }
    let v := fillBytes 64 0
    let u := s.advanceHead 0 2
    (s.evalOn 0 = false ∧ (s.sectN 0).fresh = false ∧ 1 ≤ (s.sectN 0).postmark ∧ (s.sectN 0).postmark < 2 ^ 31) ∧
    ((l.sectN 0).fresh = true ∧ l.evalOn 0 = false ∧ postLater 3 7 = true) ∧
    (descType wholeDesc = 1 ∧ s.mayTake 0 2 false = true ∧ s.ringOn 66 = true ∧ u.judgeStep 0 wholeDesc v 0 = .inr { run7 with desc := wholeDesc, values := v, segCount := 1 } ∧
      u.maskReads 0 wholeDesc v 0 = [] ∧ u.evalOn 0 = false ∧ bitOf (s.reg oCapCtl) 4 = false ∧ u.checkLinks 0 (((u.sectN 0).resident 0).getD {}).span = (u, true) ∧ (u.sectN 0).progValid = true ∧ (u.sectN 0).prog = 128 / 1024) ∧
    (w.mayTake 0 2 false = true ∧ ((w.advanceHead 0 2).sectN 0).progValid = false ∧
      (w.advanceHead 0 2).judgeStep 0 wholeDesc v 0 = .inr { run7 with desc := wholeDesc, values := v, segCount := 1 }) := by decide +kernel

/-- Every condition of a WHOLE that executes normally, with a span table that uses no link. -/
theorem witness_StepsAreTaken_whole :
    let s := jobState idleSect
    let x := s.sectN 0
    (s.ringOn 0 = true ∧ 2 ≤ (s.ring 0).occupancy ∧ s.ringOn 66 = true ∧ s.ringOn 48 = true ∧ (s.ring 48).held = [] ∧ x.nops.length + boolNat x.bg.isSome < (s.ring 48).free) ∧
    (x.phase = .idle ∧ x.run = none ∧ x.evalWait = none ∧ x.switching = none ∧ x.barrier = none ∧ x.chain = none ∧ x.fence = none) ∧
    (descType wholeDesc = 1 ∧ commonRefusal 0 wholeDesc = none ∧ stCode wholeDesc = 0 ∧ stTt wholeDesc % 128 = 0 ∧ x.resident (stTt wholeDesc / 1024) = some prog0 ∧ x.progValid = true ∧
      x.prog = stTt wholeDesc / 1024 ∧ (prog0.timetable (stTt wholeDesc)).isSome = true ∧ s.needsProbe 0 prog0 = false) ∧
    (s.evalOn 0 = false ∧ x.fresh = false ∧ 1 ≤ x.postmark ∧ x.postmark < 2 ^ 31 ∧ stPostmark wholeDesc = x.postmark + 1) ∧
    (∀ m ∈ prog0.masks, s.maskTableOk prog0 m.1 (maskSelOf prog0 (fillBytes 64 0)) = true) ∧ s.hbmBad = [] ∧ prog0.masks = [] ∧ bitOf (s.reg oCapCtl) 4 = false ∧ (∀ l, l < 32 → spanUsed prog0.span l = false) := by decide +kernel

theorem witness_SegmentsBegin :
    let s := { inStep {} with sects := sect0 { sectRun with run := some { run7 with code := 3, segIndex := 1, segCount := 2 } } }
    ((inStep {}).sectN 0).phase = .running ∧ ((inStep {}).sectN 0).run = some run7 ∧ run7.began = false ∧ ((inStep {}).sectN 0).program = some prog0 ∧ run7.code = 0 ∧
    (s.sectN 0).run = some { run7 with code := 3, segIndex := 1, segCount := 2 } ∧ (s.sectN 0).program = some prog0 := by decide +kernel

theorem witness_StepBoundaryEnds :
    let s := { jobState { sectRun with run := some { run7 with ended := true } } with tiles := [] }
    (s.sectN 0).phase = .running ∧ (s.sectN 0).run = some { run7 with ended := true } ∧ (∀ q ∈ s.slices.toList, ∀ m ∈ q, m.sect ≠ 0) ∧ s.evalOn 0 = false ∧ s.incomplete 0 = none ∧ s.rootWait 0 = [] ∧ s.nodes = [] ∧
    (s.newFaults 0 = [] ∧ s.hbmBad = [] ∧ (∀ i ∈ s.ltns 0, (s.tileN i).ts.flips = [] ∧ ∀ j, j < 16 → ((s.tileN i).ts.bank j).st = .on)) ∧
    ((s.ring 66).held = [] ∧ 2 ≤ (s.ring 66).free ∧ s.regs.staged = [] ∧ s.regs.captured = [] ∧ s.regs.next = [] ∧ (s.sectN 0).sealPend = false ∧ (s.sectN 0).sealNext = false) ∧
    (((s.boundaryStats 0).sectN 0).phase = .running ∧
      ((((s.boundaryStats 0).boundarySeal 0).1.advanceVersions 0 { run7 with ended := true }).sectN 0).phase = .running) := by decide +kernel

/-- A one-entry descriptor of a type. -/
def desc1 (type : Nat) : List Byte := bytesOf 64 [(0, 1, type)]

/-- An INGEST descriptor of the table of one row and one slot at the start of the INGEST partition of die 0, and the table's header. -/
def ingestBase : Nat := 0x8000000000 + 40 * 0x80000000
def ingestDesc : List Byte := bytesOf 64 [(0, 1, 5), (16, 8, ingestBase), (24, 4, 3)]
def tableHeader : List Byte := bytesOf 64 [(0, 4, 3), (8, 4, 1), (12, 4, 1), (16, 8, 128)]

theorem witness_DescriptorsAreTaken :
    let s := jobState idleSect
    let t := fun d => ((s.settle 0).advanceHead 0 1).descRecord 0 0 d []
    let save := bytesOf 64 [(0, 1, 4), (24, 8, 2 ^ 40)]
    let q : State := { s with regs := { eff := ringRegs.eff ++ [(regKey (oQSize 0) 0, 0x01000004)] }, hbm := s.hbm.writeBytes ingestBase tableHeader }
    let u := ((q.settle 0).advanceHead 0 1).descRecord 0 0 ingestDesc []
    (s.mayTake 0 1 false = true ∧ (s.sectN 0).betweenSegments = false ∧ (∀ k ∈ [2, 6, 8], commonRefusal 0 (desc1 k) = none) ∧ commonRefusal 0 save = none ∧
      commonRefusal 0 ingestDesc = none) ∧
    (((t (desc1 2)).sectN 0).resident 0 = some prog0 ∧ (s.sectN 0).bg = none ∧ (t save).saveBad prog0 = none ∧ ((jobState sectRun).settle 0).evalOn 0 = false) ∧
    (q.mayTake 0 1 false = true ∧ u.inPart 1 ingestBase 64 = true ∧ shuffleHeaderOk (u.hbm.readBytes ingestBase 64) 3 (u.queueQt 0) = true ∧ u.inPart 1 ingestBase 128 = true ∧
      u.hbmBadUnit ingestBase 64 = none) ∧
    (let v := t (desc1 6)
     (({ v with regs := v.regs.capture (.sect 0) } : State).applySect 0 true).2 = false) ∧
    (commonRefusal 0 (bytesOf 64 [(0, 1, 7), (8, 1, 0x81), (12, 4, 1)]) = none ∧ fieldAt (bytesOf 64 [(0, 1, 7), (8, 1, 0x81)]) 8 1 % 16 ≠ 0) ∧
    (s.ringOn 66 = true ∧ ((t (desc1 8)).sectN 0).discarded = false ∧ (t (desc1 8)).checkLinks 0 ((t (desc1 8)).sectN 0).spanTable = (t (desc1 8), true)) := by decide +kernel

theorem witness_BackgroundDescriptors :
    let s := jobState idleSect
    let load := bytesOf 64 [(0, 1, 3), (8, 1, 1), (24, 8, 64)]
    let run : DescRun := { desc := load, index := 0 }
    let f : DescRun := { desc := bytesOf 64 [(0, 1, 7), (8, 1, 0x81), (12, 4, 0)], index := 0 }
    (descType load = 3 ∧ s.mayTake 0 1 true = true ∧ (s.sectN 0).bg = none ∧ commonRefusal 0 load = none ∧ ¬ ((s.sectN 0).progValid = true ∧ (s.sectN 0).prog = fieldAt load 8 1 % 64)) ∧
    ((jobState { idleSect with bg := some (.load run) }).sectN 0).bg = some (.load run) ∧
    (descType (desc1 9) = 9 ∧ commonRefusal 0 (desc1 9) = none ∧ (s.sectN 0).inExecution = false) ∧
    ((jobState { idleSect with bg := some (.save run [1]) }).sectN 0).bg = some (.save run [1]) ∧
    (let t := jobState { idleSect with fence := some f }
     (t.sectN 0).fence = some f ∧ (t.sectN 0).bg = none ∧ (t.sectN 0).snap = none ∧ (t.ringDone 1 + 2 ^ 32 - fieldAt f.desc 12 4) % 2 ^ 32 < 2 ^ 31) ∧
    (let r := { s with regs := { eff := [(regKey (oRing 16 + 0xC) 0, 1)] }, rings := [(16, { size := 8, tail := 1 })] }
     r.ringOn 16 = true ∧ (r.ring 16).occupancy ≠ 0) ∧
    (s.ringOn 0 = true ∧ (s.ring 0).occupancy ≠ 0 ∧ (s.sectN 0).fence = none ∧ (s.sectN 0).phase = .idle) := by decide +kernel


/-! ### Witnesses: host interface -/

/-- A READY device. -/
def up : State := { boot := { phase := .ready, verified := true } }

/-- Job ring 0 with base 0x1000, write-back address 0x2000, 16 entries, not enabled; ring 48 enabled. -/
def ringOff : State :=
  { up with regs := { eff := [(regKey (oRing 0) 0, 0x1000), (regKey (oRing 0 + 8) 0, 16), (regKey (oRing 0 + 0x18) 0, 0x2000), (regKey (oRing 48 + 0xC) 0, 1)] } }

theorem witness_RingControl :
    let s := jobState idleSect
    let q := { s with rings := [(48, { size := 8, tail := 3 })] }
    let c := { s with regs := { eff := [(regKey (oRing 48 + 0xC) 0, 1 + 8)] }, rings := [(48, { size := 8, tail := 3, unannounced := 3 })] }
    let full := { s with rings := [(0, { size := 8, tail := 7, head := 7 + 1 })] }
    let lost := { s with rings := [(64, { size := 8, lost := 5 })] }
    (let e : State := { up with regs := { eff := [(regKey (oRing 64 + 8) 0, 16)] }, boot := { phase := .ready, badCopies := [3, 17] } }
     e.ready = true ∧ e.ringOn 64 = false ∧ bitOf (e.ringCtl 64) 1 = false ∧ sizeOk 64 (e.reg (oRing 64 + 8)) = true ∧ e.boot.badCopies ≠ []) ∧
    (let m := fun (b : Bool) (w : Dword) => { c with pcie := { msixEnable := true, msixMask := b, msixTable := [(1, w)] } }
     let masked := fun (s : State) => s.pcie.msixMask || (Sparse.get 0x100000000 s.pcie.msixTable (2 * (s.ringCtl 48 / 16 % 64) + 1)).toNat.testBit 32
     masked (m false 7) = false ∧ masked (m false 0x100000007) = true ∧ masked (m true 7) = true ∧ masked c = true) ∧
    (ringOff.ready = true ∧ ringOff.ringOn 0 = false ∧ bitOf (ringOff.ringCtl 0) 1 = false ∧ sizeOk 0 (ringOff.reg (oRing 0 + 8)) = true) ∧
    (s.ready = true ∧ s.doorbellBad 0 7 = false ∧ q.ready = true ∧ q.doorbellBad 48 3 = false ∧ (q.ring 48).held = [] ∧ q.doorbellBad 48 4 = true ∧ s.doorbellBad 0 8 = true) ∧
    (c.ringOn 48 = true ∧ c.ringCtl 48 / 4 % 4 = 2 ∧ 0 < (c.ring 48).unannounced) ∧ (full.ringOn 0 = true ∧ 7 * (full.ring 0).size < 8 * ((full.ring 0).occupancy + 1)) ∧
    (let f := { s with rings := [(0, { size := 8, tail := 7 })], regs := { eff := [(regKey (oRing 0 + 0xC) 0, 1)] } }
     let g := { s with rings := [(0, { size := 16, tail := 15 })] }
     f.ringOn 0 = true ∧ ¬ 7 * (f.ring 0).size < 8 * (f.ring 0).occupancy ∧ 7 * (g.ring 0).size < 8 * (g.ring 0).occupancy) ∧
    (0 < (lost.ring 64).lost ∧ (lost.ring 64).held = [] ∧ 0 < (lost.ring 64).free) := by decide +kernel

theorem witness_EventRecords :
    let s := jobState idleSect
    let full := { s with rings := [(64, { size := 8, tail := 7 })] }
    let packed := { s with rings := [(64, { size := 8, tail := 7, held := List.replicate 256 ([], false) })] }
    (({} : State).ringOn 64 = false) ∧ (s.ringOn 64 = true ∧ (s.ring 64).held = [] ∧ 1 ≤ (s.ring 64).free ∧ bitsOf (s.ringCtl 64) 3 2 = 0 ∧ (s.ring 64).wb = 0) ∧
    (full.ringOn 64 = true ∧ (full.ring 64).free = 0 ∧ (full.ring 64).held.length < 256 ∧
      ((full.event 0x0601 0xFF [1]).ring 64).held = [(leBytes 2 0x0601 ++ [0xFF, 0] ++ leBytes 4 0 ++ leBytes 8 0 ++ padTo 16 [1], false)]) ∧ (packed.ringOn 64 = true ∧ 256 ≤ (packed.ring 64).held.length) := by decide +kernel

theorem witness_SealRequests :
    let s := { (inStep {}) with boot := { phase := .ready } }
    let i := jobState idleSect
    let a := arrivedAll 0 { sectRun with sealPend := true }
    let h := { i with glbPend := true, sects := sect0 { phase := .held, before := .idle } }
    let u := { h with glbBegun := true }
    (s.ready = true ∧ (s.sectN 0).phase = .running ∧ s.allArrived 0 = false ∧ s.atSealPoint 0 = false ∧ (s.sectN 0).atSwitch = false) ∧
    (i.ready = true ∧ (i.sectN 0).phase = .idle ∧ (i.sectN 0).run = none ∧ (i.sectN 0).sealPend = false ∧ (i.sectN 0).sealNext = false) ∧ i.glbPend = false ∧
    (a.allArrived 0 = true ∧ a.atSealPoint 0 = false ∧ (a.sectN 0).sealPend = true ∧ (a.sectN 0).phase = .running) ∧
    ((∀ k, k < 16 → (s.sectN k).phase ≠ .faulted) ∧ (∀ k, k < 16 → (i.sectN k).phase ≠ .faulted)) ∧
    (h.glbPend = true ∧ (∀ y ∈ h.sects.toList, y.phase ≠ .running ∧ y.phase ≠ .switching) ∧ u.failing .device = none ∧ u.raises = [] ∧ (∀ w ∈ h.phys.avs, w.purpose ≠ 2)) ∧
    (h.sectN 0).phase = .held ∧ (u.glbPend = true ∧ u.glbBegun = true) ∧
    (h.ready = true ∧ h.glbBegun = false) ∧ (s.glbBegun = false ∧ ∃ y ∈ s.sects.toList, y.phase = .running) := by decide +kernel

theorem witness_SealsMakeStagedValuesEffective : Sparse.wf none ({ staged := [(regKey (oSect 0 + sMapLo) 0, some 3)] } : RegFile).staged = true := by decide

theorem witness_RegisterAccesses :
    (regSpec (oSect 3 + sMapLo)).isSome = true ∧ (∀ r, regSpec (oSect 3 + sMapLo) = some r → r.st ≠ 0 ∧ r.rw &&& r.w1c = 0) ∧ (∀ r, regSpec (oSect 3 + sOvr) = some r → r.rw &&& r.w1c = 0) ∧
    0x60000 ≤ oSect 3 + sMapLo ∧ oSect 3 + sMapLo < 0x61000 ∧ (oSect 3 + sMapLo) % 0x100 ≠ 0x0C ∧ (oSect 3 + sMapLo) % 0x100 ≠ 0x18 ∧
    (0x10000 ≤ oBundleLen ∧ oBundleLen < 0x20000 ∧ oBundleLen ≠ oBootCmd ∧ (regSpec oBundleLen).isSome = true ∧ (∀ r, regSpec oBundleLen = some r → r.rw ≠ 0 ∧ r.rw &&& r.w1c = 0)) ∧ (8 : Nat) ≠ 4 ∧
    ({} : State).ready = false ∧ up.ready = true ∧ (∀ k, k < 16 → (up.sectN k).phase ≠ .faulted) ∧ (oXlink 0 + 0x10) ≠ 0 ∧ (∀ r, regSpec (oXlink 0 + 0x10) = some r → r.rc = true) ∧ (regSpec (oXlink 0 + 0x10)).isSome = true := by decide +kernel

/-- With no STEP no section stands at a seal point. -/
theorem witness_RegisterAccesses_sealPoint (k : Nat) : up.atSealPoint k = false := by
  have h : (up.sectN k).run = none := by
    by_cases hk : k < 16
    · exact (by decide : ∀ k, k < 16 → (up.sectN k).run = none) k hk
    · simp [State.sectN, up, List.getD, hk]
  simp [State.atSealPoint, h]

theorem witness_WindowAccesses :
    let u := up
    let m := { up with hbm := [] }
    placeOf 0x1000100004 = .scratchpad 1 4 ∧ placeOf 0x0000001 = .tileStore 0 1 ∧ placeOf 0x1800000 = .reserved ∧ placeOf 0x1080000000 = .unmapped ∧ placeOf 0x8000000000 = .hbm ∧
    u.ready = true ∧ u.repair.failed = false ∧ u.tileBusy 1 = false ∧ (u.tileN 1).sp.check 4 8 = (0, none) ∧ (u.tileN 1).sp.checkPartial 4 8 = (0, none) ∧
    (u.tileN 0).ts.flips = [] ∧ (∀ b, b < 16 → ((u.tileN 0).ts.bank b).st = .on ∧ ((u.tileN 0).ts.bank b).target = none) ∧ (u.tileN 0).meetsCurrent 1 8 = false ∧
    4 + 8 ≤ 0x100000 ∧ 1 + 8 ≤ 0x1800000 ∧ 0x8000000000 + 64 ≤ hbmBase + hbmSize ∧ ({ up with repair := { fenced := [1] } } : State).tileBusy 1 = false ∧
    (u.fencedLtn 1 = false ∧ ({ up with repair := { fenced := [1] } } : State).fencedLtn 1 = true) ∧
    m.hbmBadUnit 0x8000000000 64 = none ∧ (∀ k, k < 16 → (m.sectN k).busy = false ∧ m.maskHits (m.sectN k) 0x8000000000 64 = [] ∧ (m.sectN k).shuffleHit 0x8000000000 64 = false) ∧
    ({ (inStep {}) with boot := { phase := .ready } } : State).tileBusy 31 = true := by decide +kernel

theorem witness_SectionReset :
    let s := { (inStep { fault := some { fpc := 0, fcode := 9, faddr := 0, ftag := 0, fmulti := false } }) with sects := sect0 { sectRun with phase := .faulted, run := none }, boot := { phase := .ready } }
    let i := jobState idleSect
    (s.ready = true ∧ (s.sectN 0).phase = .faulted ∧ s.repair.failed = false ∧ (s.sectN 0).sealPend = false ∧ (s.sectN 0).sealNext = false ∧ (s.sectN 0).run = none ∧ s.announced 0 = 0 ∧
      ∀ k, k < 16 → (s.sectN k).phase = .faulted → (s.sectN k).sealPend = false ∧ (s.sectN k).sealNext = false) ∧ (i.ready = true ∧ (i.sectN 0).phase ≠ .faulted) := by decide +kernel

theorem witness_PortCommands :
    let s : State := { phys := { powered := true, perst := false, smbus := true }, boot := { dbgOpen := true } }
    ({} : State).boot.dbgOpen = false ∧ s.boot.dbgOpen = true ∧ ({} : State).phys.smbus = false ∧ s.phys.smbus = true ∧ s.phys.perst = false ∧ s.phys.powered = true := by decide

/-- The strapped address fits seven bits, and no other address is the device's. -/
theorem witness_PortCommands_smbus : (BitVec.ofNat 7 (0x64 + Config.smbAddr.toNat)).toNat = 0x64 + Config.smbAddr.toNat ∧ (0x63 : BitVec 7).toNat ≠ 0x64 + Config.smbAddr.toNat := by
  have h := Config.smbAddr.isLt
  have e : (0x63 : BitVec 7).toNat = 0x63 := rfl
  exact ⟨by simp only [BitVec.toNat_ofNat]; omega, by omega⟩

/-- The MSI-X capability may stand at any register from the tenth on; a write of another one is a plain write. -/
theorem witness_PortCommands_bar4 (h : 10 ≤ Config.capability .msix) (n : Config.capability .msix < 1024) :
    let s : State := { phys := { powered := true, perst := false }, boot := { phase := .ready } }
    10 ≤ (BitVec.ofNat 10 (Config.capability .msix)).toNat ∧ (BitVec.ofNat 10 (Config.capability .msix)).toNat = Config.capability .msix ∧ (1 : BitVec 10).toNat ≠ Config.capability .msix ∧
    s.ready = true ∧ s.pcie.msixPending = 0 ∧ (0x3FC : BitVec 13).toNat < 0x400 ∧ 0x400 ≤ (0x400 : BitVec 13).toNat := by
  have e : (1 : BitVec 10).toNat = 1 := rfl
  exact ⟨by simp only [BitVec.toNat_ofNat]; omega, by simp only [BitVec.toNat_ofNat]; omega, by omega, rfl, rfl, by decide, by decide⟩

/-- The head of pipeline 0's ring, a descriptor of one frame for section 0, a profile of one patch, and a queue of two slots. -/
def pipeState (p : Pipe) (x : Section) : State :=
  { regs := { eff := [(regKey (oRing 16 + 0xC) 0, 1), (regKey (oQSize 0) 0, 0x01000004)] }, rings := [(16, { size := 16, tail := 1 }), (64, { size := 16 })], pipes := (Vector.replicate 32 {}).set 0 p
    sects := sect0 x }

/-- An ingest descriptor of one frame of section 0 with a chunk of 16 bytes, and a profile that makes one patch of 8 x 8 of a 16 x 16 frame. -/
def igOne : List Byte := bytesOf 64 [(0, 8, 0x10000), (8, 4, 16), (36, 2, 1)]
def profOne : List Byte := bytesOf 128 [(0, 2, 16), (2, 2, 16), (8, 2, 16), (10, 2, 16), (12, 2, 8), (14, 2, 8), (19, 1, 2)]

theorem witness_IngestPipelines_taken :
    let s := pipeState {} {}
    let t : State := { s with regs := { eff := s.regs.eff ++ [(regKey oProfBase 0, 0x940000)] }, hbm := s.hbm.writeBytes 0x9400000000 profOne }
    (s.ringOn 16 = true ∧ (s.ring 16).head ≠ (s.ring 16).tail ∧ (s.pipe 0).desc = none) ∧
    (t.ringOn 16 = true ∧ t.ingestRefusal igOne (t.profile (igProfile igOne)) = 0 ∧ t.profileBad (igProfile igOne) = none ∧
      igFrames igOne / pfT (t.profile (igProfile igOne)) * patches (t.profile (igProfile igOne)) = 1) ∧
    s.ingestRefusal (desc1 0) (fillBytes 128 0) = 1 ∧
    (let b := { t with hbmBad := [0x9400000000 / 64] }
     let z := { t with hbm := [] }
     t.profileReach 0 = true ∧ s.profileReach 0 = false ∧ s.ingestRefusal igOne (s.profile 0) = 4 ∧ z.ingestRefusal igOne (z.profile 0) = 4 ∧ z.profileBad 0 = none ∧
      b.profileReach 0 = true ∧ b.profileBad 0 = some (0x9400000000 / 64)) := by decide +kernel

/-- A pipeline with one tubelet to go, one whose tubelet finds no free slot, and a section whose slot is staged. -/
def pipeOne : Pipe := { desc := some igOne, total := 1, profile := profOne }
def lateDesc : List Byte := bytesOf 64 [(8, 4, 16), (16, 6, 5), (36, 2, 1)]

theorem witness_IngestPipelines_staged :
    let w := pipeState { pipeOne with desc := some lateDesc, total := 2 } {}
    let d := pipeState { pipeOne with total := 2 } { phase := .idle, staged := [(0, 1)] }
    ((w.pipe 0).desc = some lateDesc ∧ w.queueQt (igSect lateDesc) ≠ 0 ∧ (w.sectN 0).head + w.queueQt (igSect lateDesc) ≤ igFirst lateDesc + 0) ∧
    ((pipeState pipeOne {}).pipe 0 = pipeOne ∧ igFirst igOne + 0 < ((pipeState pipeOne {}).sectN 0).head + (pipeState pipeOne {}).queueQt 0 ∧ (pipeState pipeOne {}).isStaged 0 0 = false) ∧
    (igFirst igOne + 0 < (d.sectN 0).head + d.queueQt 0 ∧ d.isStaged 0 0 = true ∧ (d.sectN 0).phase ≠ .off) := by decide +kernel

theorem witness_IngestPipelines_passed :
    let s := pipeState { pipeOne with total := 2 } { head := 1 }
    (s.pipe 0).desc = some igOne ∧ (s.pipe 0).cut = false ∧ s.queueQt (igSect igOne) ≠ 0 ∧ igFirst igOne + 0 < (s.sectN 0).head ∧ (s.pipe 0).done + 1 ≠ (s.pipe 0).total := by decide +kernel

theorem witness_IngestPipelines_stalled :
    let t : ShuffleTable := { addr := ingestBase, epoch := 3, prog := 0, window := 1, rows := 1 }
    let p := { prog0 with handovers := [{ ttId := 128, record := 0, slots := [{ isLocal := false, ltn := 0, off := 0 }] }] }
    let flagged := ({} : TileStore).write 0x100 (bytesOf 16 [(0, 4, 100), (12, 2, 1)])
    let a := arrivedAll 0 { sectRun with programs := [(0, some p)], table := some t }
    let b := { a with tiles := (0, { (a.tileN 0) with ts := flagged }) :: a.tiles.drop 1, regs := { eff := (regKey oStall 0, 9) :: (regKey (oQSize 0) 0, 0x01000004) :: owned.eff } }
    b.ingestLate 0 = some 0 ∧ (b.sectN 0).stalled = false ∧ b.reg oStall % 65536 ≠ 0 := by decide +kernel

/-! ### Witnesses: update dies, versions -/

theorem witness_UpdateDies_drops :
    let v : Group := { prog := 0, desc := grp3 }
    let m : SliceMsg := { sect := 0, target := 3 * 4, data := [], origin := 0 }
    let s := sliceState v 12 [] sectRun
    let off := sliceState v 12 [] {}
    let late := sliceState v 12 [] { phase := .idle }
    (s.slices.toList.getD 1 [] = [m] ∧ m.flips = [] ∧ (s.sectN 0).group 3 = some v ∧ tgGroup m.target = 3 ∧ (s.sectN 0).stepValues = some (fillBytes 64 1, 7) ∧ m.data.length ≠ 11520) ∧
    let ev := { s with regs := { eff := (regKey (oSect 0 + sEval) 0, 0x10) :: owned.eff } }
    let head := sliceState v 12 [] { sectRun with run := some { run7 with code := 1 } }
    (ev.evalOn 0 = true ∧ s.evalOn 0 = false ∧ (s.sectN 0).updates = true ∧ head.evalOn 0 = false ∧ (head.sectN 0).updates = false) ∧
    (off.sectN 0).phase = .off ∧ ((late.sectN 0).phase ≠ .off ∧ (late.sectN 0).phase ≠ .faulted ∧ (late.sectN 0).stepValues = none) := by decide +kernel

theorem witness_UpdateDies_accepts :
    let v : Group := { prog := 0, desc := grp3 }
    let s := sliceState v 12 (fillBytes 11520 0) sectRun
    v.prog = (s.sectN 0).prog ∧ gOwner grp3 = false ∧ gDie grp3 = 1 ∧ gSlices grp3 = 1 ∧ tgSlice 12 = 0 ∧ 12 / 2 ^ 30 % 4 = 0 ∧ (fillBytes 11520 0).length = 11520 ∧
    s.sliceEntryOk 0 grp3 0 = true ∧ s.updReach (aSlice grp3 0) 16 = true ∧ s.hbmBadUnit (aSlice grp3 0) 16 = none ∧ 0 ∉ v.slices ∧ (0 : Nat) ∈ ({ v with slices := [0] } : Group).slices ∧ s.hbmBad = [] ∧ (s.sectN 0).copy = none ∧
    (∀ a ∈ s.sliceAreas 0 3 v 0 none, (a.2.1 = 0 ∨ s.updReach a.1 a.2.1 = true) ∧ (a.2.2 = true ∨ s.hbmBadUnit a.1 a.2.1 = none)) := by decide +kernel

theorem witness_UpdateDies_nothing_waits (v : Group) (target k a o n u m : Nat) (data : List Byte) (x : Section) :
    (sliceState v target data x).copyWaits k a o n = false ∧ (sliceState v target data x).hbmBadUnit u m = none := ⟨rfl, rfl⟩

theorem witness_UpdateDies_rules :
    let v : Group := { prog := 0, desc := grp3, scalars := none }
    let job : RootJob := { due := 1, factors := [(1, [0x3F800000], 1, [0x3F800000])], results := none }
    let v' := { v with roots := [{ job with results := some [] }, job] }
    let s := { sliceState v' 0 [] {} with regs := { eff := [(regKey oGrpKron (grpSel 0 3), 10 * 16777216)] } }
    (s.sectN 0).group 3 = some v' ∧ v'.rootJob = some job ∧ (s.sectN 0).rootTurn 3 v' job = true ∧
    (∀ r ∈ job.factors.map (rootsOf (s.grpHp 0 3 4) (s.grpHp 0 3 5) (krRootIt (s.grpKron 0 3))), r ≠ none) ∧
    gRowWords grp3 = false ∧ v.rowWas = [] ∧ (aM grp3 0 + 4 * 48 ≤ aMaster grp3 0 ∨ aMaster grp3 0 + 4 * 48 ≤ aM grp3 0) ∧
    (aV grp3 0 + 4 * 48 ≤ aM grp3 0 ∨ aM grp3 0 + 4 * 48 ≤ aV grp3 0) ∧ (aV grp3 0 + 4 * 48 ≤ aMaster grp3 0 ∨ aMaster grp3 0 + 4 * 48 ≤ aV grp3 0) ∧
    (∀ a ∈ [aM grp3 0, aMaster grp3 0, aV grp3 0], s.updReach a (4 * 48) = true ∧ ∀ j, j < 48 → s.updReach (a + 4 * j) 4 = true) := by decide +kernel

theorem witness_VersionCopies :
    let area := 0x8000000000 + 60 * 0x80000000
    let v : VersionCopy := { postmark := 7, area := area, bytes := fillBytes 64 1 }
    let sn : Snapshot := { postmark := 7, host := some 0x1000, peer := 0 }
    let s : State := { sects := sect0 { copy := some v, snap := some sn }, regs := { eff := [(regKey (oSect 5 + sEval) 0, 0x10)] } }
    let c : EvalCopy := { slotB := true, postmark := 7, bytes := fillBytes 64 1 }
    let e : EvalPiece := { group := 0, ltn := 0, offA := 0, offB := 0x1000, srcOff := 0, len := 64 }
    let p := { prog0 with evalPieces := [e] }
    let t : State := { sects := sect0 { evalCopy := some c, programs := [(0, some p)] } }
    let h : State := { sects := sect0 { snap := some { sn with shipping := some [1] } } }
    let q : State := { sects := sect0 { snap := some { sn with host := none, peer := 1, shipping := some [1] } } }
    let w : State := { q with links := (Vector.replicate 32 {}).set 0 { txq := (Vector.replicate 8 []).set 6 [{ header := 6 + 32, data := [] }], lasts := 1 } }
    ((s.sectN 0).copy = some v ∧ s.inPart 3 v.area v.bytes.length = true ∧ s.hbmBadUnit v.area v.bytes.length = none ∧ (s.sectN 0).snap = some sn ∧ sn.shipping = none ∧ s.evalOn 5 = true ∧ s.evalSource 5 = 0) ∧
    ((t.sectN 0).evalCopy = some c ∧ (t.sectN 0).evalWait = none ∧ (t.sectN 0).programs = [(0, some p)] ∧ t.fencedLtn 0 = false ∧ t.tiles = [] ∧
      e.offB + (((groupOfCopy c.bytes e.group).drop e.srcOff).take e.len).length ≤ 0x1800000) ∧
    ({ sects := sect0 { evalCopy := some c } } : State).sectN 0 = { evalCopy := some c } ∧
    ((h.sectN 0).snap = some { sn with shipping := some [1] }) ∧ ((q.linkN 0).snapPending 0 = false ∧ (w.linkN 0).snapPending 1 = true ∧ (w.sectN 0).snap = (q.sectN 0).snap) := by decide +kernel

/-! ### Witnesses: links, resets, clocks, power -/

/-- A device whose link 0 is given. -/
def linked (x : Link) : State := { up with links := (Vector.replicate 32 {}).set 0 x }

/-- An active link of four lanes, and a flight of three frames without content as its partner sends it. -/
def act : Link := { phase := .active, isOpen := true, lanes := 15 }
def flight0 : Flight := { fseq := 0, frames := [{ header := 7, data := [] }, { header := 7, data := [] }, { header := 7, data := [] }], credit := 0 }
def bytes0 : List Byte := act.flightBytes flight0

/-- Flights of a partner that acknowledges FSEQ 5, without and with NAK. -/
def bytesAck (nak : Bool) : List Byte := ({ act with fseqRx := 6, nakSend := nak } : Link).flightBytes flight0

theorem witness_Flights :
    let r := { act with replay := [flight0], resend := 1 }
    let k := { act with replay := [flight0], nakSeen := true }
    (((linked act).linkN 0).phase = .active ∧ act.resend = 0 ∧ act.replay.length < 256) ∧ (r.resend = 0 + 1 ∧ r.replay[r.replay.length - 1]? = some flight0 ∧ r.resends ≠ 7) ∧
    (k.nakSeen = true ∧ k.replay ≠ []) ∧ flightCrcOk [1] = false ∧
    (fieldAt bytes0 24 3 % 1024 = act.fseqRx ∧ (∀ i, i < 3 → fieldAt bytes0 (8 * i) 8 = 7) ∧ fieldAt bytes0 24 3 / 2 ^ 20 % 2 = 0 ∧ ∀ f ∈ act.replay, f.fseq ≠ fieldAt bytes0 24 3 / 2 ^ 10 % 1024) ∧
    fieldAt bytes0 24 3 % 1024 ≠ ({ act with fseqRx := 1023 } : Link).fseqRx ∧ flightFound [] = false ∧ flightFound [(true, []), (false, [])] = false ∧
    (∀ nak : Bool, fieldAt (bytesAck nak) 24 3 % 1024 = 0 ∧ fieldAt (bytesAck nak) 24 3 / 2 ^ 10 % 1024 = 5 ∧ fieldAt (bytesAck nak) 24 3 / 2 ^ 20 % 2 = boolNat nak) := by decide +kernel
theorem witness_Flights_crc : flightCrcOk bytes0 = true := Link.flightCrcOk_flightBytes act flight0 rfl
theorem witness_Flights_found (nak : Bool) :
    flightFound (flightBlocks (bytesAck nak)) = true ∧ flightOf (flightBlocks (bytesAck nak)) = bytesAck nak ∧ flightCrcOk (bytesAck nak) = true := by
  have n : (bytesAck nak).length = 800 := Link.length_flightBytes _ flight0 rfl (by decide)
  exact ⟨flightFound_flightBlocks _ n, flightOf_flightBlocks _ n, Link.flightCrcOk_flightBytes _ flight0 rfl⟩
/-- ACK 5 covers the older two of three flights that are held. -/
theorem witness_Flights_covers :
    let f := fun n => { flight0 with fseq := n }
    [f 4, f 5, f 6] = [f 4, f 5] ++ [f 6] ∧ [f 4, f 5] = [f 4] ++ [f 5] ∧ (f 5).fseq = 5 ∧ ∀ g ∈ [f 4], g.fseq ≠ 5 := by decide

/-- A whole message of one flit for LTN 0 at 0x1000, over LVC0; an ARRIVE frame; a snapshot frame of the first 64 bytes. -/
def frame0 : Frame := { header := 0x80 + 64 * 2 ^ 35, data := fillBytes 64 7 }
def arrive0 : Frame := { header := 5 + 2 ^ 8 * 3 + 2 ^ 24 * 9, data := [] }
def snap0 : Frame := { header := 6, data := fillBytes 256 7 }

theorem witness_Flights_deliver :
    let on := fun (s : State) => ({ s with links := (Vector.replicate 32 {}).set 0 act } : State)
    let none_ := on {}
    let idle := on { regs := owned, sects := sect0 { phase := .idle } }
    let early := on (inStep {})
    let open_ := { prog1 with windows := [bytesOf 16 [(2, 2, 0xFFFF), (4, 4, 0x1000), (8, 4, 64)]] }
    let phase := on { (inPhase0 [] 0 1) with sects := sect0 { sectEx with programs := [(0, some open_)] } }
    let span := on { regs := owned, sects := sect0 { sectRun with programs := [(0, some { prog0 with span := bytesOf 144 [(2, 2, 2), (4, 1, 0xFF), (8, 4, 1)] })] } }
    let rx := on { regs := { eff := [(regKey oSnapRxBase 0, 0x19E0000), (regKey oSnapRxLen 0, 1)] } }
    (frame0.header % 8 = 0 ∧ (∀ w, w < 5 → act.rxq.toList.getD w [] = []) ∧ none_.linkSect 0 = none) ∧ (idle.linkSect 0 = some 0 ∧ (idle.sectN 0).phase = .idle) ∧
    (early.linkSect 0 = some 0 ∧ (early.sectN 0).phase = .running ∧ early.inPhase (linkCluster 0) = false) ∧
    (phase.linkSect 0 = some 0 ∧ phase.inPhase (linkCluster 0) = true ∧ phase.capturing 0 = false ∧ act.refused = [] ∧ act.partials = [] ∧ fhLast frame0.header = true ∧
      frameAllowed (phase.image 0).windows 0 (phase.windowPeer 0 0) frame0.header = true ∧ phase.repair.failed = false) ∧
    (arrive0.header % 8 = 5 ∧ arrive0.header / 8 % 4 = 0 ∧ span.linkSect 0 = some 0 ∧ span.joined 0 = true ∧ (span.sectN 0).phase = .running ∧ bitOf (spanChildren (span.sectN 0).spanTable) 0 = true) ∧
    (snap0.header % 8 = 6 ∧ snap0.data.length = 256 ∧ rx.snapRefused act.peerChip 0 64 = false ∧ rx.inPart 3 (65536 * (rx.reg oSnapRxBase % 2 ^ 24)) 64 = true) := by decide +kernel

theorem witness_LinkStates :
    let s := linked act
    let auto : State := { s with regs := { eff := [(regKey (oXlink 0) 0, 0x10 + 5 * 256)] } }
    let span := { s with sects := sect0 { phase := .idle } }
    let verified : State := { up with regs := { eff := [(regKey oChipId 0, 3)] } }
    let noId : State := { up with regs := { eff := [(regKey oChipId 0, 0xFFFF)] } }
    ((linked { phase := .training }).linkN 0).phase = .training ∧ (((linked { act with phase := .retraining, wantLanes := 3 }).linkN 0).phase = .retraining) ∧ (span.sectN 0).phase ≠ .off ∧
    ((s.linkN 0).phase = .active ∧ (s.linkN 0).lanes / 2 ^ 3 % 2 = 1) ∧ (auto.autoDegrade 0 = true ∧ (auto.linkN 0).badLanes = 0 ∧ (auto.linkN 0).excluded = 0) ∧ auto.linkCtl 0 / 256 % 65536 = 5 ∧
    (verified.ready = true ∧ (verified.linkN 0).phase = .idle ∧ verified.boot.verified = true ∧ verified.reg oChipId ≠ 0xFFFF) ∧ noId.reg oChipId = 0xFFFF ∧ (s.linkN 0).isOpen = true := by decide +kernel

theorem witness_ResetsKeepTheCounterStore :
    let p : State := { phys := { powered := true, boscReady := true } }
    up.ready = true ∧ (0xD101 : Word).toNat % 2 = 1 ∧ (0xD101 : Word).toNat / 256 % 256 = 0xD1 ∧ (p.phys.powered = true ∧ p.phys.perst = true ∧ p.phys.boscReady = true) ∧
    ({ phys := { powered := true, perst := false, boscReady := true } } : State).phys.perst = false ∧ up.boot.commit = none := by decide

/-- A powered device with BOSC ready. -/
def powered (p : Phys) : State := { up with phys := { p with powered := true, perst := false, boscReady := true } }

theorem witness_Clocks :
    let off : State := { phys := { powered := true } }
    let lost := (powered { windows := 3, lostAt := some 5 }).phys
    let ready := powered { refclk := true, loops := (Vector.replicate 101 {}).set 100 { ready := true } }
    (off.phys.powered = true ∧ off.phys.boscReady = false ∧ off.phys.perst = true) ∧ (powered {}).phys.boscReady = true ∧
    ((powered { windows := 3 }).phys.refclk = false ∧ (powered { windows := 3 }).phys.lostAt = none) ∧ lost.lostAt = some 5 ∧ 5 ≤ ({ up with tstamp := 7 } : State).tstamp ∧
    (99 * 262144 ≤ 100 * 262144 ∧ 100 * 262144 ≤ 101 * 262144) ∧ 100 * 259522 < 99 * 262144 ∧ 101 * 262144 < 100 * 264766 ∧
    (ready.phys.refclk = true ∧ (ready.phys.loop 100).ready = true ∧ (ready.phys.loop 99).ready = false) := by decide +kernel

theorem witness_RailsAndSensors :
    let w := fun n => ({ rail := 1, target := 800, purpose := n } : AvsWait)
    let temps := fun (t : Nat) => List.replicate 75 20 ++ [t]
    (∀ n, n < 3 → (powered { avs := [w n] }).phys.avs.find? (fun w => w.rail == 1 && w.purpose < 3) = some (w n) ∧ ∀ y ∈ (powered { avs := [w n] }).phys.avs, y.purpose ≠ 4) ∧
    ((powered { avs := [w 4] }).phys.avs.find? (fun w => w.rail == 1 && w.purpose < 3) = none ∧ (powered { avs := [w 4] }).phys.avs.find? (fun w => w.rail == 1 && w.purpose == 4) = some (w 4)) ∧
    ({ phys := { vioOnly := true } } : State).phys.vioOnly = true ∧ ({ boot := { phase := .starting } } : State).boot.phase = .starting ∧ (790 ≤ 800 + 10 ∧ 800 ≤ 790 + 10) ∧ ¬ (789 ≤ 800 + 10 ∧ 800 ≤ 789 + 10) ∧
    (powered {}).phys.avs = [] ∧ (powered {}).phys.inRange 0 2 728 = true ∧ (powered {}).phys.inRange 0 4 919 = false ∧
    (let m := (powered { rails := (Vector.replicate 5 {}).set 1 { commanded := 800, rate := 10, origin := 750, since := 0 } }).phys
     (m.rail 1).momentary 0 = 750 ∧ (m.rail 1).momentary 1000 = 800 ∧ m.inRange 0 1 776 = false ∧ m.inRange 1000 1 776 = true) ∧
    (temps 90).length = 76 ∧ (∀ r ∈ temps 88, r + 2 ≤ 90 ∧ r < 115) ∧ ((∃ r ∈ temps 91, 90 < r) ∧ (∀ r ∈ temps 91, r < 115)) ∧
    ((∀ j, j < 75 → (temps 91).getD j 0 ≤ 90) ∧ 90 < (temps 91).getD 75 0) ∧ (powered {}).phys.warned = false ∧
    ({ (powered {}) with regs := { eff := [(regKey oPwrTwarn 0, 90)] } } : State).reg oPwrTwarn % 128 = 90 := by decide +kernel

/-! ### Witnesses: boot, counter store, franking, repair -/

/-- A root key of the set XMSS-SHAKE256_10_256: its root and a public seed of zeros; and its signatures, all with leaf 0, of the manifest and of the record below. They were computed outside the model with the algorithms of RFC 8391. -/
def rootKey : List Byte := [0, 0, 0, 0x10] ++ leBytes 32 0xf0fb4eeca82e8bb057ca6d401da150574e81e2f66fc4d0007a75fe66633f582f ++ fillBytes 32 0
def manifestSig0 : List Byte :=
  leBytes 96 0xF7340581CD7A714A0365BA111920A87209BAD3AAF370BAE960F8A6FB12B3EA594EDA940351BFE83288B161922DD484D372A4AE89105AD3930BBD4703000000000000000000000000000000000000000000000000000000000000000000000000 ++
  leBytes 96 0x1DA697DE496EADECE1EDA61C6E7C22D20DAB0AF180C4892DDEE32B5FBB4F0E1E584CED50D9424578561A7AE970542C111DF41B7C865E24DDC3B65E0510A2A0DF80819418F25932E726707CBCE2BDA232B4C007520CDC5EFE0CCC9C61C9262E8E ++
  leBytes 96 0xCEDEF8085D5E003F4620554122B6A2DB844237D9ADFFF99EE0DBE50671AF23EEF9AD9D5D6A8B71E7F84377B37A93BB10B9FB59829471C63B1F564EB0099118F0D2D6B88574F5D347B800F568C9A17D6D07BEA37E1F1288C37025EEFE07BEDC55 ++
  leBytes 96 0x60A12EE8D0EBC848098AD8F275C3653F675008D23610E1D6EF32043337E9F1EADA3A01C0949190D890E0DCF178B833DFE79697305148A6DC189BBBAB05E867CFEF5791E2E151B2BBB03663C5409FC3A597E9379C37037EE744CAD73F9131A379 ++
  leBytes 96 0xCF22DCCC885CB9FBBD5EF40953D486AB1DCE69C1894EFD75C625AEF6070E120D345A3BCFBD6A275EF9192C9EDF356487325F7AB1A1F2020E9E7B6C9823F4E6437364CA8EABFA436E3E70B9ACC25A8132AA26AF89ACF621770E6A6A4D2C6328BA ++
  leBytes 96 0xF327F0ABBC29EA70B4986B6C33BE6290E060AFC80ABBB339B3A887CAAF954A6DC3BDCB9012810187BB522A85C27D369F70F9BE60DB53799C2877699416ADD620C2D2DE7D66B9F6CA13DA5C21AA5005FA7F4FC9748B80CE35A3C20D2E4FA4BC02 ++
  leBytes 96 0x8E2AA26354398D844D0191171B6F8E73ABBA50F1DE94AE599AAE13F1C7AC460FFACF55E41E1C49486F6F6DE59166BB192B00C8F0D1F0A810641D327014170170AF22D7F7E9898A6AC61A5FE05CC06CD558597AC2BDE92C67E419B0354F2707EF ++
  leBytes 96 0xDDB07D36A805DA51A9CB586A7912DB23E75BD57C328E7F925BA3F98E98B1005A02F64D1D9153810467A7888E7805CF641EB65F2E3581CCC4415EF59582598E1ED1D123B791A6E0EB0721C26F3CC3F06136FFDB6C00476EBAA929E8FA53BD550 ++
  leBytes 96 0xF13D5D425C72ACCE3ECE8005BCE82840FF4D7903F48B250359E6B87A5523AEA2B57C8A15849E111507A707B59AF7AC872CA8DE43BD99E4F74D8EE8BB65BC01F84108C601B0969AFE833D8BDA7FBA72BCABD24766E87A81460FF6F0DCC47D9AEA ++
  leBytes 96 0x97E674878ACEC84416B49617B6117DF08E776379EEE7A4A55E30B3D6644D952BA0A357576AC602105D905D733392FD1265052EF28EA5773BCCB4E4A3664E31FBF4DC6CD821F7773AA51C88541F2508AF3BBCA205AEF21E99DA01FA3D5638EC51 ++
  leBytes 96 0x53B3C6C1F793F2153217F019BFD740E7BA693B7C3BD84453D5671B3E62C54705FB33CE7D4723B6CEA37266B723BD2DBF007D4ED1A73622295EA751710EBCCA4E075223827D5D578172961C945EDFFFD252101438382D299A515029B5350562A9 ++
  leBytes 96 0x24B07089C83BAFBFBAA81AF730698D72E62DB4250BF0912E9D07E8D6129617859BEDBAC5BE3FDEA07086A039B99EEBAFCEE85CD70502464D37012F44ED7309EA4E0B40B9F90F406877F25CBFFB9EF62BA64A5E016F0C611626DC924AEECD9DF7 ++
  leBytes 96 0x69A8C41CCC40EDC8F71EBCED96FFD733ED63BEFA43E39C641596B2C43FBB75F87DC187CFFC5D37BAD57394593CB7D5B2BF56382586689976BF6F0C754A7BA42E5232B50CB0EFFD5055817B562A075EF0ADF62E53FB628A5BEAA99BE97D6300B1 ++
  leBytes 96 0x290423929943AEDD5ECC46291C64E352166FE0B12D421C82D65885AC1B8A93F41BFD3D1A2BCD3B40A915B0077F1EF29905E8EC59F227E3395D0F9688D2E979F1C5D1B5C9F0ED8ECABC34DC5EF0FF8D2873A85E71DD3201BE5A3BE803A28C2E46 ++
  leBytes 96 0x2D810FCF70AF3F6ED61AC001E8A840513A6669F5A316801BCDE58ADA90C386E2065BB219AB2292484D5E3DA4231432E0635236B31CDF707240914CC0D5A28EF2A1297C2A982D13CFF1210143DA004BB12535286398E85F158E6F7E3BF78769DB ++
  leBytes 96 0x2F9746D00E8CCA9480E92CE774E3C40D53AF8CF92128FCE2393EAB01170A9FC9E9A569FC962DBD5852582AB4B8A127D73966F76465AC3FE791696983F44C2D000E4FA954C7D7C5DE7916F72098F8BD50225B7C7605AD26843D9C9C15C095A832 ++
  leBytes 96 0xA15CC92C486EB47A7E2370B0808DDD8E6506931813E0424FB601EDC004E3CA430AACB7A379A419BDB8B3EA53854F068769AAC3D5CD4260156E2F41CE5FC64CFAA5BDDBF76A3B4FB97AE09E1F95686E07665AC0F2CCCA87CE26B1F3E5AC7373EC ++
  leBytes 96 0xEBB4721B76E1E1BD2B18CC26D500E6025B43DFCE7C5A92FD34B93007EB41309C2B2708A5A28D8649346B3F80F1A7440134215F04F952D52A415D9A17DA4E3F1E2D9E83481F994FA28072C305BFE31B1B73AF8738CF65017C74A9B1988934F437 ++
  leBytes 96 0x5E16C80D2CB8A5923B7CEBE20E622C14DCA520C78DABCDF76B85DC085F2E88AAC506C8634A1552B68D351B83121AECEDE20F9DE5F8E9428765B1A39040A8C02C33058787A8833310A21F42F7A1A6B25120368D5372B5B2C426204F76707C33E7 ++
  leBytes 96 0xE6D362DB62103CE711965BA129BBB2FD9B6144C3323227339DB3C13E81A273F931410846BAC5CEB44A070E429756CCC286593F6A0926EADBA7CE6BF05533D693C44BC0AB9AF15360F4BAB8C3EE87CD0BC286C29AF443CA2E19962FF062E509E9 ++
  leBytes 96 0x9977EDE3A3389F017840F5620CDD54B001B7D02E2D04471BFD2A5CD2E39BE80AF04FF1C61EEDA7812320BA86311C4B8F1EA5104D9811C5639BBF488E73CDE770C0054A0656432571458714F975B21123C00D5E195333286C2D8F557CBE50051E ++
  leBytes 96 0xB1ECF5914D9C295837D76F30B04C9D870EC0CA879840B0D49F4E1157B9229E3046D7EB892A1A8848B2C9A10E944A7A308333937A6F84A84053999C93E2C10298DE74B7D377910BFF8FA64C9A2FA612537E7E5AD985F6928EF629465E7FC86A73 ++
  leBytes 68 0x686672443D405158AAAF0082A88C6A89566AA311A2F03B67F6001CFE64E447CFD227F9D8A06642B5F429F7CDAEEE1DC3795FDA2629200FAA5420A513977C060F487F9F49 ++
  fillBytes 320 0
def recordSig0 : List Byte :=
  leBytes 96 0x4291874CEA8F99821B79E66F603C9E9A9B4971E465A0DA58E48530B1593EEE7D4E1CD566D2C54CA237EDFDE262E8A10096C2B4EEA08FF40F355ABA01000000000000000000000000000000000000000000000000000000000000000000000000 ++
  leBytes 96 0x6F21346834367A5AD61B9F991A64289871A83F24FBC52078EC33F6DF1E6BE64D48DDC4363AFF1FAF929738D823B9F80DE3EE8B6EE21DA51EC1800D6CF3CB66D69127909F60B7126047990CC978908BBDD2575A437A22B157F4830BF501B4852 ++
  leBytes 96 0x42CA95EF0A3F014918A9B75D7ED2056A37923654F0D7060B4831165F3363A8559AB71974017EBE67603B221724A1E916D0E86C4E04FC87C016D70F1288E86E66A6DD1EAFC179EFE39A67DC71B4499338DFFA5C0DBF32FE704F08AA37A5E5F436 ++
  leBytes 96 0xE90C92B788FAA1145C588A6F0E532B128257938B481BD2738678D700AA2C69FFFBC6978891B48D913F753E12E552F20CB34C6FB0B75CA3B4A479085FB8B00C5790F65FFF9B648BEFED5D815B5F44E303BFC2D9CEA3A26C1C2A9ED5A4DCD47FFC ++
  leBytes 96 0xACD45D270E81E402F51F146C20BD4403BC2E07EFC8FEB3356AB0A4735A9C2B09CC80D6A2AC600520028CC5C7D5FA13B29A0FCAE9839CF210A63FB7425180CFFD9EEE99896A7E11AE40D175EF08E18856CEFC1F56E667D4966AE0D117C7CED00 ++
  leBytes 96 0xEC0E18D6DB99C096EDAD87C16ED452164441A8A343369D972B2E737271A74943B706C9D5257E3042876127F3A8533DD7423808495797A2C16271821C0FFCF20BE556508A4B191B047AF5D23A79B07E8188EB20F2DA1AA6F8E23AF390D092B3A ++
  leBytes 96 0x22450CC7AEEFC3355B112A414EDE42F5C699251ABD58F82E94460F8185383B5900C9FBBDE500460CCC924B2C04ED1B06F902A7C2CB854428F437607814170170AF22D7F7E9898A6AC61A5FE05CC06CD558597AC2BDE92C67E419B035E6ABA044 ++
  leBytes 96 0x38E8F2DE8736ECFA2AADE4B8B4713B3D020A37868878A13FF2FCFCA39D650A1B47B2E0C94323C656BFF4CD1BFD1125B90231D651766A2C9882F98DE734B0E5C1941D68C6A7A60940F434ADCB9F1B2BBBE526E19C187D3D30F1F57743F8319B85 ++
  leBytes 96 0xF591DD60E116792BE4E6F5C1019575DF01E81595F0BEFCACA117CE9A5523AEA2B57C8A15849E111507A707B59AF7AC872CA8DE43BD99E4F74D8EE8BB0190FB95A36E740F2A26CA2E62E8CB8270951FEB4EA54D3B7B4535AB1EB55C96CF6382E1 ++
  leBytes 96 0xE423D3442B4A6EBC55D6D9A209EB68529334FC26E0D6DE8FA04090BB731AF830D03F9E8873F911146FA086200CB093C09DE2392D7E646338A56CF0B88BA3468D265349BE81D7752F11951E14BD05AD4C403254BDA6F919DF9E6264AA146CBF54 ++
  leBytes 96 0x10E20989E66EDF40755BC5E3B3F5E4E855C4DC1037BBA59D094CC02641B7043F8E73F2CC7E8E75DC85995A6510F4F7D24E7413433B784CCF0692183E67D09C566A8F89864FA7BE88BBA2504787E89439430AF77ECCA6EA34DF1BB57A521350CD ++
  leBytes 96 0xAD9A889B3017B2618B8C660283A1482EF09F2D969D7A6B890BD084E826EE46CAC1643C44CFD77A6F9683E2E1FA414F89127D0C9E45BE478AD27DC3D9ED3DCAD371FD0A2FEBDB7E347F9B9CC0D7DD1D2A44F9252C2B4B6087F0B3EFE52CF95799 ++
  leBytes 96 0x676E0CDD33783BCC15F5EF4D6158454C381381893B31919C88E8B8C7106B9248D67BCDD76A1E73F6842065BDA5B25080661F2DFB8894A449B16C1C5F7283E7BE7CD7DBAD0A4AC108DB3A2CDAF4652E5362F99655DB3B6F5565517ADB892623B2 ++
  leBytes 96 0xE38462106993E80790EF5E4ACC138E52DF2EF56856167CF1E1A0267716E4EB020D242A42F6469D0F3B995F15C943D3BEFF9FD3AB617271F75F1ACA91E66E12D03DBD57BDDCCBF2A8B917567FF4D20196C42F635283F3EDE5FE2B55D9E0974BE1 ++
  leBytes 96 0xD52BEF0F1E09855B823C245977DA882F1F1B80E5FF761793D0BFD4794143E79E515195A77223C5A37DA317F8B9BC84F2C6EE8D6A731FB55789405F9458D43B5285409466DDFF2F078143B55F80CF2F38357F2B63895826371948F65BB5C06B96 ++
  leBytes 96 0xE6512C75AAA037543E6D08F6BAF220C0AEF524FEC0A122A12C6666E1170A9FC9E9A569FC962DBD5852582AB4B8A127D73966F76465AC3FE79169698389EF210B3E5F9B1918DC7581A529C5651AFFEAC3BED23B35EFB447B5A8F88AE62C110CB7 ++
  leBytes 96 0x2849138CAD3EF8E9EA8735BA0981D0E34F65EACD4089029800B62564E200F8E0C3E74A428946F291AAE8C020FD6260124CA45E3F507E0E1625217CA95C1857296A9828545EBD323CBECE7A09A7FC4D3776612670BEC0C05C4AA705F6A3B966C4 ++
  leBytes 96 0x3A2948C9373AC601056594EA5DCA74E9D6F1BA9B4967AE4D102BA1BF2EFF7E947D937D662DD6F429254DE26D5EF4C877F69F8FCD34AAB532683E8C22AD42ABC8EFE69C9A69CCA3A8B2A7703EBD49C6B29F7AE82EE83ADB6C8AE72E1EE381D394 ++
  leBytes 96 0x6C6D9434EB0C8E0476CBDE1AC4E77CA9764F97A98B5D85FC5FE8BFAA5D6C84A22A83EABA0CA874B4E1DEE4C9D9D9877103FE93820BABB061BF5DF968ABEE9705DA5295B05CA07775A81AA8530DD619F3B06DFCF4E7C8F663C272838F68771283 ++
  leBytes 96 0x9D67A081B69E8B0DB9C66D29FFE10BA6C3DB0389F476AEDFFAE2182508A6481A84E9739967F71B8B3F87C7405CCE797E97C4B782D5F691D72DA83C0DF07B746469CBB08393E71B1B2B46E7FD1348D22DCC40D78ADEC41DB7817AA9C5FCE73499 ++
  leBytes 96 0xD14C6809E86C4CD289335FDB9BF8FF5395A7B67F244E08A31EB6FEAC3040B19D24936A3B8F888D292C432E8DA01F67B9C6A7CA4A58FFF2D0731302668780A0229AD9DA9E5437DF9DC29ABC6E9D97F4AF1A9E8665817771BD28B0F0E690548B25 ++
  leBytes 96 0xB1ECF5914D9C295837D76F30B04C9D870EC0CA879840B0D49F4E1157B47D99128AA4E1ECBF422BF740B11AE0452B63D93F249433758BF311C35F82E3F6A889570150FD72F7D92F4388DABE380E19308765179AD92CE24CDBD27484D18493F09E ++
  leBytes 68 0x47C16625254996943CC46B5F8AF7F2C820F983D31D5D1AFF41A2A7A59627CD51D227F9D8A06642B5F429F7CDAEEE1DC3795FDA2629200FAA5420A513977C060F487F9F49 ++
  fillBytes 320 0

/-- A chip record of a repair map without entries, trims of 64 bytes, a helper of 64 bytes and a certificate; VERSION 5, that root key. -/
def record0 : List Byte :=
  bytesOf 64 [(0, 4, 0x44565748), (4, 2, 1), (6, 2, 4), (24, 4, 5)] ++ rootKey ++ fillBytes 60 0 ++
    bytesOf 64 [(0, 2, 1), (4, 4, 256), (8, 4, 16), (16, 2, 2), (20, 4, 320), (24, 4, 64), (32, 2, 3), (36, 4, 384), (40, 4, 64), (48, 2, 4), (52, 4, 448), (56, 4, 10021)] ++ fillBytes 192 0 ++
    bytesOf 10048 [(0, 4, 0x43565748), (4, 2, 1)]

/-- A manifest of one block with six sections of 64 bytes, the tree root of a body of 65,536 zeros, that root key. -/
def manifest0 : List Byte :=
  bytesOf 32 [(0, 4, 0x42565748), (4, 2, 1), (6, 2, 6), (8, 4, 1), (12, 4, 5)] ++ leBytes 32 73284400154059661865258654850871879618418203523390632099515630834054657402773 ++ rootKey ++ fillBytes 124 0 ++
    (List.range 6).flatMap (fun i => bytesOf 32 [(0, 2, i + 1), (4, 4, 64 * i), (8, 4, 64), (16, 1, 0xFF)]) ++ fillBytes 576 0

/-- Manifest and signature as they are fetched. -/
def bundle0 : List Byte := manifest0 ++ manifestSig0

/-- A device that fetches a bundle of one block without a body. -/
def fetching0 : State := { State.reset with boot := { phase := .fetching, bundleLen := 2, recordLen := 12996 } }

/-- What the letterbox splits what it fetches into. -/
def fetched0 : Fetched := fetching0.boot.splitFetch bundle0 (record0 ++ recordSig0)

theorem witness_BootChecks_computed :
    manifest0.length = 1024 ∧ record0.length = 10496 ∧ rootPk manifest0 = rootKey ∧ rootPk record0 = rootKey ∧ manifestSig0.length = 2500 ∧ recordSig0.length = 2500 ∧
    sectionBad manifest0 = none ∧
    storeBad State.reset.store = none ∧ formatItem (recordChecks record0) = none ∧ (record0.drop 32).take 32 = fillBytes 32 0 ∧ recordItem record0 3 = fillBytes 64 0 ∧
    fetching0.rolledBack (fieldAt manifest0 16 1) (fieldAt manifest0 12 4) = false ∧
    fetching0.rolledBack 15 (fieldAt record0 24 4) = false ∧ (mfEntries manifest0).find? (fun e => fetching0.rolledBack (meCounter e) (meVersion e)) = none ∧
    signatureBytes rootKey = 2500 := by decide +kernel

theorem witness_BootChecks_manifest : formatItem (manifestChecks (padTo 65536 bundle0) 2) = none := by
  obtain ⟨l, -, -, -, g, -⟩ := witness_BootChecks_computed
  have n : bundle0.length = 3524 := by rw [bundle0, List.length_append, l, g]
  rw [padTo_eq _ _ (by omega), n]
  unfold manifestChecks
  rw [zeroRun_fill _ _ 10917 _ (by omega)]
  decide +kernel

/-- What the letterbox splits bundle and record into. -/
theorem fetched0_parts :
    fetched0.manifest = manifest0 ∧ fetched0.manifestSig = manifestSig0 ∧ fetched0.block = padTo 65536 bundle0 ∧ fetched0.body = fillBytes 65536 0 ∧ fetched0.record = record0 ∧ fetched0.recordSig = recordSig0 := by
  obtain ⟨l, lr, pm, -, lg, lh, h⟩ := witness_BootChecks_computed
  have sb : signatureBytes rootKey = 2500 := h.2.2.2.2.2.2.2.2
  have n : bundle0.length = 3524 := by rw [bundle0, List.length_append, l, lg]
  have pad : padTo 65536 bundle0 = manifest0 ++ (manifestSig0 ++ fillBytes 62012 0) := by rw [padTo_eq _ _ (by omega), n, bundle0, List.append_assoc]
  have m : (padTo 65536 bundle0).take 1024 = manifest0 := by rw [pad, ← l, List.take_left]
  have pk : rootPk (padTo 65536 bundle0) = rootKey := by
    rw [← pm, ← m]; unfold rootPk; rw [List.drop_take, List.take_take]; rfl
  have rest : (padTo 65536 bundle0).drop 1024 = manifestSig0 ++ fillBytes 62012 0 := by rw [pad, ← l, List.drop_left]
  have record : padTo 12996 (record0 ++ recordSig0) = record0 ++ recordSig0 := by
    rw [padTo_eq _ _ (by rw [List.length_append]; omega), List.length_append, lr, lh]; exact List.append_nil _
  have cutAt : recordBodyLen (rootPk (padTo 65536 bundle0)) 12996 = record0.length := by rw [recordBodyLen, pk, sb, lr]
  have f : fetched0 = { manifest := manifest0, block := padTo 65536 bundle0, body := fillBytes 65536 0, record := record0, recordSig := recordSig0 } := by
    show Fetched.mk _ _ _ _ _ = _
    rw [m, show (fetching0.boot.recordLen) = 12996 from rfl, show (fetching0.boot.bundleLen) = 2 from rfl, cutAt, record, List.take_left, List.drop_left, List.drop_eq_nil_of_le (by omega),
      padTo_eq _ [] (Nat.zero_le _), show 65536 * (2 - 1) - ([] : List Byte).length = 65536 from by decide, List.nil_append]
  rw [f]
  refine ⟨rfl, ?_, rfl, rfl, rfl, rfl⟩
  rw [Fetched.manifestSig, pm, sb, rest, List.take_take, show min 2500 9893 = manifestSig0.length from lg.symm ▸ rfl, List.take_left]

/-- What is left for that bundle and record to pass: the key's hash in the ROM and the secret, which are constants without a body; both signatures and the tree root, which the model computes and which hold (their evaluation takes too long for a proof). -/
def Accepts : Prop :=
  Config.romKeyHash = shake256 rootKey ∧ shake256 (2 :: Config.pufSecret [] (fillBytes 64 0)) = fillBytes 32 0 ∧ xmssVerify rootKey manifest0 manifestSig0 = true ∧
    xmssVerify rootKey record0 recordSig0 = true ∧ treeRoot (mfBlocks manifest0) (fillBytes 65536 0) = (manifest0.drop 32).take 32

/-- Every check of the boot passes on this bundle and record. -/
theorem witness_BootChecks (h : Accepts) : fetching0.bootError fetched0 = none := by
  obtain ⟨h1, h2, h3, h4, h5⟩ := h
  obtain ⟨-, lr, pm, pr, -, -, c2, c3, c4, d, e, v1, v2, v3, -⟩ := witness_BootChecks_computed
  obtain ⟨m, g, b, y, r, q⟩ := fetched0_parts
  refine State.bootError_none fetching0 fetched0 rfl ?_ ?_ ?_ ?_ c3 ?_ ?_ ?_ ?_ ?_ ?_ ?_ ?_ ?_
  all_goals simp only [m, g, b, y, r, q, pm, pr, State.bootSecret, d, e]
  · exact h1.symm
  · exact h3
  · exact witness_BootChecks_manifest
  · exact c2
  · exact v1
  · exact ⟨by rw [lr], fun n => by rw [n] at lr; exact absurd lr (by decide)⟩
  · exact h4
  · exact c4
  · exact h2
  · exact v2
  · exact h5
  · exact v3

theorem witness_BootChecks_fails :
    let s : State := { fetching0 with boot := { fetching0.boot with avsFailed := [1] } }
    s.boot.avsFailed.min? = some 1 ∧ fetching0.boot.avsFailed = [] ∧ xmssVerify (fillBytes 68 0) [] [] = false := by decide +kernel

theorem witness_Letterbox :
    let p := powered {}
    let w : State := { boot := { phase := .waiting } }
    let h := fun n => ({ State.reset with boot := { phase := .fetching, holdup := some n } } : State)
    ((p.phys.powered = true ∧ p.phys.perst = false ∧ p.phys.boscReady = true) ∧ ({} : State).boot.phase = .reset) ∧ w.boot.phase = .waiting ∧ (up.boot.phase ≠ .waiting ∧ up.boot.phase ≠ .failed) ∧
    (fetching0.boot.phase = .fetching ∧ fetching0.boot.holdup = none ∧ fetching0.boot.avsFailed = [] ∧ itemGen fetching0.store 1 < 2 ^ 32 - 1) ∧
    ((h 0).boot.holdup = some 0 ∧ (h 199).boot.holdup = some 199 ∧ itemGen (h 0).store 1 < 2 ^ 32 - 1) ∧
    (({ boot := { phase := .starting } } : State).boot.phase = .starting ∧ ∀ w ∈ ({} : State).phys.avs, w.purpose ≠ 1) := by decide +kernel

/-- The bundle and record that the letterbox fetches pass; every check made before the read of the body passes too. -/
theorem witness_Letterbox_fetched (h : Accepts) :
    fetching0.fetchError .noManifest = some (1, 0) ∧ fetching0.fetchError (.fetched bundle0 (record0 ++ recordSig0)) = none ∧
    ∀ e ∈ fetching0.manifestErrors fetched0 ++ fetching0.recordErrors fetched0, e = none := by
  have b := witness_BootChecks h
  refine ⟨rfl, b, fun e he => List.findSome?_eq_none_iff.mp b e ?_⟩
  simp only [List.mem_append] at he ⊢
  exact .inl (he.elim (fun x => .inl (.inr x)) .inr)

theorem witness_CounterStoreWrites :
    let s := { up with store := State.reset.store, boot := { phase := .ready, manifest := manifest0, commit := some ([(3, 9), (15, 2)], 0) } }
    (itemGen s.store 17 < 2 ^ 32 - 1 ∧ (currentCopy s.store 17).isSome = true) ∧ (s.ready = true ∧ up.boot.commit = none) ∧
    ([(3, 9)] ++ [(15, 2)] = ([(3, 9), (15, 2)] : List (Nat × Nat)) ∧ (∀ mv ∈ ([3000, 2999] : List Nat).take 1, 3000 ≤ mv) ∧ ([3000, 2999] : List Nat).getD 1 0 < 3000) ∧
    (s.boot.commit = some ([(3, 9), (15, 2)], 0) ∧ ([(3, 9), (15, 2)].map (·.1) : List Nat).Nodup ∧ ∀ e ∈ ([(3, 9), (15, 2)] : List (Nat × Nat)), e.1 < 16 ∧ itemGen s.store (2 + e.1) < 2 ^ 32 - 1) ∧
    (({ s with boot := { s.boot with commit := some ([], 0) } } : State).boot.commit = some ([], 0)) := by decide +kernel

theorem witness_Franking :
    let s := { up with store := State.reset.store }
    let quote : List Byte := 1 :: fillBytes 35 0
    let cert : List Byte := [2, 0, 0, 0]
    let last := { s with store := s.store.set 0 { value := 2 ^ 20, gen := 1, crc := (crc32 (leBytes 8 (2 ^ 20) ++ leBytes 4 1)).toNat }, boot := { phase := .ready, exhaustedPosted := true } }
    (fieldAt quote 1 3 = 0 ∧ fieldAt quote 0 1 = 1 ∧ s.ready = true ∧ itemValue s.store 0 < 2 ^ 20 ∧ itemGen s.store 0 < 2 ^ 32 - 1) ∧ (fieldAt cert 1 3 = 0 ∧ fieldAt cert 0 1 = 2) ∧
    fieldAt [1, 0, 1, 0] 1 3 ≠ 0 ∧ State.reset.ready = false ∧ (2 ^ 20 ≤ itemValue last.store 0 ∧ last.boot.exhaustedPosted = true ∧ last.ready = true) ∧ s.boot.commit = none ∧ last.boot.commit = none := by decide +kernel

theorem witness_FencesAndRepair :
    let run := { (inStep {}) with boot := { phase := .ready } }
    let twice : State := { up with repair := { fenced := [5] } }
    let ppr := fun (x : Section) => ({ up with sects := sect0 x, regs := { eff := [(regKey oPprHi 0, 0x80)] } } : State)
    up.ready = true ∧ 32 < (33 : Word).toNat % 4096 % 64 ∧ (run.ready = true ∧ run.clusterBusy 0 = true) ∧ (twice.clusterBusy 0 = false ∧ 5 ∈ twice.repair.fenced ∧ 6 ∉ twice.repair.fenced) ∧
    (up.ltnOf 31 = some 31 ∧ up.ltnOf 32 = none) ∧ up.repair.failed = false ∧ ({ repair := { failed := true } } : State).repair.failed = true ∧
    ((ppr {}).ready = true ∧ (ppr {}).repair.ppr = none ∧ ((ppr {}).setReg oPprCmd 0).pprBusy = false ∧ inHbm (ppr {}).pprAddr = true) ∧ ((ppr { phase := .running }).setReg oPprCmd 0).pprBusy = true ∧
    ({ repair := { ppr := some (0x8000000000, true) } } : State).repair.ppr = some (0x8000000000, true) := by decide +kernel

/-! ### Witnesses: the whole machine -/

theorem witness_ResetState_values :
    State.reset.boot.phase = .reset ∧ (∀ k, k < 16 → (State.reset.sectN k).phase = .off) ∧ (∀ i, i < 18 → itemValue State.reset.store i = 0) ∧ State.reset.hbm = [] ∧ State.reset.tiles = [] ∧
    State.reset.reg oChipId = 0xFFFF := by decide +kernel
theorem witness_CounterStoreStaysValid : storeOk State.reset.store := by
  unfold storeOk; decide +kernel
theorem witness_steps :
    let s := { State.reset with pending := [.bypass] }
    storeOk s.store ∧ itemGen s.store 0 < 2 ^ 32 - 1 ∧ s.hbm.wf = true ∧ step s = goes { s with pending := [], phys := { s.phys with tdo := some false }, reply := .data 0 } ∧
    exec .bypass State.reset = goes { State.reset with phys := { State.reset.phys with tdo := some false }, reply := .data 0 } :=
  ⟨witness_CounterStoreStaysValid, by decide +kernel, rfl, rfl, rfl⟩

/-- Hypotheses of PostmarksFollowInACycle at both ends of the range; the examples are the wrap that R58 gives and a step across it. -/
theorem witness_PostmarksFollowInACycle :
    (1 ≤ 0x7FFFFFFF ∧ 0x7FFFFFFF < 2 ^ 31 ∧ 1 ≤ 1 ∧ 1 < 2 ^ 31) ∧ postSucc 0x7FFFFFFF = 1 ∧ postDist 0x7FFFFFFF 1 = 1 ∧ postLater 0x7FFFFFFF 1 = true ∧ postLater 1 0x7FFFFFFF = false := by decide +kernel

/-! ### Values known from outside the model -/

/-- The check value of the IEEE 802.3 CRC-32 over the digits 1 to 9. -/
theorem test_crc32 : crc32 [0x31, 0x32, 0x33, 0x34, 0x35, 0x36, 0x37, 0x38, 0x39] = 0xCBF43926 := by decide +kernel
/-- SHAKE256 of the empty message, the first eight bytes (FIPS 202). -/
theorem test_shake256 : (shake256 []).take 8 = [0x46, 0xB9, 0xDD, 0x2B, 0x0B, 0xA8, 0x8D, 0x13] := by decide +kernel
/-- IEEE 754 single precision: 1 + 2^-24 ties to even, 1/3 rounds up, the square root of 2, a sum that overflows, a product that is subnormal. -/
theorem test_fp32 :
    fadd 0x3F800000 0x33800000 = 0x3F800000 ∧ fdiv 0x3F800000 0x40400000 = 0x3EAAAAAB ∧ fsqrt 0x40000000 = 0x3FB504F3 ∧ fadd 0x7F7FFFFF 0x7F7FFFFF = 0x7F800000 ∧
    fmul 0x00800000 0x3F000000 = 0x00400000 ∧ ffma 0x3F800001 0x3F800001 0xBF800002 = 0x28800000 := by decide +kernel

/-- EXP2 of -1.5, the example after R177. -/
theorem test_exp2 : exp2 0xBFC00000 = 0x3EB504F3 := by decide +kernel

/-- The tree over five partials, the example after R143: ((p0 + p1) + (p2 + p3)) + p4, and another order that R141 rules out. -/
theorem test_partials :
    let add := fun l r => (combineAcc false l r).1
    let p1 : Acc := 0x3E20000000
    add (add (add 0x3FF0000000 p1) (add p1 0)) 0x3E30000000 = 0x3FF0000001 ∧ add (add 0x3FF0000000 (add p1 p1)) 0x3E30000000 = 0x3FF0000002 := by decide +kernel

/-- Frame 10 of the example after R387: 180 flits over VC1 to a node by route 300. -/
theorem test_frame_header :
    let m : Mess := { sect := 1, route := 300, node := 20, dest := 0, circ := false, isPartial := true, dst := 0, parts := [(0, fillBytes 11520 0)], source := 0 }
    (messFrames 1 m).length = 45 ∧ ((messFrames 1 m)[10]?.map (·.header)) = some 0x0050000000025869 := by decide +kernel

/-- Host traffic from E-11 goes west along row 2 to global column 0, then north to W-00: the example after R19. -/
theorem test_plane_path : planePath 43 .pcie = [43, 42, 41, 40, 11, 10, 9, 8, 4, 0] := by decide +kernel

/-- One step of a chain, computed outside the model with the algorithms of RFC 8391 and SHAKE256. -/
theorem test_xmss :
    (wotsChain (fillBytes 32 0) { layer := 1, tree := 2, a := 3, b := 5 } 7 1 ((List.range 32).map (BitVec.ofNat 8))).take 8 = [192, 217, 190, 246, 198, 98, 249, 103] := by decide +kernel
/-- The signature sizes of R402's table. -/
theorem test_signature_sizes : xmssSets.map (fun e => e.2.bytes) = [2500, 2692, 2820, 4963, 9251, 5605, 9893, 18469, 8392, 14824, 27688] := by decide

end Sys2Proof.Tests
end

section
/-! SUPPORT. What every step keeps (O59): each function of the model that answers a state keeps the canonical form of HBM,
the queue, and whatever a write of one item keeps of the counter store. One lemma per function, in the model's order; each is assembled from the lemmas of the functions it calls. -/

namespace Sys2Proof.Machine

section
variable {α : Type} [DecidableEq α] {d : α}

theorem Sparse.above_append {m m' : Sparse α} {lo hi : Nat} (hl : lo ≤ hi) (hm : Sparse.above d lo m = true) (hb : ∀ e ∈ m, e.1 < hi)
    (hm' : Sparse.above d hi m' = true) : Sparse.above d lo (m ++ m') = true := by
  induction m generalizing lo with
  | nil => exact Sparse.above_mono d _ hl hm'
  | cons e m ih =>
    simp only [Sparse.above, List.cons_append, Bool.and_eq_true, decide_eq_true_eq] at hm ⊢
    exact ⟨hm.1, ih (hb e (.head _)) hm.2 fun e he => hb e (.tail _ he)⟩

theorem Sparse.above_run {xs : List α} {lo : Nat} :
    Sparse.above d lo (Sparse.run d lo xs) = true ∧ ∀ e ∈ Sparse.run d lo xs, e.1 < lo + xs.length := by
  induction xs generalizing lo with
  | nil => simp [Sparse.run, Sparse.above]
  | cons x xs ih =>
    obtain ⟨ha, hb⟩ := ih (lo := lo + 1)
    have hb' (e) (he : e ∈ Sparse.run d (lo + 1) xs) : e.1 < lo + (x :: xs).length := by
      have := hb e he
      simp only [List.length_cons]
      omega
    unfold Sparse.run
    split
    · exact ⟨Sparse.above_mono d _ (by omega) ha, hb'⟩
    · refine ⟨by simp [Sparse.above, *], fun e he => ?_⟩
      rcases List.mem_cons.1 he with rfl | he
      · simp
      · exact hb' e he

theorem Sparse.above_of_filter {m : Sparse α} {p : Nat × α → Bool} {lo hi : Nat} (hm : Sparse.above d lo m = true) (hp : ∀ e, p e = true → hi ≤ e.1) :
    Sparse.above d hi (m.filter p) = true := by
  induction m generalizing lo with
  | nil => rfl
  | cons e m ih =>
    simp only [Sparse.above, Bool.and_eq_true, decide_eq_true_eq] at hm
    obtain ⟨⟨_, hx⟩, hm⟩ := hm
    by_cases he : p e = true
    · simp only [List.filter_cons, he, if_true, Sparse.above, Bool.and_eq_true, decide_eq_true_eq]
      exact ⟨⟨hp e he, hx⟩, Sparse.above_filter d p m hm⟩
    · simpa [List.filter_cons, he] using ih hm

theorem Sparse.wf_putRun {m : Sparse α} {lo : Nat} {xs : List α} (h : Sparse.wf d m = true) : Sparse.wf d (Sparse.putRun d m lo xs) = true := by
  have hr := Sparse.above_run (d := d) (xs := xs) (lo := lo)
  have high : Sparse.above d (lo + xs.length) (m.filter fun e => decide (lo + xs.length ≤ e.1)) = true :=
    Sparse.above_of_filter h fun e he => by simpa using he
  have low := Sparse.above_append (Nat.zero_le lo) (Sparse.above_filter d (fun e => decide (e.1 < lo)) m h)
    (fun e he => by simpa using (List.mem_filter.1 he).2) hr.1
  refine Sparse.above_append (Nat.zero_le _) low (fun e he => ?_) high
  rcases List.mem_append.1 he with he | he
  · have := (List.mem_filter.1 he).2
    simp at this
    omega
  · exact hr.2 e he

end

/-- What a command is to keep: the canonical form of HBM where `canonical` asks for it, the queue, and a property of the counter store. -/
structure Upkeep where
  canonical : Prop
  queue : List Instr
  store : Vector CsCopy 36 → Prop

/-- The property of the counter store survives the write of any item: the counter store changes in no other way. -/
def Upkeep.Written (U : Upkeep) : Prop := ∀ v i x, U.store v → U.store (writeItem v i x)

/-- s meets what U asks for. -/
structure Kept (U : Upkeep) (s : State) : Prop where
  hbm : U.canonical → s.hbm.wf = true
  pending : s.pending = U.queue
  store : U.store s.store

/-- The answer is a next state, and it meets what U asks for. -/
def Goes (U : Upkeep) (o : Host.Outcome State Fault Refusal) : Prop := ∃ t, o = .next t ∧ Kept U t

section
variable {U : Upkeep} {s t : State}

theorem Goes.next (h : Kept U s) : Goes U (.next s) := ⟨s, rfl, h⟩

theorem Kept.update (h : Kept U s) (e : (t.hbm, t.pending, t.store) = (s.hbm, s.pending, s.store)) : Kept U t := by
  simp only [Prod.mk.injEq] at e
  obtain ⟨hm, hp, hs⟩ := e
  exact ⟨hm ▸ h.hbm, hp ▸ h.pending, hs ▸ h.store⟩

/-- `Kept.update` in the form that `grind` matches against an updated record. -/
theorem Kept.otherFields (h : Kept U s) {a b c d e f g i j k l m n o p q r t u v w x} : Kept U {
    tiles := a, spares := b, sects := c, hbm := s.hbm, hbmBad := d, regs := e, glbPend := f, glbBegun := g, glbNext := i, rings := j, posted := k,
    reply := l, pcie := m, msgs := n, nodes := o, slices := p, pipes := q, links := r, snapRx := t, boot := u, store := s.store, phys := v, repair := w,
    tstamp := x, pending := s.pending } := h.update rfl

theorem Kept.ite {c : Prop} [Decidable c] (hs : Kept U s) (ht : Kept U t) : Kept U (if c then s else t) := by
  split <;> assumption

theorem Kept.fst_ite {α : Type} {c : Prop} [Decidable c] {p q : State × α} (hp : Kept U p.1) (hq : Kept U q.1) : Kept U (if c then p else q).1 := by
  split <;> assumption

theorem Kept.foldl {α : Type} {f : State → α → State} {l : List α} (h : Kept U s) (hf : ∀ t a, Kept U t → Kept U (f t a)) :
    Kept U (l.foldl f s) :=
  List.foldlRecOn l f h fun t ht a _ => hf t a ht

theorem Kept.foldl_fst {α β : Type} {f : State × α → β → State × α} {l : List β} {a : State × α} (h : Kept U a.1)
    (hf : ∀ b x, Kept U b.1 → Kept U (f b x).1) : Kept U (l.foldl f a).1 :=
  List.foldlRecOn (motive := fun b => Kept U b.1) l f h fun b hb x _ => hf b x hb

/-! What the operations of State.lean and the posting of records keep. -/

theorem Kept.posted (h : Kept U s) (p : PostsOnly s t) : Kept U t := by
  obtain ⟨_, _, _, rfl⟩ := p
  exact h.update rfl

theorem Kept.setReg (h : Kept U s) {n v} : Kept U (s.setReg n v) := by
  unfold State.setReg
  exact h.update rfl

theorem Kept.count (h : Kept U s) {n m v} : Kept U (s.count n m v) := h.update rfl
theorem Kept.setTileN (h : Kept U s) {n x} : Kept U (s.setTileN n x) := h.update rfl
theorem Kept.setTile (h : Kept U s) {n x} : Kept U (s.setTile n x) := h.update rfl
theorem Kept.setSectN (h : Kept U s) {n x} : Kept U (s.setSectN n x) := h.update rfl
theorem Kept.hostWrite (h : Kept U s) {n x} : Kept U (s.hostWrite n x) := h.update rfl
theorem Kept.msix (h : Kept U s) {n} : Kept U (s.msix n) := h.update rfl
theorem Kept.setRing (h : Kept U s) {n x} : Kept U (s.setRing n x) := h.update rfl
theorem Kept.setLinkN (h : Kept U s) {n x} : Kept U (s.setLinkN n x) := h.update rfl
theorem Kept.setPipe (h : Kept U s) {n x} : Kept U (s.setPipe n x) := h.update rfl
theorem Kept.mapTiles (h : Kept U s) {k f} : Kept U (s.mapTiles k f) := h.foldl fun _ _ h => h.setTileN
theorem Kept.writeBack (h : Kept U s) {r i} : Kept U (s.writeBack r i) := h.posted (postsOnly_writeBack ..)
theorem Kept.announce (h : Kept U s) {r b} : Kept U (s.announce r b) := h.posted (postsOnly_announce ..)
theorem Kept.ringDrain (h : Kept U s) {r n} : Kept U (s.ringDrain r n) := h.posted (postsOnly_ringDrain ..)
theorem Kept.event (h : Kept U s) {c k d} : Kept U (s.event c k d) := h.posted (postsOnly_event ..)
theorem Kept.deadLetter (h : Kept U s) {r q w a o n} : Kept U (s.deadLetter r q w a o n) := h.posted (postsOnly_deadLetter ..)
theorem Kept.complete (h : Kept U s) {k c} : Kept U (s.complete k c) := h.posted (postsOnly_complete ..)
theorem Kept.postbook (h : Kept U s) {a k r c p} : Kept U (s.postbook a k r c p) := h.posted (postsOnly_postbook ..)
theorem Kept.hbmWrite (h : Kept U s) {a bs} : Kept U (s.hbmWrite a bs) := ⟨fun c => s.hbmWrite_wf _ _ (h.hbm c), h.pending, h.store⟩

theorem Kept.done (h : Kept U s) {k c} : Kept U (s.done k c) := h.setSectN.complete.foldl fun _ _ h => h.complete
theorem Kept.hbmUncorr (h : Kept U s) {sect u} : Kept U (s.hbmUncorr sect u) := h.event
theorem Kept.sendBarrier (h : Kept U s) {l kind index bseq data} : Kept U (s.sendBarrier l kind index bseq data) := h.setLinkN
theorem Kept.sendAborts (h : Kept U s) {sp except index bseq chip code} : Kept U (s.sendAborts sp except index bseq chip code) :=
  h.foldl fun _ _ h => h.sendBarrier
theorem Kept.abortRun (h : Kept U s) {k} : Kept U (s.abortRun k) := by grind [State.abortRun, Kept.done]
theorem Kept.sealPoint (h : Kept U s) {k} : Kept U (s.sealPoint k) := by grind [State.sealPoint, Kept.setSectN, Kept.otherFields]
theorem Kept.faultSectFrom (h : Kept U s) {k code chip src} : Kept U (s.faultSectFrom k code chip src) := by
  grind [State.faultSectFrom, Kept.sealPoint, Kept.abortRun, Kept.mapTiles, Kept.setSectN, Kept.sendAborts]
theorem Kept.faultSect (h : Kept U s) {k code} : Kept U (s.faultSect k code) := h.faultSectFrom
theorem Kept.failChip (h : Kept U s) {cause loc} : Kept U (s.failChip cause loc) :=
  h.ite (.event (.foldl (.update h (by rfl)) fun _ _ h => h.faultSect))
theorem Kept.reportFault (h : Kept U s) {k ltn f} : Kept U (s.reportFault k ltn f) := .setTileN (.ite (.update h.event (by rfl)) h.event)
theorem Kept.stopFaulted (h : Kept U s) {k} : Kept U (s.stopFaulted k) := by grind [State.stopFaulted, Kept.faultSect, Kept.reportFault, Kept.foldl]
theorem Kept.idleTick (h : Kept U s) : Kept U (idleTick s) := .update h (by rfl)

/-! What Machine/Access.lean keeps. -/

theorem Kept.faultTileAt (h : Kept U s) {fpc ltn fcode faddr} : Kept U (s.faultTileAt fpc ltn fcode faddr) := h.setTileN
theorem Kept.faultTile (h : Kept U s) {ltn fcode faddr} : Kept U (s.faultTile ltn fcode faddr) := h.faultTileAt
theorem Kept.clocked (h : Kept U s) {n} {f : State → State} (hf : ∀ t, Kept U t → Kept U (f t)) : Kept U (s.clocked n f) :=
  h.ite (hf s h)
theorem Kept.netCount (h : Kept U s) {cluster i n} : Kept U (s.netCount cluster i n) := h.count
theorem Kept.fencedLetter (h : Kept U s) {write ltn addr len} : Kept U (s.fencedLetter write ltn addr len) := h.deadLetter.netCount
theorem Kept.heldLetter (h : Kept U s) {ltn w} : Kept U (s.heldLetter ltn w) := by grind [State.heldLetter, Kept.deadLetter]
theorem Kept.judgeRows (h : Kept U s) {ltn w rows} : Kept U (s.judgeRows ltn w rows) := by
  grind [State.judgeRows, Kept.setTileN, Kept.faultTile, Kept.heldLetter, Kept.foldl]
theorem Kept.outsideWrite (h : Kept U s) {ltn a bs source origin postmark} : Kept U (s.outsideWrite ltn a bs source origin postmark) := by
  grind [State.outsideWrite, Kept.fencedLetter, Kept.judgeRows, Kept.deadLetter]
theorem Kept.loadWrite (h : Kept U s) {ltn gs off bs} : Kept U (s.loadWrite ltn gs off bs) := h.foldl fun _ _ h => h.outsideWrite

theorem Kept.storeTouchAt (h : Kept U s) {pc n a len src org} : Kept U (s.storeTouchAt pc n a len src org) := by
  unfold State.storeTouchAt
  split
  · exact h.fencedLetter
  · extract_lets x cs counted checked judged
    have hc : Kept U checked := by grind [h.setTileN, Kept.faultTileAt]
    have hj : Kept U judged := by grind [hc.faultTileAt, Kept.deadLetter]
    grind [hj.deadLetter]

theorem Kept.storeTouch (h : Kept U s) {ltn a n source origin} : Kept U (s.storeTouch ltn a n source origin) := h.storeTouchAt
theorem Kept.recordTouch (h : Kept U s) {sect ltn k} : Kept U (s.recordTouch sect ltn k) := by grind [State.recordTouch, Kept.storeTouchAt]
theorem Kept.padTouch (h : Kept U s) {ltn a n} : Kept U (s.padTouch ltn a n) := by
  grind [State.padTouch, Kept.fencedLetter, Kept.setTileN, Kept.faultTile]
theorem Kept.padWrite (h : Kept U s) {ltn a bs} : Kept U (s.padWrite ltn a bs) := by
  grind [State.padWrite, Kept.fencedLetter, Kept.faultTile, Kept.setTileN]

/-! What Machine/SeqCommands.lean keeps. -/

theorem Kept.seqStep (h : Kept U s) {t0 want} : Kept U (s.seqStep t0 want) := h.clocked fun _ h => h.setTile

/-! What Machine/QueueCommands.lean keeps. -/

theorem Kept.judged {k n js} : ∀ {s}, Kept U s → Kept U (s.judged k n js) := by
  induction js with
  | nil => exact fun h => h
  | cons j js ih => exact fun h => ih (by grind [Kept.event, Kept.deadLetter])

theorem Kept.startEntry (h : Kept U s) {t0 q e} : Kept U (s.startEntry t0 q e) := by
  grind [State.startEntry, Kept.judged, Kept.deadLetter, Kept.setTile]
theorem Goes.execCommandStart (h : Kept U s) {t0 q} : Goes U (execCommandStart t0 q s) := .next (by grind [Kept.clocked, Kept.startEntry])
theorem Goes.execCommandComplete (h : Kept U s) {t0 q} : Goes U (execCommandComplete t0 q s) := .next (by grind [Kept.clocked, Kept.setTile])
theorem Kept.engine (h : Kept U s) {t0 q op f} : Kept U (s.engine t0 q op f) := h.clocked fun _ h => h.setTile
theorem Goes.execMma (h : Kept U s) {t0} : Goes U (execMma t0 s) := .next h.engine
theorem Goes.execHandOff (h : Kept U s) {t0} : Goes U (execHandOff t0 s) := .next (h.clocked fun _ h => h.setTile)
theorem Goes.execDrain (h : Kept U s) {t0} : Goes U (execDrain t0 s) := .next h.engine
theorem Goes.execDrainSp (h : Kept U s) {t0} : Goes U (execDrainSp t0 s) := .next h.engine
theorem Goes.execVprog (h : Kept U s) {t0} : Goes U (execVprog t0 s) := .next h.engine
theorem Goes.execScand (h : Kept U s) {t0} : Goes U (execScand t0 s) := .next h.engine
theorem Goes.execSmerge (h : Kept U s) {t0} : Goes U (execSmerge t0 s) := .next h.engine
theorem Goes.execSpick (h : Kept U s) {t0} : Goes U (execSpick t0 s) := .next h.engine
theorem Goes.execFill (h : Kept U s) {t0} : Goes U (execFill t0 s) := .next h.engine
theorem Goes.execCopy (h : Kept U s) {t0} : Goes U (execCopy t0 s) := .next h.engine
theorem Goes.execTsRead (h : Kept U s) {t0} : Goes U (execTsRead t0 s) := .next h.engine
theorem Goes.execTsWrite (h : Kept U s) {t0} : Goes U (execTsWrite t0 s) := .next h.engine
theorem Goes.execTfill (h : Kept U s) {t0} : Goes U (execTfill t0 s) := .next h.engine
theorem Goes.execTcopy (h : Kept U s) {t0} : Goes U (execTcopy t0 s) := .next h.engine
theorem Goes.execTpwr (h : Kept U s) {t0} : Goes U (execTpwr t0 s) := .next h.engine
theorem Kept.hreadWith (h : Kept U s) {t0 e bs} : Kept U (s.hreadWith t0 e bs) := h.setTile
theorem Goes.execHread (h : Kept U s) {t0 data} : Goes U (execHread t0 data s) :=
  .next (by grind [Kept.clocked, Kept.hreadWith, Kept.faultSect, Kept.hbmUncorr, Kept.setTile])
theorem Goes.execHwrite (h : Kept U s) {t0} : Goes U (execHwrite t0 s) := .next (by grind [Kept.clocked, Kept.setTile, Kept.hostWrite, Kept.hbmWrite])
theorem Kept.pushSlice (h : Kept U s) {m} : Kept U (s.pushSlice m) := .update h (by rfl)
theorem Goes.execUsend (h : Kept U s) {t0} : Goes U (execUsend t0 s) := .next (by grind [Kept.clocked, Kept.setTile, Kept.pushSlice])
theorem Goes.execUcount (h : Kept U s) {t0} : Goes U (execUcount t0 s) := .next h.engine
theorem Kept.unhold (h : Kept U s) {t0 b} : Kept U (s.unhold t0 b) := h.setTile.foldl fun _ _ h => h.judgeRows
theorem Goes.execBankTransition (h : Kept U s) {t0 bank} : Goes U (execBankTransition t0 bank s) := .next (by grind [Kept.unhold, Kept.setTile])
theorem Goes.execScrub (h : Kept U s) {t0 ts bank} : Goes U (execScrub t0 ts bank s) := .next (by grind [Kept.clocked, Kept.setTile, Kept.event])

/-! What Machine/Slots.lean keeps. -/

theorem Kept.clearAcc (h : Kept U s) {k} : Kept U (s.clearAcc k) := h.mapTiles
theorem Kept.appendHist (h : Kept U s) {k st} : Kept U (s.appendHist k st) := h.setSectN
theorem Kept.rescale (h : Kept U s) {k} : Kept U (s.rescale k) := h.setSectN
theorem Kept.probeFill (h : Kept U s) {k named} : Kept U (s.probeFill k named) := h.setSectN.clearAcc.count

/-! What Machine/Groups.lean keeps. -/

theorem Kept.setGroup (h : Kept U s) {k g v} : Kept U (s.setGroup k g v) := h.setSectN
theorem Kept.putGroup (h : Kept U s) {k g v} : Kept U (s.putGroup k g v) := h.setGroup
theorem Kept.setHws (h : Kept U s) {a ws} : Kept U (s.setHws a ws) :=
  .ite ⟨fun c => Sparse.wf_putRun (h.hbm c), h.pending, h.store⟩ h

theorem Kept.updWork (h : Kept U s) {k d as} {f : State → State} (hf : ∀ t, Kept U t → Kept U (f t)) :
    Kept U (s.updWork k d as f) := by
  unfold State.updWork
  extract_lets out t
  have ht : Kept U t := h.foldl fun _ _ h => h.deadLetter
  split
  · exact ht.hbmUncorr.faultSect
  · exact hf t ht

theorem Kept.hbmZero (h : Kept U s) {a n} : Kept U (s.hbmZero a n) :=
  ⟨fun c => Sparse.wf_clearRange _ _ _ _ (h.hbm c), h.pending, h.store⟩
theorem Kept.ruleChange (h : Kept U s) {k g old new} : Kept U (s.ruleChange k g old new) := by
  grind [State.ruleChange, Kept.hbmZero, Kept.putGroup, Kept.foldl]

/-! What Machine/Seals.lean keeps. -/

theorem Kept.sealRecord (h : Kept U s) {sc refused fields} : Kept U (s.sealRecord sc refused fields) := h.postbook
theorem Kept.refuseSeal (h : Kept U s) {sc off} : Kept U (s.refuseSeal sc off) := .sealRecord (.event (.setReg (.update h (by rfl))))
theorem Kept.sectHooks (h : Kept U s) {old k fields} : Kept U (State.sectHooks old s k fields) :=
  h.foldl fun _ _ h => h.setSectN.ite (h.ruleChange.ite h)
theorem Kept.applySect (h : Kept U s) {k requested} : Kept U (s.applySect k requested).1 := by
  grind [State.applySect, Kept.setSectN, Kept.refuseSeal, Kept.sectHooks, Kept.sealRecord, Kept.otherFields]
theorem Kept.nextSeal (h : Kept U s) {k} : Kept U (s.nextSeal k) := .ite (.setSectN (.update h (by rfl))) h
theorem Kept.applyPending (h : Kept U s) {k} : Kept U (s.applyPending k) := (h.applySect.ite h).nextSeal
theorem Kept.settleSeal (h : Kept U s) {k} : Kept U (s.settleSeal k) := by grind [State.settleSeal, Kept.applyPending]
theorem Kept.requestSect (h : Kept U s) {k} : Kept U (s.requestSect k) :=
  .ite (.setSectN (.update h.sealPoint (by rfl))) (.settleSeal (.setSectN (.update h.sealPoint (by rfl))))
theorem Kept.settleFaulted (h : Kept U s) : Kept U s.settleFaulted := h.foldl fun _ _ h => h.settleSeal.ite h
theorem Kept.discardPrograms (h : Kept U s) {k} : Kept U (s.discardPrograms k) := h.mapTiles.setSectN.event
theorem Kept.remap (h : Kept U s) {old : State} {c} : Kept U (old.remap s c) := by
  grind [State.remap, Kept.foldl, Kept.setTileN, Kept.otherFields]
theorem Kept.remapSect (h : Kept U s) {k} : Kept U (s.remapSect k) := h.setSectN.ite (h.setSectN.ite h)
theorem Kept.changeOp (h : Kept U s) {east new} : Kept U (s.changeOp east new) := h.ite (.postbook (.event (.update h (by rfl))))

theorem Kept.deviceHooks (h : Kept U s) {old : State} {fields} : Kept U (old.deviceHooks s fields) := by
  unfold State.deviceHooks
  refine .ite (.changeOp (.changeOp ?discarded)) ?discarded
  refine .foldl (.foldl (.foldl (.ite (h.update (by rfl)) h) ?placed) fun _ _ h => h.remap) fun _ _ h => h.discardPrograms
  exact fun _ _ h => .ite (.setSectN (h.remapSect.ite h)) (h.remapSect.ite h)

theorem Kept.endDeviceSeal (h : Kept U s) : Kept U s.endDeviceSeal :=
  .ite (.update h (by rfl)) (.update h (by rfl))
theorem Kept.dropRaises (h : Kept U s) {undo} : Kept U (s.dropRaises undo) := .update h (by rfl)
theorem Kept.clkRefused (h : Kept U s) : Kept U s.clkRefused := by grind [State.clkRefused, Kept.setReg, Kept.event, Kept.foldl]
theorem Kept.refuseDevice (h : Kept U s) {off} : Kept U (s.refuseDevice off) := h.clkRefused.refuseSeal.dropRaises.endDeviceSeal
theorem Kept.commandRaises (h : Kept U s) : Kept U s.commandRaises := h.foldl fun _ _ h => .update h (by rfl)

theorem Kept.applyDevice (h : Kept U s) : Kept U s.applyDevice := by
  grind [State.applyDevice, Kept.refuseDevice, Kept.commandRaises, Kept.deviceHooks, Kept.sealRecord,
    Kept.endDeviceSeal, Kept.dropRaises, Kept.otherFields]

theorem Kept.requestDevice (h : Kept U s) : Kept U s.requestDevice := .ite (.update h (by rfl)) (.update h (by rfl))

/-! What Machine/Exchange.lean keeps. -/

theorem Kept.officeDead (h : Kept U s) {reason office m} : Kept U (s.officeDead reason office m) := h.deadLetter.netCount
theorem Kept.routeFault (h : Kept U s) {office m} : Kept U (s.routeFault office m) := h.officeDead.event.faultSect
theorem Kept.eject (h : Kept U s) {office ltn m} : Kept U (s.eject office ltn m) := h.officeDead.ite (.update h (by rfl))
theorem Kept.linkSend (h : Kept U s) {l lvc m} : Kept U (s.linkSend l lvc m) := h.setSectN.ite h.setSectN.setLinkN
theorem Kept.nodeMismatch (h : Kept U s) {office m} : Kept U (s.nodeMismatch office m) := h.officeDead.event.faultSect
theorem Kept.setNodeBuf (h : Kept U s) {b} : Kept U (s.setNodeBuf b) := .update h (by rfl)
theorem Kept.nodesPhase (h : Kept U s) {k} : Kept U (s.nodesPhase k) := .update h (by rfl)
theorem Kept.clearNodes (h : Kept U s) {k} : Kept U (s.clearNodes k) := .update h (by rfl)
theorem Kept.nodeInput (h : Kept U s) {office right m} : Kept U (s.nodeInput office right m) := h.nodeMismatch.ite h.setNodeBuf
theorem Kept.walkRoute (h : Kept U s) {m office} : Kept U (s.walkRoute m office) := by
  grind [State.walkRoute, Kept.eject, Kept.routeFault, Kept.nodeInput, Kept.linkSend]
theorem Kept.circHere (h : Kept U s) {m office e} : Kept U (s.circHere m office e) := by grind [State.circHere, Kept.eject, Kept.linkSend, Kept.foldl]
theorem Kept.walkCirc (h : Kept U s) {m office} : Kept U (s.walkCirc m office) := by grind [State.walkCirc, Kept.circHere, Kept.foldl]
theorem Kept.launch (h : Kept U s) {m office} : Kept U (s.launch m office) := h.walkCirc.ite h.walkRoute
theorem Goes.execSendInject (h : Kept U s) {t0 late} : Goes U (execSendInject t0 late s) :=
  .next (by grind [Kept.clocked, Kept.setTile, Kept.netCount, Kept.launch])
theorem Kept.nodeSend (h : Kept U s) {k office node e data} : Kept U (s.nodeSend k office node e data) := h.pushSlice.ite h.launch
theorem Kept.netCorrected (h : Kept U s) {cluster n} : Kept U (s.netCorrected cluster n) := h.ite h.netCount
theorem Goes.execNodeCombine (h : Kept U s) {office node} : Goes U (execNodeCombine office node s) :=
  .next (by grind [Kept.netCorrected, Kept.setNodeBuf, Kept.failChip, Kept.nodeSend, Kept.event])
theorem Goes.execMessageReceive (h : Kept U s) {t0 i} : Goes U (execMessageReceive t0 i s) :=
  .next (by grind [Kept.netCount, Kept.failChip, Kept.fencedLetter, Kept.setTile, Kept.deadLetter, Kept.faultTile, Kept.otherFields])
theorem Kept.windowViolation (h : Kept U s) {k l w} : Kept U (s.windowViolation k l w) := h.setLinkN.deadLetter.event.faultSect
theorem Kept.frameIn (h : Kept U s) {k l f} : Kept U (s.frameIn k l f) :=
  (h.setLinkN.ite h).ite (h.windowViolation.ite (h.setLinkN.launch.ite h.setLinkN))
theorem Kept.captureFrame (h : Kept U s) {k l record f} : Kept U (s.captureFrame k l record f) := by
  grind [State.captureFrame, Kept.event, Kept.setReg, Kept.hbmWrite, Kept.deadLetter, Kept.setSectN, Kept.otherFields]
theorem Kept.frameThrough (h : Kept U s) {k l lvc f} : Kept U (s.frameThrough k l lvc f) := h.setSectN.captureFrame.frameIn.setLinkN

theorem Kept.drainLvc {l v n} : ∀ {s}, Kept U s → Kept U (s.drainLvc l v n) := by
  induction n with
  | zero => exact fun h => h
  | succ n ih => exact fun h => by grind [State.drainLvc, Kept.setLinkN, Kept.frameThrough]

theorem Kept.drainLink (h : Kept U s) {l} : Kept U (s.drainLink l) := h.foldl fun _ _ h => h.drainLvc
theorem Kept.overrun (h : Kept U s) {k cluster} : Kept U (s.overrun k cluster) := h.ite ((h.netCount.count.ite h.netCount).setSectN)
theorem Kept.exchangeFault (h : Kept U s) {k record cluster} : Kept U (s.exchangeFault k record cluster) := h.event.faultSect
theorem Goes.execExchangeComplete (h : Kept U s) {t0 duration} : Goes U (execExchangeComplete t0 duration s) :=
  .next (by grind [Kept.clocked, Kept.exchangeFault, Kept.setTile, Kept.overrun])
theorem Goes.execExchangeOverrun (h : Kept U s) {k cluster} : Goes U (execExchangeOverrun k cluster s) := .next (by grind [Kept.exchangeFault])
theorem Goes.execTileFault (h : Kept U s) {k} : Goes U (execTileFault k s) := .next h.stopFaulted

/-! What Machine/Ingest.lean keeps. -/

theorem Kept.advanceHead (h : Kept U s) {r n} : Kept U (s.advanceHead r n) := h.setRing.writeBack.announce
theorem Kept.ingestCount (h : Kept U s) {n i v} : Kept U (s.ingestCount n i v) := h.count
theorem Kept.profileTouch (h : Kept U s) {n i} : Kept U (s.profileTouch n i) := by grind [State.profileTouch, Kept.deadLetter, Kept.hbmUncorr]
theorem Kept.parcelDone (h : Kept U s) {n d damaged} : Kept U (s.parcelDone n d damaged) := by
  grind [State.parcelDone, Kept.ingestCount, Kept.event, Kept.setPipe, Kept.advanceHead]
theorem Kept.startParcel (h : Kept U s) {n d p chunk} : Kept U (s.startParcel n d p chunk) := h.parcelDone.ite h.setSectN.setPipe
theorem Goes.execIngestDescriptor (h : Kept U s) {n desc chunk} : Goes U (execIngestDescriptor n desc chunk s) :=
  .next (h.ite ((h.profileTouch.ite h).startParcel.ite ((h.profileTouch.ite h).event.ingestCount.advanceHead)))
theorem Kept.overlap (h : Kept U s) {n x d seq} : Kept U (s.overlap n x d seq) := (h.ite h.ingestCount.event).event.faultSect.setPipe
theorem Kept.nextTubelet (h : Kept U s) {n x d damaged} : Kept U (s.nextTubelet n x d damaged) := h.parcelDone.ite h.setPipe
theorem Goes.execTubeletStage (h : Kept U s) {n} : Goes U (execTubeletStage n s) :=
  .next (by grind [Kept.nextTubelet, Kept.overlap, Kept.hbmWrite, Kept.setSectN, Kept.ingestCount])
theorem Kept.handoverRecord (h : Kept U s) {k record t0 first} : Kept U (s.handoverRecord k record t0 first) := h.postbook
theorem Kept.handSlot (h : Kept U s) {w postmark bs} : Kept U (s.handSlot w postmark bs) := h.outsideWrite.ite h.padWrite
theorem Kept.collect (h : Kept U s) {k record t0 row slots first} : Kept U (s.collect k record t0 row slots first) := by
  grind [State.collect, Kept.faultSect, Kept.hbmUncorr, Kept.handoverRecord, Kept.handSlot, Kept.setSectN, Kept.event, Kept.foldl]
theorem Kept.releaseWindows (h : Kept U s) {k} : Kept U (s.releaseWindows k) := by grind [State.releaseWindows, Kept.setSectN]

/-! What Machine/Update.lean keeps. -/

theorem Kept.ruleRow (h : Kept U s) {rule pm v e row c gs} : Kept U (s.ruleRow rule pm v e row c gs).1 := by
  unfold State.ruleRow
  refine .fst_ite (.setHws ?_) ?_ <;>
  · split
    · exact h.setHws.setHws
    · exact h.setHws.setHws.setHws
    · exact .fst_ite h.setHws.setHws.setHws.setHws h.setHws.setHws.setHws.setHws

theorem Kept.sliceRows {k g rule pm e mask p data is} : ∀ {s v}, Kept U s → Kept U (s.sliceRows k g rule pm e mask p data v is).1 := by
  induction is with
  | nil => exact fun h => h
  | cons i is ih => exact fun h => by grind [State.sliceRows, Kept.count, Kept.ruleRow]

theorem Kept.copyWrite (h : Kept U s) {ltn off bs die postmark} : Kept U (s.copyWrite ltn off bs die postmark) :=
  h.faultTile.deadLetter.ite h.outsideWrite
theorem Kept.sliceDrop (h : Kept U s) {die m reason code} : Kept U (s.sliceDrop die m reason code) := h.deadLetter.event.faultSect
theorem Kept.writeCopies (h : Kept U s) {k g postmark d data ns} : Kept U (s.writeCopies k g postmark d data ns) :=
  h.foldl fun _ _ h => h.sliceDrop.ite h.copyWrite
theorem Kept.completeBlock (h : Kept U s) {k g bs v e ab} : Kept U (s.completeBlock k g bs v e ab).1 := by
  grind [State.completeBlock, Kept.setHws, Kept.foldl]

theorem Kept.treatSlice (h : Kept U s) {k g n v vs data pm mask} : Kept U (s.treatSlice k g n v vs data pm mask) := by
  simp only [State.treatSlice]
  split
  · exact h.setGroup.event.faultSect
  · split
    · exact h.sliceRows.setGroup.event.faultSect
    · refine .writeCopies (.putGroup ?_)
      split
      · exact h.sliceRows.completeBlock
      · exact h.sliceRows
  · exact h

theorem Kept.intake (h : Kept U s) {die m} : ∀ u, s.intake die m = some u → Kept U u := by
  grind [State.intake, Kept.sliceDrop, Kept.updWork, Kept.treatSlice]

theorem Kept.takeSlice (h : Kept U s) {d m u} (hu : s.takeSlice d m = some u) : Kept U u := by
  simp only [State.takeSlice] at hu
  split at hu
  · cases hu
    exact h.netCorrected.failChip
  · exact h.netCorrected.intake u hu

theorem Goes.execSliceIntake (h : Kept U s) {d} : Goes U (execSliceIntake d s) := .next <| by
  split
  · exact h
  · rename_i m rest _
    cases hu : ({ s with slices := s.slices.setIfInBounds d.toNat rest } : State).takeSlice d.toNat m with
    | none => exact h.update (by rfl)
    | some u => exact Kept.takeSlice (h.update (by rfl)) hu

theorem Goes.execRootComputeDone (h : Kept U s) {k g} : Goes U (execRootComputeDone k g s) :=
  .next (by grind [Kept.setGroup, Kept.count, Kept.event, Kept.foldl])
theorem Kept.groupStats (h : Kept U s) {k g v sc} : Kept U (s.groupStats k g v sc) := h.setHws.setHws.setHws.setHws.setHws
theorem Kept.boundaryStats (h : Kept U s) {k} : Kept U (s.boundaryStats k) := by
  grind [State.boundaryStats, Kept.updWork, Kept.setGroup, Kept.groupStats, Kept.foldl]
theorem Kept.noteRootWait (h : Kept U s) {k} : Kept U (s.noteRootWait k) := by grind [State.noteRootWait, Kept.count, Kept.setGroup, Kept.foldl]
theorem Kept.rootsEffect (h : Kept U s) {k g v rs} : Kept U (s.rootsEffect k g v rs).1 := by grind [State.rootsEffect, Kept.setHws, Kept.foldl]

theorem Kept.boundaryGroup (h : Kept U s) {k e} : Kept U (s.boundaryGroup k e) := by
  unfold State.boundaryGroup
  apply h.updWork
  intro t ht
  refine .putGroup (.foldl_fst ht fun a j ha => ?_)
  split
  · exact ha.rootsEffect
  · exact ha

theorem Kept.boundaryGroups (h : Kept U s) {k} : Kept U (s.boundaryGroups k) := h.foldl fun _ _ h => h.boundaryGroup

/-! What Machine/Boundary.lean keeps. -/

theorem Kept.sendFrames (h : Kept U s) {l fs} : Kept U (s.sendFrames l fs) := h.setLinkN
theorem Kept.replayExhausted (h : Kept U s) {k} : Kept U (s.replayExhausted k) := h.event.faultSect
theorem Kept.replayInject (h : Kept U s) {k record} : Kept U (s.replayInject k record) := by
  grind [State.replayInject, Kept.replayExhausted, Kept.faultSect, Kept.hbmUncorr, Kept.setSectN, Kept.frameIn, Kept.foldl]
theorem Kept.replayState (h : Kept U s) {k record} : Kept U (s.replayState k record) := by
  grind [State.replayState, Kept.replayExhausted, Kept.faultSect, Kept.hbmUncorr, Kept.setSectN]
theorem Kept.endPhase (h : Kept U s) {k} : Kept U (s.endPhase k) := by grind [State.endPhase, Kept.postbook, Kept.setSectN]

theorem Kept.enterTiles (h : Kept U s) {k entry seg tt pm ss vs} : Kept U (s.enterTiles k entry seg tt pm ss vs) := by
  unfold State.enterTiles
  exact h.mapTiles

theorem Kept.startSwitchIn (h : Kept U s) {k} : Kept U (s.startSwitchIn k) := by grind [State.startSwitchIn, Kept.enterTiles]
theorem Kept.releaseClosing (h : Kept U s) {k} : Kept U (s.releaseClosing k) := by
  grind [State.releaseClosing, Kept.mapTiles, Kept.sealPoint, Kept.setSectN, Kept.settleSeal, Kept.done]
theorem Kept.releaseOpen (h : Kept U s) {k idx} : Kept U (s.releaseOpen k idx) := by
  grind [State.releaseOpen, Kept.mapTiles, Kept.recordTouch, Kept.setSectN, Kept.nodesPhase, Kept.replayInject, Kept.drainLink, Kept.foldl]

theorem Kept.handover (h : Kept U s) {k i v} : Kept U (s.handover k i v) := by
  unfold State.handover
  split
  · exact h.collect
  · exact h

theorem Kept.release (h : Kept U s) {k i v} : Kept U (s.release k i v) := by
  have hr {c : Prop} [Decidable c] {i} : Kept U (if c then (s.endPhase k).replayState k i else s.endPhase k) :=
    h.endPhase.replayState.ite h.endPhase
  unfold State.release
  extract_lets x
  split
  · exact h.setSectN.done
  · refine .ite h.applyPending.setSectN.startSwitchIn (.ite hr ?_)
    refine .ite (.releaseClosing ?freed) (.ite (.handover ?freed) (.releaseOpen (.handover ?freed)))
    exact .setSectN (.ite (.setSectN (.probeFill (hr.ite hr.applyPending))) (hr.ite hr.applyPending))

/-- The state that the joint part of a barrier leaves, whether the release goes on or not. -/
def JointResult.state : JointResult → State
  | .stop s => s
  | .go s => s

theorem Kept.joint (h : Kept U s) {k i c} : Kept U (s.joint k i c).state := by
  have down {t : State} {ls : List Nat} {st n b} (ht : Kept U t) : Kept U
      (ls.foldl (fun s l => (if c then s.sendFrames l (stateFrames st) else s).sendBarrier l 1 n b []) t) :=
    ht.foldl fun _ _ h => (h.sendFrames.ite h).sendBarrier
  simp only [State.joint]
  split
  · exact h.event.faultSect
  · split
    · exact h
    · split
      · exact down h.setSectN
      · split
        · exact .sendBarrier (.setSectN (h.sendFrames.ite h))
        · split
          · exact h
          · exact down h

theorem Kept.atBarrier (h : Kept U s) {k i} (ht : s.atBarrier k i = .moves t) : Kept U t := by
  have hj {c} : Kept U (if s.joined k then s.joint k i c else .go s).state := by
    split
    · exact h.joint
    · exact h
  simp only [State.atBarrier] at ht
  split at ht
  · cases ht
    exact h.foldl fun _ _ h => h.setTileN
  · split at ht
    · cases ht
      exact h.event.faultSect
    · cases ht
      exact h.hbmUncorr.faultSect
    · cases ht
    · split at ht
      · rename_i u hu
        have hs : Kept U (JointResult.stop u).state := hu ▸ hj
        cases ht
        exact hs
      · rename_i u hu
        have hg : Kept U (JointResult.go u).state := hu ▸ hj
        grind [JointResult.state, Kept.setSectN, Kept.release]

theorem Kept.barrierAt (h : Kept U s) {k i} : Kept U (s.barrierAt k i) := by
  unfold State.barrierAt
  split
  · exact h.atBarrier ‹_›
  · exact h.setSectN
  · exact h

theorem Goes.execBarrierRelease (h : Kept U s) {k} : Goes U (execBarrierRelease k s) := .next (by grind [Kept.barrierAt])
theorem Goes.execBarrierTimeout (h : Kept U s) {k} : Goes U (execBarrierTimeout k s) := .next (h.event.faultSect.ite h)
theorem Goes.execIngestStalled (h : Kept U s) {k} : Goes U (execIngestStalled k s) := .next (by grind [Kept.event, Kept.setSectN])
theorem Kept.ownerSteps (h : Kept U s) {k} : Kept U (s.ownerSteps k) := h.foldl fun _ _ h => h.setGroup.ite h
theorem Kept.versionTables (h : Kept U s) {k prog p} : Kept U (s.versionTables k prog p) := by grind [State.versionTables, Kept.loadWrite, Kept.foldl]

theorem Kept.advanceVersions (h : Kept U s) {k r} : Kept U (s.advanceVersions k r) := by
  have hg := h.ownerSteps (k := k) |>.boundaryGroups (k := k)
  have hv {p q} := hg.versionTables (k := k) (prog := p) (p := q) |>.stopFaulted (k := k)
  exact hg.ite (hv.ite hv.mapTiles.setSectN)

theorem Kept.foldUcounts (h : Kept U s) {k} : Kept U (s.foldUcounts k) := by
  grind [State.foldUcounts, Kept.foldl, Kept.count, Kept.mapTiles]
theorem Kept.boundarySeal (h : Kept U s) {k} : Kept U (s.boundarySeal k).1 :=
  h.appendHist.sealPoint.applySect.nextSeal.rescale.clearAcc.foldUcounts.releaseWindows
theorem Kept.copyTouch (h : Kept U s) {k p} : Kept U (s.copyTouch k p) := h.foldl fun _ _ h => h.storeTouch
theorem Kept.captureStep (h : Kept U s) {k} : Kept U (s.captureStep k) := h.ite (.ite (.event (.update h (by rfl))) (.update h (by rfl)))
theorem Kept.boundaryEnd (h : Kept U s) {k r c} : Kept U (s.boundaryEnd k r c) := by
  grind [State.boundaryEnd, Kept.hostWrite, Kept.done, Kept.captureStep, Kept.postbook, Kept.copyTouch, Kept.setSectN, Kept.settleSeal]
theorem Kept.boundary (h : Kept U s) {k r} : Kept U (s.boundary k r) := by
  grind [State.boundary, Kept.stopFaulted, Kept.boundaryStats, Kept.boundarySeal, Kept.advanceVersions, Kept.boundaryEnd]
theorem Goes.execStepBoundary (h : Kept U s) {k} : Goes U (execStepBoundary k s) :=
  .next (by grind [Kept.faultSect, Kept.event, Kept.noteRootWait, Kept.boundary])

/-! What Machine/Loading.lean keeps. -/

theorem Kept.zeroGranule (h : Kept U s) {ltn g} : Kept U (s.zeroGranule ltn g) := by
  grind [State.zeroGranule, Kept.fencedLetter, Kept.setTileN, Kept.judgeRows, Kept.deadLetter, Kept.faultTile]
theorem Kept.declareGranule (h : Kept U s) {ltn slot g wcode} : Kept U (s.declareGranule ltn slot g wcode) := (h.ite h.zeroGranule).setTileN
theorem Kept.loadTile (h : Kept U s) {slot version p t0} : Kept U (s.loadTile slot version p t0) :=
  (h.foldl fun _ _ h => h.declareGranule).setTileN.foldl fun _ _ h => h.loadWrite
theorem Kept.loadSlot (h : Kept U s) {k d} : Kept U (s.loadSlot k d) := .setSectN (.update h.mapTiles (by rfl))
theorem Kept.unload (h : Kept U s) {k slot} : Kept U (s.unload k slot) := h.mapTiles.setSectN

theorem Kept.loadProgram (h : Kept U s) {k slot p} : Kept U (s.loadProgram k slot p) := by
  grind [State.loadProgram, Kept.unload, Kept.loadTile, Kept.loadSlot, Kept.hbmZero, Kept.putGroup,
    Kept.setSectN, Kept.versionTables, Kept.otherFields, Kept.foldl]

theorem Kept.restoreAreas (h : Kept U s) {areas bs} : Kept U (s.restoreAreas areas bs) := h.ite (h.foldl fun _ _ h => h.ite h.hbmWrite)
theorem Kept.restoreGroup (h : Kept U s) {k slot b c} : Kept U (s.restoreGroup k slot b c) := by
  grind [State.restoreGroup, Kept.hbmWrite, Kept.putGroup, Kept.mapTiles, Kept.otherFields, Kept.foldl]
theorem Kept.putStepAcc (h : Kept U s) {k i a} : Kept U (s.putStepAcc k i a) := by grind [State.putStepAcc, Kept.mapTiles, Kept.setTileN]
theorem Kept.restoreSlot (h : Kept U s) {k i b} : Kept U (s.restoreSlot k i b) := .putStepAcc (.setSectN (.update h (by rfl)))
theorem Kept.restoreTile (h : Kept U s) {slot p b c} : Kept U (s.restoreTile slot p b c) :=
  ((h.foldl fun _ _ h => h.declareGranule).foldl fun _ _ h => h.loadWrite).foldl fun _ _ h => h.loadWrite
theorem Kept.restoreSaves (h : Kept U s) {k p bs} : Kept U (s.restoreSaves k p bs) := h.ite (h.foldl fun _ _ h => h.ite h.loadWrite)

theorem Kept.restore (h : Kept U s) {k slot img} : Kept U (s.restore k slot img) := by
  unfold State.restore
  extract_lets b p pm trailer tiles saves slots masters states rows groups ranges setup x y
  have ht : Kept U tiles := h.foldl fun _ _ h => h.restoreTile
  have hs : Kept U slots := ht.restoreSaves.foldl fun _ _ h => h.restoreSlot
  have hg : Kept U groups := hs.restoreAreas.restoreAreas.restoreAreas.foldl fun _ _ h => h.restoreGroup
  have hu : Kept U setup := hg.mapTiles.update (by rfl)
  exact hu.setSectN.versionTables

theorem Kept.loadImage (h : Kept U s) {k slot img} : Kept U (s.loadImage k slot img) := h.loadProgram.restore.ite h.loadProgram
theorem Kept.enterRun (h : Kept U s) {k r} : Kept U (s.enterRun k r) := h.enterTiles.setSectN
theorem Kept.saveTile (h : Kept U s) {t0} : Kept U (s.saveTile t0) := (h.foldl fun _ _ h => h.padTouch).outsideWrite
theorem Kept.loadSets (h : Kept U s) {t0 saved} : Kept U (s.loadSets t0 saved) :=
  h.ite (((h.ite h.storeTouch).storeTouch.ite (h.ite h.storeTouch)).setTileN)
theorem Kept.loadOffices (h : Kept U s) {k p} : Kept U (s.loadOffices k p) := (h.foldl fun _ _ h => h.storeTouch).setSectN.clearNodes
theorem Kept.switchTo (h : Kept U s) {k slot} : Kept U (s.switchTo k slot) := by
  grind [State.switchTo, Kept.saveTile, Kept.loadOffices, Kept.loadSets, Kept.setSectN, Kept.foldl]

/-! What Machine/Store.lean keeps. -/

theorem Kept.measureVhu (h : Kept U s) {mv} : Kept U (s.measureVhu mv) := .update h (by rfl)

theorem Kept.writeSequence (h : Kept U s) (hU : U.Written) {i v mv} : Kept U (s.writeSequence i v mv).1 := by
  unfold State.writeSequence
  split
  · exact h.measureVhu
  · exact ⟨h.hbm, h.pending, hU _ _ _ h.store⟩

theorem Kept.runCommit (hU : U.Written) {cs} : ∀ {s mvs mask}, Kept U s → Kept U (s.runCommit cs mvs mask).1 := by
  induction cs with
  | nil => exact fun h => h
  | cons c cs ih =>
    intro s mvs mask h
    simp only [State.runCommit]
    split
    · exact ih (h.writeSequence hU)
    · exact h.writeSequence hU

theorem Kept.cutStore (h : Kept U s) (hU : U.Written) : U.store s.cutStore := by
  unfold State.cutStore
  split
  · exact (Kept.runCommit hU h).store
  · exact h.store

/-! What Machine/Peek.lean keeps. -/

theorem Kept.clearCounter (h : Kept U s) {c} : Kept U (s.clearCounter c) := by
  cases c with
  | key k => exact h.update (by rfl)
  | tile n i => exact h.setTileN

/-! What Machine/Context.lean keeps. -/

theorem Kept.saveTouchTile (h : Kept U s) {k slot t0} : Kept U (s.saveTouchTile k slot t0) := by
  grind [State.saveTouchTile, Kept.storeTouch, Kept.padTouch, Kept.foldl]
theorem Kept.saveTouch (h : Kept U s) {k slot p} : Kept U (s.saveTouch k slot p) := h.foldl fun _ _ h => h.saveTouchTile

/-! What Machine/Descriptors.lean keeps. -/

theorem Kept.settle (h : Kept U s) {k} : Kept U (s.settle k) := h.setSectN.settleSeal.ite h
theorem Kept.descRecord (h : Kept U s) {k index bytes second} : Kept U (s.descRecord k index bytes second) := h.postbook
theorem Kept.revertOpen (h : Kept U s) {k} : Kept U (s.revertOpen k) := h.mapTiles
theorem Kept.abortChain (h : Kept U s) {k} : Kept U (s.abortChain k) := .settleSeal (.setSectN (.clearNodes (.update h.mapTiles.revertOpen (by rfl))))
theorem Kept.refuse (h : Kept U s) {k d index r} : Kept U (s.refuse k d index r) := h.complete.abortChain.ite (h.complete.ite h.complete.settle)

theorem Kept.process (h : Kept U s) {k type d f} (hf : ∀ t i, Kept U t → Kept U (f t i)) : Kept U (s.process k type d f) := by
  unfold State.process
  have ht {i} := h.settle (k := k) |>.advanceHead (r := k) (n := 1) |>.descRecord (k := k) (index := i) (bytes := d) (second := [])
  refine h.ite (ht.refuse.ite ?_)
  split
  · exact ht.refuse
  · exact hf _ _ ht

theorem Kept.checkLinks (h : Kept U s) {k sp} : Kept U (s.checkLinks k sp).1 :=
  .fst_ite h (.foldl_fst h fun _ _ ha => .fst_ite ha.event (.fst_ite ha.event ha))
theorem Kept.startCapture (h : Kept U s) {k postmark} : Kept U (s.startCapture k postmark) := .ite (.update h (by rfl)) h
theorem Kept.startStep (h : Kept U s) {k r} : Kept U (s.startStep k r) := h.setSectN.ite h.setSectN.switchTo
theorem Kept.acceptStep (h : Kept U s) {k r} : Kept U (s.acceptStep k r) :=
  (h.setSectN.startCapture.ite h).setSectN.ite ((h.setSectN.startCapture.ite h).startStep)
theorem Kept.abortDesc (h : Kept U s) {k d index} : Kept U (s.abortDesc k d index) := h.complete

theorem Kept.takeStep (h : Kept U s) {k d vs} : Kept U (s.takeStep k d vs) := by
  unfold State.takeStep
  extract_lets i taken no reads lettered
  have hl : Kept U lettered := h.advanceHead.foldl fun _ _ h => h.deadLetter
  have hn {t r} (ht : Kept U t) : Kept U (no t r) := ht.descRecord.refuse
  split
  · exact hl.descRecord.hbmUncorr.faultSect.abortDesc
  · split
    · exact hn hl
    · extract_lets p checked
      have hc : Kept U checked.1 := by grind [Kept.checkLinks]
      exact hc.acceptStep.descRecord.ite (hn hc)

theorem Goes.execStep (h : Kept U s) {k d values} : Goes U (execStep k d values s) := .next (by grind [Kept.process, Kept.takeStep])
theorem Kept.beginSegment (h : Kept U s) {k code} : Kept U (s.beginSegment k code) := by grind [State.beginSegment, Kept.enterRun]
theorem Goes.execWhole (h : Kept U s) {k} : Goes U (execWhole k s) := .next h.beginSegment
theorem Goes.execHead (h : Kept U s) {k} : Goes U (execHead k s) := .next h.beginSegment
theorem Goes.execMiddle (h : Kept U s) {k} : Goes U (execMiddle k s) := .next h.beginSegment
theorem Goes.execTail (h : Kept U s) {k} : Goes U (execTail k s) := .next h.beginSegment
theorem Goes.execSwitch (h : Kept U s) {k d} : Goes U (execSwitch k d s) := .next (by grind [Kept.process, Kept.refuse, Kept.switchTo, Kept.setSectN])
theorem Goes.execLoad (h : Kept U s) {k d} : Goes U (execLoad k d s) :=
  .next (by grind [Kept.process, Kept.advanceHead, Kept.settle, Kept.refuse, Kept.descRecord, Kept.setSectN])
theorem Kept.geometryEvent (h : Kept U s) {k slot img} : Kept U (s.geometryEvent k slot img) := by grind [State.geometryEvent, Kept.event]

theorem Kept.endLoad (h : Kept U s) {k d r} : Kept U (s.endLoad k d r) := by
  simp only [State.endLoad]
  split
  · exact h.descRecord.complete
  · split
    · exact h.descRecord.geometryEvent.complete
    · exact h.descRecord.loadImage.complete

theorem Goes.execLoadDone (h : Kept U s) {k result} : Goes U (execLoadDone k result s) := .next (by grind [Kept.endLoad, Kept.setSectN])
theorem Goes.execSave (h : Kept U s) {k d} : Goes U (execSave k d s) :=
  .next (by grind [Kept.process, Kept.refuse, Kept.abortDesc, Kept.faultSect, Kept.hbmUncorr, Kept.setSectN, Kept.saveTouch])
theorem Goes.execSaveDone (h : Kept U s) {k} : Goes U (execSaveDone k s) := .next (by grind [Kept.complete, Kept.hostWrite, Kept.setSectN])
theorem Goes.execIngest (h : Kept U s) {k d} : Goes U (execIngest k d s) :=
  .next (by grind [Kept.process, Kept.complete, Kept.setSectN, Kept.hbmUncorr, Kept.refuse, Kept.event])
theorem Goes.execSeal (h : Kept U s) {k d} : Goes U (execSeal k d s) :=
  .next (by grind [Kept.process, Kept.applySect, Kept.complete, Kept.otherFields])
theorem Goes.execFence (h : Kept U s) {k d} : Goes U (execFence k d s) := .next (by grind [Kept.process, Kept.refuse, Kept.setSectN])
theorem Goes.execFenceComplete (h : Kept U s) {k} : Goes U (execFenceComplete k s) := .next (by grind [Kept.done, Kept.setSectN])
theorem Goes.execBarrier (h : Kept U s) {k d} : Goes U (execBarrier k d s) :=
  .next (by grind [Kept.process, Kept.refuse, Kept.checkLinks, Kept.setSectN])
theorem Kept.endNop (h : Kept U s) {k c} : Kept U (s.endNop k c) := h.setSectN.ite h.complete
theorem Goes.execNop (h : Kept U s) {k d} : Goes U (execNop k d s) :=
  .next (by grind [Kept.process, Kept.descRecord, Kept.advanceHead, Kept.settle, Kept.endNop])
theorem Goes.execRingError (h : Kept U s) {r} : Goes U (execRingError r s) := .next (h.ite (h.setReg.event.complete.settle.ite h.setReg.event))

/-! What Machine/Versions.lean keeps. -/

theorem Kept.ship (h : Kept U s) {k sn bs} : Kept U (s.ship k sn bs) := by grind [State.ship, Kept.setSectN, Kept.event, Kept.setLinkN, Kept.foldl]
theorem Kept.refuseWaiting (h : Kept U s) {e old} : Kept U (s.refuseWaiting e old) := by
  grind [State.refuseWaiting, Kept.settle, Kept.done, Kept.setSectN]
theorem Kept.startEvalCopy (h : Kept U s) {e postmark bs} : Kept U (s.startEvalCopy e postmark bs) := h.refuseWaiting.setSectN
theorem Kept.writeCopyArea (h : Kept U s) {k v} : Kept U (s.writeCopyArea k v) := h.hbmWrite.ite h.faultTile.deadLetter
theorem Kept.shipTouch (h : Kept U s) {k a n sn} : Kept U (s.shipTouch k a n sn) := by grind [State.shipTouch, Kept.deadLetter, Kept.hbmUncorr]
theorem Kept.evalTouch (h : Kept U s) {e a n} : Kept U (s.evalTouch e a n) := by
  grind [State.evalTouch, Kept.deadLetter, Kept.faultTile, Kept.faultSect, Kept.hbmUncorr]
theorem Kept.feedEval (h : Kept U s) {e a postmark bs} : Kept U (s.feedEval e a postmark bs) := h.evalTouch.ite h.evalTouch.startEvalCopy
theorem Goes.execVersionCopyDone (h : Kept U s) {k} : Goes U (execVersionCopyDone k s) :=
  .next (by grind [Kept.writeCopyArea, Kept.setSectN, Kept.ship, Kept.shipTouch, Kept.feedEval, Kept.foldl])
theorem Kept.writeEval (h : Kept U s) {p c} : Kept U (s.writeEval p c) := h.foldl fun _ _ h => h.outsideWrite
theorem Goes.execEvalCopyDone (h : Kept U s) {k} : Goes U (execEvalCopyDone k s) :=
  .next (by grind [Kept.writeEval, Kept.setSectN, Kept.startStep, Kept.foldl])

theorem Goes.execSnapDone (h : Kept U s) {k} : Goes U (execSnapDone k s) := .next <| by
  split
  · exact h
  · split
    · exact h
    · split
      · exact h.setSectN.hostWrite.event
      · exact h.ite h.setSectN.event

/-! What Machine/Power.lean keeps. -/

theorem Kept.settleClocks (h : Kept U s) : Kept U s.settleClocks := .ite (.update h (by rfl)) h
theorem Kept.bootReset (h : Kept U s) (hU : U.Written) {keep p} : Kept U (s.bootReset keep p) :=
  Kept.settleClocks ⟨fun _ => rfl, h.pending, h.cutStore hU⟩
theorem Goes.execColdReset (h : Kept U s) (hU : U.Written) : Goes U (execColdReset s) := .next ⟨fun _ => rfl, h.pending, h.cutStore hU⟩
theorem Goes.execPowerDown (h : Kept U s) (hU : U.Written) : Goes U (execPowerDown s) := .next ⟨fun _ => rfl, h.pending, h.cutStore hU⟩
theorem Goes.execPerst (h : Kept U s) (hU : U.Written) : Goes U (execPerst s) := .next (Kept.bootReset (.update h (by rfl)) hU)
theorem Goes.execPerstDeassert (h : Kept U s) : Goes U (execPerstDeassert s) := .next (.ite (.update h (by rfl)) h)
theorem Goes.execHotReset (h : Kept U s) (hU : U.Written) : Goes U (execHotReset s) := .next (h.bootReset hU)
theorem Goes.execFlr (h : Kept U s) (hU : U.Written) : Goes U (execFlr s) := .next (h.bootReset hU)
theorem Kept.writeGlbReset (h : Kept U s) (hU : U.Written) {v} : Kept U (s.writeGlbReset v) := (h.bootReset hU).ite h
theorem Goes.execDeviceReset (h : Kept U s) (hU : U.Written) {v d3} : Goes U (execDeviceReset v d3 s) :=
  .next ((h.bootReset hU).ite ((h.writeGlbReset hU).ite h))
theorem Goes.execBoscReady (h : Kept U s) : Goes U (execBoscReady s) := .next (.ite (.update h (by rfl)) h)
theorem Kept.refclkLost (h : Kept U s) : Kept U s.refclkLost := .event (.setReg (.update h (by rfl)))
theorem Kept.refclkPresent (h : Kept U s) : Kept U s.refclkPresent := by grind [State.refclkPresent, Kept.event, Kept.otherFields]
theorem Goes.execRefclkWindow (h : Kept U s) {edges} : Goes U (execRefclkWindow edges s) :=
  .next (h.ite (.ite (.ite (.refclkPresent (.update h (by rfl))) (.update h (by rfl))) (h.refclkLost.ite (.update h (by rfl)))))
theorem Goes.execClkLost (h : Kept U s) : Goes U (execClkLost s) := .next (h.ite (h.refclkLost.ite (.update h (by rfl))))
theorem Goes.execBoscTrim (h : Kept U s) {count} : Goes U (execBoscTrim count s) := .next (.ite (.update h (by rfl)) h)
theorem Goes.execLoopReady (h : Kept U s) {island} : Goes U (execLoopReady island s) := .next (.ite (.settleClocks (.update h (by rfl))) h)
theorem Goes.execLoopUnlock (h : Kept U s) {island} : Goes U (execLoopUnlock island s) := .next (.ite (.event (.update h (by rfl))) h)
theorem Kept.clearStage (h : Kept U s) : Kept U s.clearStage :=
  ⟨fun c => Sparse.above_filter _ _ _ (h.hbm c), h.pending, h.store⟩
theorem Kept.bootFail (h : Kept U s) {err item} : Kept U (s.bootFail err item) := .update h.clearStage (by rfl)
theorem Kept.bootReached (h : Kept U s) {w} : Kept U (s.bootReached w) := .settleClocks (.update h (by rfl))
theorem Kept.bootReading (h : Kept U s) {w inWindow expired} : Kept U (s.bootReading w inWindow expired) :=
  h.bootReached.ite (.ite (.update h (by rfl)) h)
theorem Kept.lateReading (h : Kept U s) {rail mv} : Kept U (s.lateReading rail mv) := by grind [State.lateReading, Kept.bootReached]
theorem Kept.trimReading (h : Kept U s) {w inWindow expired} : Kept U (s.trimReading w inWindow expired) :=
  .ite (.update h (by rfl)) (.ite (.ite (.bootFail (.update h (by rfl))) (.update h (by rfl))) h)
theorem Kept.raiseReading (h : Kept U s) {w inWindow expired status} : Kept U (s.raiseReading w inWindow expired status) :=
  .ite (.update h (by rfl)) (h.refuseDevice.event.ite h)
theorem Goes.execAvsReadback (h : Kept U s) {rail mv status expired} : Goes U (execAvsReadback rail mv status expired s) :=
  .next (by grind [Kept.lateReading, Kept.bootReading, Kept.trimReading, Kept.raiseReading, Kept.otherFields])
theorem Goes.execRailMonitor (h : Kept U s) {rail answered mv amp c status} : Goes U (execRailMonitor rail answered mv amp c status s) :=
  .next (by grind [Kept.event, Kept.otherFields])
theorem Kept.trip (h : Kept U s) {sensor} : Kept U (s.trip sensor) := h.ite (.event (.update h (by rfl)))
theorem Kept.tempWarn (h : Kept U s) {rs} : Kept U (s.tempWarn rs) := by grind [State.tempWarn, Kept.event, Kept.otherFields]
theorem Goes.execTempSample (h : Kept U s) {readings} : Goes U (execTempSample readings s) :=
  .next (by grind [Kept.tempWarn, Kept.trip, Kept.otherFields])
theorem Goes.execThermtripN (h : Kept U s) {sensor c} : Goes U (execThermtripN sensor c s) := .next (h.trip.ite h)
theorem Goes.execHbmTempSample (h : Kept U s) {readings} : Goes U (execHbmTempSample readings s) := .next (h.ite (.update h (by rfl)))
theorem Goes.execHbmEcs (h : Kept U s) {counts} : Goes U (execHbmEcs counts s) :=
  .next (h.ite (.ite (.event (.update h (by rfl))) (.update h (by rfl))))
theorem Goes.execSmbusReady (h : Kept U s) : Goes U (execSmbusReady s) := .next (.ite (.update h (by rfl)) h)

/-! What Machine/Links.lean keeps. -/

theorem Kept.linkCount (h : Kept U s) {l i n} : Kept U (s.linkCount l i n) := h.count
theorem Kept.startRetrain (h : Kept U s) {l lanes} : Kept U (s.startRetrain l lanes) := h.setLinkN.ite h
theorem Kept.degrade (h : Kept U s) {l} : Kept U (s.degrade l) := h.startRetrain.ite h
theorem Goes.execFlightSend (h : Kept U s) {l} : Goes U (execFlightSend l s) := .next (by grind [Kept.linkCount, Kept.setLinkN, Kept.degrade])
theorem Goes.execResendTimeout (h : Kept U s) {l} : Goes U (execResendTimeout l s) := .next (h.setLinkN.ite h)
theorem Kept.returnCredit (h : Kept U s) {l v} : Kept U (s.returnCredit l v) := h.setLinkN
theorem Kept.barrierFrame (h : Kept U s) {k l f} : Kept U (s.barrierFrame k l f) := by
  grind [State.barrierFrame, Kept.setSectN, Kept.faultSectFrom, Kept.event, Kept.captureFrame]
theorem Kept.lvc5 (h : Kept U s) {l f} : Kept U (s.lvc5 l f) := by grind [State.lvc5, Kept.returnCredit, Kept.barrierFrame]
theorem Kept.snapWrite (h : Kept U s) {a origin bs} : Kept U (s.snapWrite a origin bs) := h.hbmWrite.ite h.deadLetter
theorem Kept.lvc6 (h : Kept U s) {l f} : Kept U (s.lvc6 l f) := by
  grind [State.lvc6, Kept.returnCredit, Kept.deadLetter, Kept.snapWrite, Kept.event, Kept.otherFields]
theorem Kept.lvc7 (h : Kept U s) {l f} : Kept U (s.lvc7 l f) := h.ite (h.setLinkN.ite (h.setLinkN.ite h))
theorem Kept.deliver (h : Kept U s) {l f} : Kept U (s.deliver l f) := by
  grind [State.deliver, Kept.lvc5, Kept.lvc6, Kept.lvc7, Kept.drainLink, Kept.setLinkN]

theorem Kept.receiveFlight (h : Kept U s) {n f c u} : Kept U (s.receiveFlight n f c u) := by
  unfold State.receiveFlight
  have hc := h.linkCount (l := n) (i := 0) (n := c) |>.linkCount (l := n) (i := 1) (n := u)
  refine hc.linkCount.setLinkN.ite ?_
  extract_lets y delivered
  have hd : Kept U delivered := hc.linkCount.setLinkN.foldl fun _ _ h => h.deliver
  exact hd.setLinkN

theorem Goes.execFlightReceive (h : Kept U s) {l blocks corrected uncorrectable} : Goes U (execFlightReceive l blocks corrected uncorrectable s) :=
  .next (h.ite (h.receiveFlight.ite h.linkCount.linkCount.setLinkN))
theorem Goes.execLaneLoss (h : Kept U s) {l lane} : Goes U (execLaneLoss l lane s) := .next ((h.setLinkN.degrade.ite h.setLinkN.startRetrain).ite h)
theorem Goes.execLaneMonitor (h : Kept U s) {l lane symbols} : Goes U (execLaneMonitor l lane symbols s) := .next (h.setLinkN.degrade.ite h)
theorem Goes.execLinkDegraded (h : Kept U s) {l} : Goes U (execLinkDegraded l s) := .next ((h.setLinkN.linkCount.event.ite h.setLinkN).ite h)
theorem Kept.linkGone (h : Kept U s) {l code} : Kept U (s.linkGone l code) :=
  h.foldl fun _ _ h => (h.setSectN.ite h).faultSect.ite (h.setSectN.ite h)
theorem Goes.execLinkDown (h : Kept U s) {l} : Goes U (execLinkDown l s) := .next (h.setLinkN.event.linkGone.ite h)
theorem Goes.execLinkUp (h : Kept U s) {l chip link} : Goes U (execLinkUp l chip link s) := .next (h.setLinkN.event.ite h)
theorem Kept.openLink (h : Kept U s) {l} : Kept U (s.openLink l) := h.setLinkN
theorem Kept.closeLink (h : Kept U s) {l} : Kept U (s.closeLink l) := h.setLinkN.linkGone
theorem Kept.hostRetrain (h : Kept U s) {l} : Kept U (s.hostRetrain l) := h.setLinkN.startRetrain.ite h
theorem Kept.writeXlinkCtl (h : Kept U s) {l v} : Kept U (s.writeXlinkCtl l v) := by
  grind [State.writeXlinkCtl, Kept.setReg, Kept.openLink, Kept.closeLink, Kept.hostRetrain]
theorem Goes.execLinkOpen (h : Kept U s) {l value} : Goes U (execLinkOpen l value s) := .next (h.writeXlinkCtl.ite h)
theorem Goes.execLinkClose (h : Kept U s) {l value} : Goes U (execLinkClose l value s) := .next (h.writeXlinkCtl.ite h)
theorem Goes.execRetrain (h : Kept U s) {l value} : Goes U (execRetrain l value s) := .next (h.writeXlinkCtl.ite h)

/-! What Machine/Repair.lean keeps. -/

theorem Kept.markDegraded (h : Kept U s) {cluster} : Kept U (s.markDegraded cluster) := .ite (.event (.update h (by rfl))) h
theorem Kept.fenceTile (h : Kept U s) {phys} : Kept U (s.fenceTile phys) := by
  grind [State.fenceTile, Kept.setTileN, Kept.markDegraded, Kept.otherFields]
theorem Kept.writeFence (h : Kept U s) {v} : Kept U (s.writeFence v) := by
  grind [State.writeFence, Kept.event, Kept.postbook, Kept.fenceTile, Kept.discardPrograms]
theorem Goes.execFaultFence (h : Kept U s) {value} : Goes U (execFaultFence value s) := .next (h.writeFence.ite h)
theorem Goes.execChipFailed (h : Kept U s) {cause loc} : Goes U (execChipFailed cause loc s) := .next (h.ite h.failChip)
theorem Kept.writePpr (h : Kept U s) {v spare} : Kept U (s.writePpr v spare) := by grind [State.writePpr, Kept.setReg, Kept.event, Kept.otherFields]
theorem Goes.execPprGo (h : Kept U s) {value spare} : Goes U (execPprGo value spare s) := .next (h.writePpr.ite h)
theorem Goes.execPprDone (h : Kept U s) : Goes U (execPprDone s) := .next (by grind [Kept.hbmWrite, Kept.event, Kept.otherFields, Kept.foldl])

/-! What Machine/Boot.lean keeps. -/

theorem Kept.powerPuf (h : Kept U s) : Kept U s.powerPuf := .update h (by rfl)
theorem Goes.execLetterboxReady (h : Kept U s) : Goes U (execLetterboxReady s) := .next (.ite (.update h.powerPuf (by rfl)) h)
theorem Kept.bootGo (h : Kept U s) : Kept U s.bootGo := .ite (.update h (by rfl)) h
theorem Goes.execGo (h : Kept U s) : Goes U (execGo s) := .next h.bootGo
theorem Kept.stage (h : Kept U s) {b} : Kept U (s.stage b) := ⟨fun c => Memory.writeBytes_wf _ _ _ (h.hbm c), h.pending, h.store⟩
theorem Kept.keepFetched (h : Kept U s) {f} : Kept U (s.keepFetched f) := .update h (by rfl)
theorem Kept.applyTile (h : Kept U s) {phys} : Kept U (s.applyTile phys) := .update h (by rfl)

theorem Kept.applyRepairMap (h : Kept U s) {m} : Kept U (s.applyRepairMap m) := by
  unfold State.applyRepairMap
  refine Kept.foldl (h.update (by rfl)) fun _ _ h => ?_
  split
  · exact h.applyTile
  · exact h.setLinkN
  · exact h

theorem Kept.applyTrims (h : Kept U s) : Kept U s.applyTrims := .foldl (.update h (by rfl)) fun _ _ h => .update h (by rfl)

theorem Kept.enterStarting (h : Kept U s) : Kept U s.enterStarting := by
  unfold State.enterStarting
  exact .applyTrims (.applyRepairMap (h.update (by rfl)))

theorem Kept.writeEpoch (h : Kept U s) (hU : U.Written) {mv rechecks} : Kept U (s.writeEpoch mv rechecks) := by
  grind [State.writeEpoch, Kept.writeSequence, Kept.enterStarting, Kept.bootFail, Kept.otherFields]
theorem Goes.execFetchDone (h : Kept U s) (hU : U.Written) {result mv} : Goes U (execFetchDone result mv s) :=
  .next (by grind [Kept.bootFail, Kept.writeEpoch, Kept.keepFetched, Kept.stage])
theorem Goes.execHoldupRecheck (h : Kept U s) (hU : U.Written) {mv} : Goes U (execHoldupRecheck mv s) := .next (by grind [Kept.writeEpoch])
theorem Goes.execStartingDone (h : Kept U s) {trainingFailed} : Goes U (execStartingDone trainingFailed s) :=
  .next (by grind [Kept.bootFail, Kept.failChip, Kept.clearStage, Kept.otherFields])
theorem Kept.startCommit (h : Kept U s) : Kept U s.startCommit := .ite (.update h (by rfl)) h
theorem Goes.execCommit (h : Kept U s) : Goes U (execCommit s) := .next h.startCommit
theorem Kept.finishCommit (h : Kept U s) (hU : U.Written) {mvs} : Kept U (s.finishCommit mvs) := by
  grind [State.finishCommit, Kept.runCommit, Kept.event, Kept.otherFields]
theorem Goes.execCommitDone (h : Kept U s) (hU : U.Written) {mvs} : Goes U (execCommitDone mvs s) := .next (h.finishCommit hU)
theorem Goes.execVHuMeasure (h : Kept U s) {mv} : Goes U (execVHuMeasure mv s) := .next (h.measureVhu.ite h)
theorem Kept.openDebug (h : Kept U s) : Kept U s.openDebug := h.ite (.event (.update h (by rfl)))
theorem Goes.execDbgOpen (h : Kept U s) : Goes U (execDbgOpen s) := .next (h.openDebug.ite h)
theorem Goes.execDoeDiscovery (h : Kept U s) {index} : Goes U (execDoeDiscovery index s) := .next (.update h (by rfl))
theorem Kept.frank (h : Kept U s) (hU : U.Written) {nonce mv} : Kept U (s.frank nonce mv) := by
  grind [State.frank, Kept.event, Kept.writeSequence, Kept.otherFields]
theorem Kept.attest (h : Kept U s) (hU : U.Written) {q mv} : Kept U (s.attest q mv) :=
  .ite (h.update (by rfl)) (.ite (h.update (by rfl)) (((h.finishCommit hU).frank hU).ite (h.update (by rfl))))
theorem Goes.execGetQuote (h : Kept U s) (hU : U.Written) {request mv} : Goes U (execGetQuote request mv s) := .next (h.attest hU)
theorem Goes.execGetCert (h : Kept U s) (hU : U.Written) {request} : Goes U (execGetCert request s) := .next (h.attest hU)

/-! What Machine/HostPort.lean keeps. -/

theorem Kept.hostDead (h : Kept U s) {reason write addr len} : Kept U (s.hostDead reason write addr len) := h.deadLetter
theorem Kept.badAccess (h : Kept U s) {write off size} : Kept U (s.badAccess write off size) := h.hostDead
theorem Kept.postBadCopies (h : Kept U s) : Kept U s.postBadCopies := .foldl (.update h (by rfl)) fun _ _ h => h.event
theorem Kept.freshPipe (h : Kept U s) {r} : Kept U (s.freshPipe r) := h.ite (h.setPipe.ite (h.setPipe.ite h))
theorem Kept.writeRingCtl (h : Kept U s) {r v} : Kept U (s.writeRingCtl r v) :=
  (h.setReg.setRing.freshPipe.postBadCopies.ite h.setReg.setRing.freshPipe).ite (h.setReg.settle.ite h.setReg)
theorem Goes.execRingEnable (h : Kept U s) {r value} : Goes U (execRingEnable r value s) := .next (h.writeRingCtl.ite h)
theorem Kept.takeDoorbell (h : Kept U s) {r v} : Kept U (s.takeDoorbell r v) := h.setRing.ite h.setRing.ringDrain
theorem Kept.doorbell (h : Kept U s) {off v} : Kept U (s.doorbell off v) := h.badAccess.ite (h.hostDead.ite (h.event.ite h.takeDoorbell))
theorem Goes.execDoorbell (h : Kept U s) {off value} : Goes U (execDoorbell off value s) := .next (h.doorbell.ite h)
theorem Goes.execCoalesceTimeout (h : Kept U s) {r} : Goes U (execCoalesceTimeout r s) := .next (h.setRing.msix.ite h)
theorem Goes.execRingPressure (h : Kept U s) {r} : Goes U (execRingPressure r s) := .next (h.event.ite h)
theorem Goes.execEventLost (h : Kept U s) {r} : Goes U (execEventLost r s) := .next (h.setRing.event.ite h)
theorem Kept.clearBits (h : Kept U s) {off v} : Kept U (s.clearBits off v) := h.ite h.setReg
theorem Kept.writeSectSeal (h : Kept U s) {k v} : Kept U (s.writeSectSeal k v) := h.clearBits.requestSect.ite h.clearBits
theorem Kept.writeGlbSeal (h : Kept U s) {v} : Kept U (s.writeGlbSeal v) := h.clearBits.requestDevice.ite h.clearBits
theorem Goes.execSectionSealRequest (h : Kept U s) {k value} : Goes U (execSectionSealRequest k value s) :=
  .next (h.settleFaulted.writeSectSeal.ite h)
theorem Goes.execDeviceSealRequest (h : Kept U s) {value} : Goes U (execDeviceSealRequest value s) := .next (h.settleFaulted.writeGlbSeal.ite h)
theorem Goes.execDeviceSealApply (h : Kept U s) : Goes U (execDeviceSealApply s) := .next h.applyDevice
theorem Kept.flushNetwork (h : Kept U s) {k} : Kept U (s.flushNetwork k) := .foldl (.update h (by rfl)) fun _ _ h => h.setLinkN

theorem Kept.flushEntries {k} : ∀ (es : List (List Byte)) {s i}, Kept U s → Kept U (s.flushEntries k i es)
  | [], _, _, h => h
  | [_], _, _, h => h.complete.ite h.complete
  | _ :: e :: es, _, _, h => (flushEntries es h.complete).ite (flushEntries (e :: es) h.complete)

theorem Kept.flushRing (h : Kept U s) {k es} : Kept U (s.flushRing k es) :=
  h.ite (.announce (.writeBack (.setRing (.flushEntries es h))))
theorem Kept.sectionReset (h : Kept U s) {k entries} : Kept U (s.sectionReset k entries) := h.flushNetwork.mapTiles.setSectN.flushRing.settleSeal
theorem Goes.execSectionReset (h : Kept U s) {k value entries} : Goes U (execSectionReset k value entries s) :=
  .next (h.ite (h.clearBits.setReg.ite (h.clearBits.ite h.clearBits.settleFaulted.sectionReset)))
theorem Kept.writeFields (h : Kept U s) {off r v} : Kept U (s.writeFields off r v) := by grind [State.writeFields, Kept.sealPoint, Kept.otherFields]
theorem Kept.writeLow (h : Kept U s) (hU : U.Written) {off r v} : Kept U (s.writeLow off r v) := by
  grind [State.writeLow, Kept.writeGlbSeal, Kept.writeGlbReset, Kept.bootGo, Kept.startCommit, Kept.writeFields]
theorem Kept.writeHigh (h : Kept U s) {off r v} : Kept U (s.writeHigh off r v) := by
  grind [State.writeHigh, Kept.writeFence, Kept.writeFields, Kept.openDebug, Kept.otherFields]

theorem Kept.writeReg (h : Kept U s) (hU : U.Written) {off r v} : Kept U (s.writeReg off r v) := by
  grind [State.writeReg, Kept.writeLow, Kept.writeRingCtl, Kept.writeFields, Kept.writeSectSeal,
    Kept.clearBits, Kept.writeXlinkCtl, Kept.writeHigh]

theorem Kept.writeBar0 (h : Kept U s) (hU : U.Written) {off size v} : Kept U (s.writeBar0 off size v) := by
  grind [State.writeBar0, Kept.doorbell, Kept.badAccess, Kept.writeReg]
theorem Goes.execRegisterWrite (h : Kept U s) (hU : U.Written) {off size value} : Goes U (execRegisterWrite off size value s) :=
  .next (h.settleFaulted.writeBar0 hU)
theorem Kept.readReg (h : Kept U s) {off r} : Kept U (s.readReg off r) := by grind [State.readReg, Kept.clearCounter, Kept.otherFields]
theorem Kept.readBar0 (h : Kept U s) {off size} : Kept U (s.readBar0 off size) := by
  grind [State.readBar0, Kept.badAccess, Kept.readReg, Kept.otherFields]
theorem Goes.execReadClear (h : Kept U s) {off size} : Goes U (execReadClear off size s) := .next h.settleFaulted.readBar0
theorem Goes.execLatchingRead (h : Kept U s) {off size} : Goes U (execLatchingRead off size s) := .next h.settleFaulted.readBar0

/-! What Machine/Ports.lean keeps. -/

theorem Kept.unsupported (h : Kept U s) : Kept U s.unsupported := .update h (by rfl)
theorem Kept.barReadSp (h : Kept U s) {a ltn off n} : Kept U (s.barReadSp a ltn off n) :=
  h.fencedLetter.unsupported.ite (h.padTouch.unsupported.ite (.update h.padTouch (by rfl)))
theorem Kept.barReadTs (h : Kept U s) {ltn off n} : Kept U (s.barReadTs ltn off n) :=
  .ite (.update h (by rfl)) (.ite (.update h.storeTouch (by rfl)) h.storeTouch.unsupported)
theorem Kept.barReadHbm (h : Kept U s) {a n} : Kept U (s.barReadHbm a n) := by
  grind [State.barReadHbm, Kept.unsupported, Kept.hbmUncorr, Kept.otherFields]

theorem Goes.execBar2Read (h : Kept U s) {o n} : Goes U (execBar2Read o n s) := .next <| h.unsupported.ite <| by
  split
  · exact h.barReadTs
  · exact h.barReadSp
  · exact h.barReadHbm
  · exact h.hostDead.unsupported
  · exact h.hostDead.unsupported

theorem Kept.barWriteTs (h : Kept U s) {a ltn off bs} : Kept U (s.barWriteTs a ltn off bs) := h.hostDead.ite h.outsideWrite
theorem Kept.barWriteSp (h : Kept U s) {a ltn off bs} : Kept U (s.barWriteSp a ltn off bs) := h.fencedLetter.ite h.padWrite
theorem Kept.maskLocked (h : Kept U s) {k t0} : Kept U (s.maskLocked k t0) := h.ite h.setSectN.event
theorem Kept.barWriteHbm (h : Kept U s) {a bs} : Kept U (s.barWriteHbm a bs) := by
  grind [State.barWriteHbm, Kept.maskLocked, Kept.hostDead, Kept.hbmWrite, Kept.foldl]

theorem Goes.execBar2Write (h : Kept U s) {o bs} : Goes U (execBar2Write o bs s) := .next <| h.ite <| by
  split
  · exact h.hostDead.ite h.barWriteTs
  · exact h.hostDead.ite h.barWriteSp
  · exact h.barWriteHbm
  · exact h.hostDead
  · exact h.hostDead

theorem Goes.execPcieTrainingComplete (h : Kept U s) {width rate} : Goes U (execPcieTrainingComplete width rate s) :=
  .next (h.ite (.ite (.update h (by rfl)) (.event (.update h (by rfl)))))
theorem Kept.unmask (h : Kept U s) : Kept U s.unmask := h.foldl fun _ _ h => .msix (.update h (by rfl))
theorem Kept.configWrite (h : Kept U s) {reg value} : Kept U (s.configWrite reg value) :=
  .ite (.unmask (.update h (by rfl))) (.update h (by rfl))
theorem Kept.bar4Write (h : Kept U s) {off value} : Kept U (s.bar4Write off value) := h.ite (.unmask (.update h (by rfl)))
theorem Goes.execConfigRequest (h : Kept U s) {write target value} : Goes U (execConfigRequest write target value s) :=
  .next (by grind [Kept.configWrite, Kept.bar4Write, Kept.unsupported, Kept.otherFields])
theorem Goes.execSmbusReadWord (h : Kept U s) {transfer} : Goes U (execSmbusReadWord transfer s) := .next (.update h (by rfl))
theorem Kept.tap (h : Kept U s) {n out} : Kept U (s.tap n out) := .update h (by rfl)
theorem Goes.execBypass (h : Kept U s) : Goes U (execBypass s) := .next h.tap
theorem Goes.execIdcode (h : Kept U s) : Goes U (execIdcode s) := .next h.tap
theorem Goes.execSamplePreload (h : Kept U s) {pins preload} : Goes U (execSamplePreload pins preload s) := .next (.update h (by rfl))
theorem Kept.drive (h : Kept U s) {mode cells} : Kept U (s.drive mode cells) := .update h (by rfl)
theorem Goes.execExtest (h : Kept U s) {cells} : Goes U (execExtest cells s) := .next h.drive
theorem Goes.execExtestPulse (h : Kept U s) {cells} : Goes U (execExtestPulse cells s) := .next h.drive
theorem Goes.execExtestTrain (h : Kept U s) {cells} : Goes U (execExtestTrain cells s) := .next h.drive

theorem Goes.execInternalDebug (h : Kept U s) {op} :
    Goes U (execInternalDebug op s) ∨ s.boot.dbgOpen = true ∧ execInternalDebug op s = .refused .internalDebug := by
  unfold Machine.execInternalDebug
  split
  · exact .inr ⟨‹_›, rfl⟩
  · exact .inl (.next h.tap)

/-! Every command and the step. -/

/-- Every command keeps U, but for an internal debug instruction while DBG_OPEN is set, which R414 leaves without an effect. -/
theorem exec_goes (h : Kept U s) (hU : U.Written) (c : Instr) :
    Goes U (exec c s) ∨ ∃ op, c = .internalDebug op ∧ s.boot.dbgOpen = true ∧ exec c s = .refused .internalDebug := by
  cases c with
  | add | sub | andR | orR | xor | sll | srl | sra | slt | sltu | mul | mulhs | mulhu | minR | maxR | minu | maxu | addi | andi | ori | xori | slti
  | sltiu | shiSll | shiSrl | shiSra | lw | lh | lhu | lb | lbu | sw | sh | sb | jalr | beq | bne | blt | bge | bltu | bgeu | lui | jal | cmd | waits
  | qwait | sync | closingSync | trap =>
    exact .inl (.next h.seqStep)
  | commandStart => exact .inl (.execCommandStart h)
  | commandComplete => exact .inl (.execCommandComplete h)
  | mma => exact .inl (.execMma h)
  | handOff => exact .inl (.execHandOff h)
  | drain => exact .inl (.execDrain h)
  | drainSp => exact .inl (.execDrainSp h)
  | vprog => exact .inl (.execVprog h)
  | scand => exact .inl (.execScand h)
  | smerge => exact .inl (.execSmerge h)
  | spick => exact .inl (.execSpick h)
  | fill => exact .inl (.execFill h)
  | copy => exact .inl (.execCopy h)
  | tsRead => exact .inl (.execTsRead h)
  | tsWrite => exact .inl (.execTsWrite h)
  | tfill => exact .inl (.execTfill h)
  | tcopy => exact .inl (.execTcopy h)
  | tpwr => exact .inl (.execTpwr h)
  | bankTransition => exact .inl (.execBankTransition h)
  | hread => exact .inl (.execHread h)
  | hwrite => exact .inl (.execHwrite h)
  | usend => exact .inl (.execUsend h)
  | ucount => exact .inl (.execUcount h)
  | scrub => exact .inl (.execScrub h)
  | tileFault => exact .inl (.execTileFault h)
  | barrierRelease => exact .inl (.execBarrierRelease h)
  | sendInject => exact .inl (.execSendInject h)
  | nodeCombine => exact .inl (.execNodeCombine h)
  | messageReceive => exact .inl (.execMessageReceive h)
  | exchangeComplete => exact .inl (.execExchangeComplete h)
  | exchangeOverrun => exact .inl (.execExchangeOverrun h)
  | barrierTimeout => exact .inl (.execBarrierTimeout h)
  | step => exact .inl (.execStep h)
  | whole => exact .inl (.execWhole h)
  | head => exact .inl (.execHead h)
  | middle => exact .inl (.execMiddle h)
  | tail => exact .inl (.execTail h)
  | stepBoundary => exact .inl (.execStepBoundary h)
  | switch => exact .inl (.execSwitch h)
  | load => exact .inl (.execLoad h)
  | loadDone => exact .inl (.execLoadDone h)
  | save => exact .inl (.execSave h)
  | saveDone => exact .inl (.execSaveDone h)
  | ingest => exact .inl (.execIngest h)
  | fence => exact .inl (.execFence h)
  | fenceComplete => exact .inl (.execFenceComplete h)
  | barrier => exact .inl (.execBarrier h)
  | nop => exact .inl (.execNop h)
  | doorbell => exact .inl (.execDoorbell h)
  | coalesceTimeout => exact .inl (.execCoalesceTimeout h)
  | ringPressure => exact .inl (.execRingPressure h)
  | eventLost => exact .inl (.execEventLost h)
  | sectionReset => exact .inl (.execSectionReset h)
  | sectionSealRequest => exact .inl (.execSectionSealRequest h)
  | deviceSealRequest => exact .inl (.execDeviceSealRequest h)
  | deviceSealApply => exact .inl (.execDeviceSealApply h)
  | avsReadback => exact .inl (.execAvsReadback h)
  | registerWrite => exact .inl (.execRegisterWrite h hU)
  | readClear => exact .inl (.execReadClear h)
  | ringEnable => exact .inl (.execRingEnable h)
  | bar2Read => exact .inl (.execBar2Read h)
  | bar2Write => exact .inl (.execBar2Write h)
  | configRequest => exact .inl (.execConfigRequest h)
  | ingestDescriptor => exact .inl (.execIngestDescriptor h)
  | tubeletStage => exact .inl (.execTubeletStage h)
  | ingestStalled => exact .inl (.execIngestStalled h)
  | sliceIntake => exact .inl (.execSliceIntake h)
  | rootComputeDone => exact .inl (.execRootComputeDone h)
  | versionCopyDone => exact .inl (.execVersionCopyDone h)
  | evalCopyDone => exact .inl (.execEvalCopyDone h)
  | snapDone => exact .inl (.execSnapDone h)
  | flightSend => exact .inl (.execFlightSend h)
  | flightReceive => exact .inl (.execFlightReceive h)
  | resendTimeout => exact .inl (.execResendTimeout h)
  | laneLoss => exact .inl (.execLaneLoss h)
  | laneMonitor => exact .inl (.execLaneMonitor h)
  | linkUp => exact .inl (.execLinkUp h)
  | linkDegraded => exact .inl (.execLinkDegraded h)
  | linkDown => exact .inl (.execLinkDown h)
  | linkOpen => exact .inl (.execLinkOpen h)
  | linkClose => exact .inl (.execLinkClose h)
  | retrain => exact .inl (.execRetrain h)
  | perst => exact .inl (.execPerst h hU)
  | perstDeassert => exact .inl (.execPerstDeassert h)
  | coldReset => exact .inl (.execColdReset h hU)
  | hotReset => exact .inl (.execHotReset h hU)
  | flr => exact .inl (.execFlr h hU)
  | deviceReset => exact .inl (.execDeviceReset h hU)
  | boscReady => exact .inl (.execBoscReady h)
  | refclkWindow => exact .inl (.execRefclkWindow h)
  | clkLost => exact .inl (.execClkLost h)
  | boscTrim => exact .inl (.execBoscTrim h)
  | loopReady => exact .inl (.execLoopReady h)
  | loopUnlock => exact .inl (.execLoopUnlock h)
  | railMonitor => exact .inl (.execRailMonitor h)
  | tempSample => exact .inl (.execTempSample h)
  | hbmTempSample => exact .inl (.execHbmTempSample h)
  | hbmEcs => exact .inl (.execHbmEcs h)
  | letterboxReady => exact .inl (.execLetterboxReady h)
  | go => exact .inl (.execGo h)
  | fetchDone => exact .inl (.execFetchDone h hU)
  | holdupRecheck => exact .inl (.execHoldupRecheck h hU)
  | startingDone => exact .inl (.execStartingDone h)
  | commit => exact .inl (.execCommit h)
  | dbgOpen => exact .inl (.execDbgOpen h)
  | doeDiscovery => exact .inl (.execDoeDiscovery h)
  | getQuote => exact .inl (.execGetQuote h hU)
  | getCert => exact .inl (.execGetCert h hU)
  | smbusReadWord => exact .inl (.execSmbusReadWord h)
  | bypass => exact .inl (.execBypass h)
  | idcode => exact .inl (.execIdcode h)
  | samplePreload => exact .inl (.execSamplePreload h)
  | extest => exact .inl (.execExtest h)
  | extestPulse => exact .inl (.execExtestPulse h)
  | extestTrain => exact .inl (.execExtestTrain h)
  | internalDebug op => exact (Goes.execInternalDebug h (op := op)).imp_right fun hr => ⟨op, rfl, hr⟩
  | faultFence => exact .inl (.execFaultFence h)
  | pprGo => exact .inl (.execPprGo h)
  | pprDone => exact .inl (.execPprDone h)
  | chipFailed => exact .inl (.execChipFailed h)
  | thermtripN => exact .inl (.execThermtripN h)
  | powerDown => exact .inl (.execPowerDown h hU)
  | pcieTrainingComplete => exact .inl (.execPcieTrainingComplete h)
  | ringError => exact .inl (.execRingError h)
  | commitDone => exact .inl (.execCommitDone h hU)
  | vHuMeasure => exact .inl (.execVHuMeasure h)
  | smbusReady => exact .inl (.execSmbusReady h)
  | latchingRead => exact .inl (.execLatchingRead h)
  -- SEAL, whose constructor bears the name of a Lean keyword.
  | _ => exact .inl (.execSeal h)

end

/-- What O59 keeps: the canonical form of HBM, with the queue that a step leaves. -/
def Upkeep.canonicalHbm (queue : List Instr) : Upkeep := ⟨True, queue, fun _ => True⟩

theorem step_hbm_wf {s t : State} (h : s.hbm.wf = true) (hs : step s = .next t) : t.hbm.wf = true := by
  unfold step at hs
  split at hs
  · cases hs
    exact ((⟨fun _ => h, rfl, trivial⟩ : Kept (.canonicalHbm s.pending) s).idleTick.hbm trivial)
  · next c rest _ =>
    have hk : Kept (.canonicalHbm rest) { s with pending := rest } := ⟨fun _ => h, rfl, trivial⟩
    rcases exec_goes hk (fun _ _ _ h => h) c with ⟨u, hu, ht⟩ | ⟨_, _, _, hr⟩
    · cases hu.symm.trans hs
      exact ht.hbm trivial
    · cases hr.symm.trans hs

/-- Settles O59, by what every command keeps. -/
theorem hbmStaysCanonical : Obligations.HbmStaysCanonical :=
  fun _ _ => step_hbm_wf

end Sys2Proof.Machine
end

section
/-! SUPPORT. Capture and application of staged values over sparse tables of registers (O37). -/

namespace Sys2Proof.Machine

theorem Sparse.insert_append {α : Type} {m : Sparse α} {a : Nat} {x : α} (h : ∀ e ∈ m, e.1 < a) : Sparse.insert m a x = m ++ [(a, x)] := by
  induction m with
  | nil => rfl
  | cons e m ih =>
    have he := h e (.head _)
    simp only [Sparse.insert, List.cons_append]
    rw [if_neg (by omega), if_neg (by omega), ih fun e' h' => h e' (.tail _ h')]

section
variable {α : Type} [DecidableEq α] {d : α}

theorem Sparse.get_of_above {m : Sparse α} {lo a : Nat} (h : Sparse.above d lo m = true) (ha : a < lo) : Sparse.get d m a = d := by
  induction m generalizing lo with
  | nil => rfl
  | cons e m ih =>
    simp only [Sparse.above, Bool.and_eq_true, decide_eq_true_eq] at h
    obtain ⟨⟨hk, _⟩, hm⟩ := h
    simp only [Sparse.get]
    rw [if_neg (by omega), ih hm (by omega)]

/-- Setting the entries of a canonical table one after the other behind a table of lower keys puts them behind it. -/
theorem Sparse.foldl_set {m acc : Sparse α} {lo : Nat} (h : Sparse.above d lo m = true) (ha : ∀ e ∈ acc, e.1 < lo) :
    m.foldl (fun acc e => Sparse.set d acc e.1 e.2) acc = acc ++ m := by
  induction m generalizing acc lo with
  | nil => simp
  | cons e m ih =>
    simp only [Sparse.above, Bool.and_eq_true, decide_eq_true_eq] at h
    obtain ⟨⟨hk, hx⟩, hm⟩ := h
    have hacc : ∀ e' ∈ acc, e'.1 < e.1 := fun e' h' => Nat.lt_of_lt_of_le (ha e' h') hk
    rw [List.foldl_cons, Sparse.set, if_neg hx, Sparse.insert_append hacc, ih hm]
    · simp
    · intro e' h'
      rcases List.mem_append.1 h' with h' | h'
      · have := hacc e' h'
        omega
      · simp at h'
        simp [h']

end

/-- A write leaves every other key alone, read with the default of that key. -/
theorem Sparse.get_set_other_default {α : Type} [DecidableEq α] {d d' x : α} (m : Sparse α) {a b : Nat} (h : b ≠ a) :
    Sparse.get d' (Sparse.set d m a x) b = Sparse.get d' m b := by
  unfold Sparse.set
  split
  · exact Sparse.get_filter_other d' m a b h
  · exact Sparse.get_insert_other d' m a b x h

theorem RegFile.get_put (f : RegFile) (k j : Nat) (v : Word) : (f.put k v).get j = if j = k then v else f.get j := by
  split
  · next h =>
    subst h
    exact Sparse.get_set_same (keyReset j) f.eff j v
  · next h => exact Sparse.get_set_other_default f.eff h

/-- The values of `es` made effective one after the other. -/
def RegFile.putAll (f : RegFile) (es : List (Nat × Word)) : RegFile := es.foldl (fun f e => f.put e.1 e.2) f

theorem RegFile.putAll_frame (f : RegFile) (es : List (Nat × Word)) :
    (f.putAll es).staged = f.staged ∧ (f.putAll es).captured = f.captured ∧ (f.putAll es).counters = f.counters := by
  induction es generalizing f with
  | nil => exact ⟨rfl, rfl, rfl⟩
  | cons e es ih => exact ih (f.put e.1 e.2)

/-- The values set in a canonical table, in the order of their keys. -/
def setValues (m : Sparse (Option Word)) : List (Nat × Word) := m.filterMap fun e => e.2.map fun v => (e.1, v)

theorem RegFile.get_putAll (f : RegFile) {m : Sparse (Option Word)} {lo : Nat} (h : Sparse.above none lo m = true) (key : Nat) :
    (f.putAll (setValues m)).get key = (Sparse.get none m key).getD (f.get key) := by
  induction m generalizing f lo with
  | nil => rfl
  | cons e m ih =>
    obtain ⟨k, _ | v⟩ := e
    · simp [Sparse.above] at h
    simp only [Sparse.above, Bool.and_eq_true, decide_eq_true_eq] at h
    have hput : (f.putAll (setValues ((k, some v) :: m))).get key = (Sparse.get none m key).getD ((f.put k v).get key) := ih (f.put k v) h.2
    rw [hput, RegFile.get_put, Sparse.get]
    by_cases hk : key = k
    · simp [hk, Sparse.get_of_above h.2]
    · simp [hk]

theorem RegFile.capture_captured (f : RegFile) (sc : Scope) (hc : f.captured = []) (hw : Sparse.wf none f.staged = true) :
    (f.capture sc).captured = f.staged.filter fun e => inScope sc e.1 := by
  have h := Sparse.foldl_set (acc := []) (Sparse.above_filter none (fun e => inScope sc e.1) f.staged hw) (by simp)
  simp only [RegFile.capture, hc]
  exact h.trans (List.nil_append _)

theorem filterMap_congr_of_mem {α β : Type} {l : List α} {f g : α → Option β} (h : ∀ a ∈ l, f a = g a) : l.filterMap f = l.filterMap g := by
  have hmap := congrArg (List.filterMap id) (List.map_congr_left h)
  rw [List.filterMap_map, List.filterMap_map] at hmap
  exact hmap

theorem RegFile.set_eq_setValues {f : RegFile} {sc : Scope} (h : ∀ e ∈ f.captured, inScope sc e.1 = true) : f.set sc = setValues f.captured :=
  filterMap_congr_of_mem fun e he => by
    rw [h e he]
    cases e.2 <;> rfl

theorem RegFile.applySet_eq {f : RegFile} {sc : Scope} (h : ∀ e ∈ f.captured, inScope sc e.1 = true) :
    f.applySet sc = { f with captured := [] }.putAll (setValues f.captured) := by
  have hempty : (f.captured.filter fun e => !inScope sc e.1) = [] := by
    simpa [List.filter_eq_nil_iff] using h
  rw [RegFile.applySet, RegFile.set_eq_setValues h, hempty, RegFile.putAll]

/-- Settles O37: the captured table is the scope's part of the staged one, and each of its keys stands in it once. -/
theorem sealsMakeStagedValuesEffective : Obligations.SealsMakeStagedValuesEffective := by
  intro f sc key hc hw g
  have hcap := f.capture_captured sc hc hw
  have hall : ∀ e ∈ (f.capture sc).captured, inScope sc e.1 = true := by
    intro e he
    rw [hcap] at he
    exact (List.mem_filter.1 he).2
  have hg : g = { f.capture sc with captured := [] }.putAll (setValues (f.staged.filter fun e => inScope sc e.1)) := by
    rw [← hcap]
    exact RegFile.applySet_eq hall
  obtain ⟨hstaged, hcaptured, hcounters⟩ := RegFile.putAll_frame { f.capture sc with captured := [] } (setValues (f.staged.filter fun e => inScope sc e.1))
  rw [← hg] at hstaged hcaptured hcounters
  refine ⟨?_, ?_, hcaptured, hcounters⟩
  · rw [hg, RegFile.get_putAll _ (Sparse.above_filter none _ f.staged hw), Sparse.get_filter]
    split <;> rfl
  · rw [hstaged]
    refine (Sparse.get_filter none (fun k => !inScope sc k) f.staged key).trans ?_
    cases inScope sc key <;> rfl

end Sys2Proof.Machine
end

section
/-! SUPPORT. What a write and a read of an assigned BAR0 register do (O38). -/

namespace Sys2Proof.Machine

/-- Taking the common bits away clears them. -/
theorem testBit_sub_and (a b i : Nat) : (a - (a &&& b)).testBit i = (a.testBit i && !b.testBit i) := by
  induction i generalizing a b with
  | zero =>
    have hle : a &&& b ≤ a := Nat.and_le_left
    have hbit : (a &&& b) % 2 = 1 ↔ a % 2 = 1 ∧ b % 2 = 1 := Nat.and_mod_two_eq_one
    rw [Bool.eq_iff_iff]
    simp only [Nat.testBit_zero, Bool.and_eq_true, Bool.not_eq_true', decide_eq_true_eq, decide_eq_false_iff_not]
    omega
  | succ i ih =>
    have hle : a &&& b ≤ a := Nat.and_le_left
    have hbit : (a &&& b) % 2 = 1 ↔ a % 2 = 1 ∧ b % 2 = 1 := Nat.and_mod_two_eq_one
    have hdiv : (a &&& b) / 2 = a / 2 &&& b / 2 := Nat.and_div_two
    have hhalf : (a - (a &&& b)) / 2 = a / 2 - (a / 2 &&& b / 2) := by
      rw [← hdiv]
      omega
    rw [Nat.testBit_succ, Nat.testBit_succ, Nat.testBit_succ, hhalf, ih]

/-- A word whose bits in `mask` come from v and whose other bits come from the old value, some of them cleared. -/
theorem merged_word_and_mask (old v mask cleared : Nat) :
    (BitVec.ofNat 32 ((old - (old &&& mask)) - ((old - (old &&& mask)) &&& cleared) ||| (v &&& mask))).toNat &&& mask = v &&& mask &&& (2 ^ 32 - 1) := by
  rw [BitVec.toNat_ofNat, ← Nat.and_two_pow_sub_one_eq_mod]
  refine Nat.eq_of_testBit_eq fun i => ?_
  simp only [Nat.testBit_and, Nat.testBit_or, testBit_sub_and]
  cases mask.testBit i <;> simp

/-! What a register is, and what a plain write makes of the register file. -/

/-- The fields of a register are all staged or none is. -/
def RegSpec.oneKind (r : RegSpec) : Bool := r.st == 0 || r.rw == 0 && r.w1c == 0

theorem sectSpec_oneKind (k o : Nat) : (sectSpec k o).all RegSpec.oneKind = true := by
  simp only [sectSpec, apply_ite (Option.all RegSpec.oneKind), Option.all_some, Option.all_none]
  simp only [RegSpec.oneKind, stReg, rwReg, roReg, rcReg, beq_self_eq_true, Bool.and_self, Bool.true_or, Bool.or_true, ite_self]

theorem lowSpec_oneKind (o : Nat) : (lowSpec o).all RegSpec.oneKind = true := by
  simp only [lowSpec, apply_ite (Option.all RegSpec.oneKind), Option.all_some, Option.all_none]
  simp only [RegSpec.oneKind, stReg, rwReg, roReg, beq_self_eq_true, Bool.and_self, Bool.true_or, Bool.or_true, ite_self]

theorem regSpec_aligned {o : Nat} {r : RegSpec} (h : regSpec o = some r) : o % 4 = 0 :=
  Decidable.byContradiction fun ha => by
    rw [regSpec, if_pos ha] at h
    cases h

/-- The offsets of O38: the registers of the SECT and BOOT blocks that do no more than hold a value. -/
def plainOffset (ready : Bool) (o : Nat) : Prop :=
  ready = true ∧ 0x60000 ≤ o ∧ o < 0x61000 ∧ o % 0x100 ≠ 0x0C ∧ o % 0x100 ≠ 0x18 ∨ 0x10000 ≤ o ∧ o < 0x20000 ∧ o ≠ oBootCmd

theorem regSpec_oneKind {o : Nat} {r : RegSpec} {b : Bool} (h : regSpec o = some r) (ho : plainOffset b o) : r.oneKind = true := by
  have ha : ¬ o % 4 ≠ 0 := by simp [regSpec_aligned h]
  unfold regSpec at h
  rw [if_neg ha] at h
  rcases ho with ⟨_, hl, hu, _⟩ | ⟨hl, hu, _⟩
  · rw [if_neg (by omega), if_neg (by simp only [oRing]; omega), if_neg (by simp only [oRingDone]; omega), if_neg (by simp only [oRingDone]; omega),
      if_neg (by simp only [oSect]; omega), if_pos (by simp only [oSect]; omega)] at h
    have hs := sectSpec_oneKind ((o - oSect 0) / 0x100) (o % 0x100)
    simpa [h] using hs
  · rw [if_pos (by omega)] at h
    have hs := lowSpec_oneKind o
    simpa [h] using hs

theorem writeReg_plain {s : State} {o : Nat} {b : Bool} (ho : plainOffset b o) (r : RegSpec) (v : Nat) : s.writeReg o r v = s.writeFields o r v := by
  unfold State.writeReg
  rcases ho with ⟨_, hl, hu, hseal, hreset⟩ | ⟨hl, hu, hcmd⟩
  · rw [if_neg (by omega), if_neg (by simp only [oRing]; omega), if_neg (by simp only [oSect]; omega), if_pos (by simp only [oSect]; omega)]
    exact (if_neg hseal).trans (if_neg hreset)
  · rw [if_pos (by omega), State.writeLow, if_neg (by simp only [oGlbSeal]; omega), if_neg (by simp only [oGlbReset]; omega), if_neg hcmd]

/-- The value in effect after a plain write of v to a key: RW fields take it, W1C fields clear, the others stay (R11). -/
def RegFile.merged (f : RegFile) (key : Nat) (r : RegSpec) (v : Nat) : Word :=
  let old := (f.get key).toNat
  BitVec.ofNat 32 ((old - (old &&& r.rw)) - ((old - (old &&& r.rw)) &&& (v &&& r.w1c)) ||| (v &&& r.rw))

/-- The registers after a plain write of v to a key (R11). -/
def RegFile.written (f : RegFile) (key : Nat) (r : RegSpec) (v : Nat) : RegFile :=
  let g := if r.rw = 0 ∧ r.w1c = 0 then f else f.put key (f.merged key r v)
  if r.st = 0 then g else g.stage key (BitVec.ofNat 32 (v &&& r.st))

theorem sealPoint_eq {s : State} {k : Nat} (h : s.atSealPoint k = false) : s.sealPoint k = s := by
  unfold State.sealPoint
  split <;> simp [h]

theorem writeFields_eq {s : State} {o v : Nat} {r : RegSpec} (hr : r.oneKind = true) (hp : ∀ k, s.atSealPoint k = false) :
    s.writeFields o r v = { s with regs := s.regs.written (regKey o (s.selOf r)) r v } := by
  unfold State.writeFields RegFile.written
  by_cases hst : r.st = 0
  · simp only [hst, if_true]
    split <;> rfl
  · have hrw : r.rw = 0 ∧ r.w1c = 0 := by simpa [RegSpec.oneKind, hst] using hr
    simp only [if_neg hst, if_pos hrw]
    split
    · rw [sealPoint_eq (hp _)]
    · rfl

theorem RegFile.get_stage (f : RegFile) (k j : Nat) (v : Word) : (f.stage k v).get j = f.get j := rfl

theorem RegFile.seen_stage_same (f : RegFile) (k : Nat) (v : Word) : (f.stage k v).seen k = v := by
  simp [RegFile.seen, RegFile.stage]

theorem RegFile.seen_stage_other (f : RegFile) {k j : Nat} (v : Word) (h : j ≠ k) : (f.stage k v).seen j = f.seen j := by
  simp only [RegFile.seen, RegFile.stage, Sparse.get_set_other none f.staged k j (some v) h]
  rfl

theorem RegFile.seen_put_other (f : RegFile) {k j : Nat} (v : Word) (h : j ≠ k) : (f.put k v).seen j = f.seen j := by
  have hg : (f.put k v).get j = f.get j := by rw [RegFile.get_put, if_neg h]
  simp only [RegFile.seen, hg]
  rfl

section
variable (f : RegFile) (key : Nat) (r : RegSpec) (v : Nat)

theorem RegFile.seen_written (h : r.st ≠ 0) : (f.written key r v).seen key = BitVec.ofNat 32 (v &&& r.st) := by
  unfold RegFile.written
  simp only [if_neg h, RegFile.seen_stage_same]

theorem RegFile.get_written (h : r.rw ≠ 0) : ((f.written key r v).get key).toNat &&& r.rw = v &&& r.rw &&& (2 ^ 32 - 1) := by
  have hput : (f.written key r v).get key = f.merged key r v := by
    unfold RegFile.written
    simp only [h, false_and, if_false, apply_ite (RegFile.get · key), RegFile.get_stage, RegFile.get_put, if_true, ite_self]
  rw [hput]
  exact merged_word_and_mask ..

theorem RegFile.written_other {j : Nat} (h : j ≠ key) : (f.written key r v).get j = f.get j ∧ (f.written key r v).seen j = f.seen j := by
  unfold RegFile.written
  constructor
  · simp only [apply_ite (RegFile.get · j), RegFile.get_stage, RegFile.get_put, if_neg h, ite_self]
  · simp only [apply_ite (RegFile.seen · j), RegFile.seen_stage_other _ _ h, RegFile.seen_put_other _ _ h, ite_self]

theorem RegFile.written_frame : (f.written key r v).counters = f.counters ∧ (f.written key r v).latches = f.latches := by
  unfold RegFile.written
  constructor <;> (split <;> split <;> rfl)

end

/-! Clearing counters and the seals that wait. -/

theorem settleFaulted_eq {s : State} (h : Claims.NoLateSeal s) : s.settleFaulted = s := by
  have settled (k) (hk : k < 16) : (if (s.sectN k).phase = .faulted then s.settleSeal k else s) = s := by
    split
    · next hf =>
      obtain ⟨hp, hn⟩ := h k hk hf
      have ha : s.applyPending k = s := by simp [State.applyPending, State.nextSeal, hp, hn]
      simp [State.settleSeal, hf, ha]
    · rfl
  unfold State.settleFaulted
  exact List.foldlRecOn (motive := (· = s)) _ _ rfl fun t ht k hk => by
    subst ht
    exact settled k (List.mem_range.1 hk)

theorem counter_clearCounter (s : State) (c : CounterAt) : (s.clearCounter c).counter c = 0 := by
  cases c with
  | key k => simp [State.clearCounter, State.counter]
  | tile n i =>
    simp only [State.clearCounter, State.counter, State.tileN_setTileN_same, Vector.toList_setIfInBounds, List.getD_eq_getElem?_getD,
      List.getElem?_set_self']
    cases (s.tileN n).memCnt.toList[i]? <;> rfl

theorem readReg_reply (s : State) (o : Nat) (r : RegSpec) : (s.readReg o r).reply = .data (s.peek o r) := rfl

theorem readReg_counter {s : State} {o : Nat} {r : RegSpec} (h : r.rc = true) : (s.readReg o r).counter (s.counterAt o) = 0 := by
  have hc : (s.readReg o r).counter (s.counterAt o) = (s.clearCounter (s.counterAt o)).counter (s.counterAt o) := by
    unfold State.readReg
    simp only [h, if_true]
    split <;> rfl
  rw [hc, counter_clearCounter]

theorem readReg_latch {s : State} {o : Nat} {r : RegSpec} {w : Nat} (h : r.rc = false) (hw : s.hiOfLo o = some w) : s.readReg o r =
    { s with regs := { s.regs with latches := Sparse.set 0 s.regs.latches o (BitVec.ofNat 32 w) }, reply := .data (s.peek o r) } := by
  simp [State.readReg, h, hw]

theorem readReg_plain {s : State} {o : Nat} {r : RegSpec} (h : r.rc = false) (hw : s.hiOfLo o = none) :
    s.readReg o r = { s with reply := .data (s.peek o r) } := by
  simp [State.readReg, h, hw]

/-! Accesses by width and by boot state. -/

theorem writeBar0_reg {s : State} {o v : Nat} {r : RegSpec} (hr : regSpec o = some r) (hs : s.ready = true ∨ inBoot o = true) (hd : inDoorbells o = false) :
    s.writeBar0 o 4 v = s.writeReg o r (v % 2 ^ 32) := by
  have hb : (!s.ready && !inBoot o) = false := by rcases hs with h | h <;> simp [h]
  simp [State.writeBar0, hb, hd, regSpec_aligned hr, hr]

theorem readBar0_reg {s : State} {o : Nat} {r : RegSpec} (hr : regSpec o = some r) (hs : s.ready = true ∨ inBoot o = true) :
    s.readBar0 o 4 = s.readReg o r := by
  have hb : (!s.ready && !inBoot o) = false := by rcases hs with h | h <;> simp [h]
  simp [State.readBar0, hb, regSpec_aligned hr, hr]

theorem inBoot_iff (o : Nat) : inBoot o = true ↔ 0x10000 ≤ o ∧ o < 0x20000 := by
  simp [inBoot]

theorem inDoorbells_iff (o : Nat) : inDoorbells o = true ↔ 0x50000 ≤ o ∧ o < 0x51000 := by
  simp [inDoorbells]

theorem writeBar0_plain {s : State} {o v : Nat} {r : RegSpec} (hr : regSpec o = some r) (ho : plainOffset s.ready o) (hp : ∀ k, s.atSealPoint k = false) :
    s.writeBar0 o 4 v = { s with regs := s.regs.written (regKey o (s.selOf r)) r (v % 2 ^ 32) } := by
  have hs : s.ready = true ∨ inBoot o = true := ho.imp (·.1) fun ⟨hl, hu, _⟩ => (inBoot_iff o).2 ⟨hl, hu⟩
  have hd : inDoorbells o = false := by
    rw [Bool.eq_false_iff, ne_eq, inDoorbells_iff]
    rcases ho with ⟨_, hl, _⟩ | ⟨_, hu, _⟩ <;> omega
  rw [writeBar0_reg hr hs hd, writeReg_plain ho, writeFields_eq (regSpec_oneKind hr ho) hp]

/-- Settles O38: each access goes to the register's plain write or read, whose effect on the register file the lemmas above say. -/
theorem registerAccesses : Obligations.RegisterAccesses := by
  intro s off v r size o key hn
  have hw (sz) : exec (.registerWrite off sz v) s = .next (s.writeBar0 o sz v.toNat) := by
    rw [exec, execRegisterWrite, settleFaulted_eq hn]
  have hr (sz) : exec (.readClear off sz) s = .next (s.readBar0 o sz) := by
    rw [exec, execReadClear, settleFaulted_eq hn]
  have hl (sz) : exec (.latchingRead off sz) s = .next (s.readBar0 o sz) := by
    rw [exec, execLatchingRead, settleFaulted_eq hn]
  refine ⟨fun hreg ho _ hp => ?_, fun hs hreg => ?_, fun hs hreg hrc w hhi => ?_, fun hs ho => ?_, fun hs hsz ho => ?_, fun hs hsz => ?_⟩
  · obtain ⟨hcounters, hlatches⟩ := RegFile.written_frame s.regs key r (v.toNat % 2 ^ 32)
    exact ⟨s.regs.written key r (v.toNat % 2 ^ 32), (hw 4).trans (congrArg _ (writeBar0_plain hreg ho hp)),
      RegFile.seen_written _ _ _ _, RegFile.get_written _ _ _ _, fun j => RegFile.written_other _ _ _ _, hcounters, hlatches⟩
  · refine ⟨s.readReg o r, ?_, readReg_reply .., readReg_counter, readReg_plain⟩
    rw [hr, readBar0_reg hreg (hs.imp_right (inBoot_iff o).2)]
  · rw [hl, readBar0_reg hreg (.inl hs), readReg_latch hrc hhi]
  · have hb : inBoot o = false := by
      rw [Bool.eq_false_iff, ne_eq, inBoot_iff]
      omega
    rw [hw, hr]
    simp [State.writeBar0, State.readBar0, hs, hb]
  · have hd : inDoorbells o = false := by
      rw [Bool.eq_false_iff, ne_eq, inDoorbells_iff]
      omega
    rw [hw]
    simp [State.writeBar0, hs, hd, hsz, State.badAccess, State.hostDead]
  · rw [hr]
    simp [State.readBar0, hs, hsz, State.badAccess, State.hostDead]

end Sys2Proof.Machine
end

section
/-! SUPPORT. What BAR2 does to the memories of a tile and to HBM, place by place (O39). -/

namespace Sys2Proof.Machine

/-! Tile stores that are served at once. -/

theorem Tile.count_zero (t : Tile) (i : Fin 6) : t.count i 0 = t := by
  have hv : (BitVec.ofNat 32 (satAdd32 (t.memCnt.get i).toNat 0)) = t.memCnt.get i := by
    have := (t.memCnt.get i).isLt
    apply BitVec.eq_of_toNat_eq
    rw [BitVec.toNat_ofNat, satAdd32, Nat.add_zero, Nat.min_eq_left (by omega), Nat.mod_eq_of_lt this]
  have hs : t.memCnt.set i (t.memCnt.get i) i.isLt = t.memCnt := Vector.set_getElem_self i.isLt
  rw [Tile.count, hv, hs]

section
variable {m : TileStore} (h : m.flips = [])
include h

theorem TileStore.word_of_clean (a : Nat) : m.word a = .clean 0 := by
  simp [TileStore.word, h, Sparse.get]

theorem TileStore.byte_of_clean (a : Nat) : m.byte a = m.bytes.read a := by
  simp [TileStore.byte, TileStore.word_of_clean h, EccResult.residual]

theorem TileStore.check_of_clean (a n : Nat) : m.check a n = (0, none) := by
  simp [TileStore.check, h]

end

theorem TileStore.read_add (m : TileStore) (a n k : Nat) : m.read a (n + k) = m.read a n ++ m.read (a + n) k := by
  induction n generalizing a with
  | zero => simp [TileStore.read]
  | succ n ih => rw [Nat.succ_add, TileStore.read, TileStore.read, ih, List.cons_append, Nat.add_assoc, Nat.add_comm 1 n]

/-- The rows of a range, read one after the other, are the range. -/
theorem TileStore.flatMap_rows (m : TileStore) (a n : Nat) : (wordsOf a n 64).flatMap (fun r => m.read (rowPart a n r).1 (rowPart a n r).2) = m.read a n := by
  have upTo (k : Nat) (hn : 0 < n) (hk : k ≤ (a + n - 1) / 64 + 1 - a / 64) :
      ((List.range k).map (· + a / 64)).flatMap (fun r => m.read (rowPart a n r).1 (rowPart a n r).2) = m.read a (min (a + n) (64 * (a / 64 + k)) - a) := by
    induction k with
    | zero => rw [show min (a + n) (64 * (a / 64 + 0)) - a = 0 by omega]; rfl
    | succ k ih =>
      have hpart : (rowPart a n (k + a / 64)).1 = a + (min (a + n) (64 * (a / 64 + k)) - a) := by simp only [rowPart]; omega
      have hlen : min (a + n) (64 * (a / 64 + (k + 1))) - a = (min (a + n) (64 * (a / 64 + k)) - a) + (rowPart a n (k + a / 64)).2 := by
        simp only [rowPart]; omega
      rw [List.range_succ, List.map_append, List.flatMap_append, ih (by omega), hlen, TileStore.read_add, ← hpart]
      simp
  unfold wordsOf
  split
  · next hn => subst hn; rfl
  · rw [upTo _ (by omega) (Nat.le_refl _)]
    congr 1
    omega

section
variable {x : Tile} {o n : Nat} (h : Claims.Served x) (hn : o + n ≤ 0x1800000)
include h hn

theorem rowFate_of_served {r : Nat} (hr : r ∈ wordsOf o n 64) : x.ts.rowFate r = .on := by
  rw [mem_wordsOf (by omega)] at hr
  obtain ⟨hon, htarget⟩ := h.2 (tsBankOf (64 * r)) (by simp only [tsBankOf]; omega)
  have hsize : ¬ tsSize ≤ 64 * r := by simp only [tsSize]; omega
  simp [TileStore.rowFate, hsize, hon, htarget]

theorem rowsWith_on_of_served : x.ts.rowsWith .on o n = wordsOf o n 64 :=
  List.filter_eq_self.2 fun r hr => by simp [rowFate_of_served h hn hr]

theorem rowsWith_of_served {f : RowFate} (hf : f ≠ .on) : x.ts.rowsWith f o n = [] :=
  List.filter_eq_nil_iff.2 fun r hr => by simpa [rowFate_of_served h hn hr] using hf.symm

end

/-! What a write from outside makes of a tile store. -/

/-- The rows of a held write performed one after the other. -/
def TileStore.writeRows (m : TileStore) (h : HeldWrite) (rows : List Nat) : TileStore := rows.foldl (fun m r => m.write (h.part r).1 (h.part r).2) m

theorem TileStore.writeRows_frame {m : TileStore} (hm : m.flips = []) (h : HeldWrite) (rows : List Nat) :
    (m.writeRows h rows).flips = [] ∧ (m.writeRows h rows).granules = m.granules ∧ (m.writeRows h rows).banks = m.banks := by
  induction rows generalizing m with
  | nil => exact ⟨hm, rfl, rfl⟩
  | cons r rows ih =>
    obtain ⟨hf, hg, hb⟩ := ih (m := m.write (h.part r).1 (h.part r).2) (by simp [TileStore.write, hm])
    exact ⟨hf, hg, hb⟩

theorem foldl_storePart {x : Tile} (hx : x.ts.flips = []) (h : HeldWrite) (hp : h.postmark = none) (rows : List Nat) :
    rows.foldl (fun (x : Tile) r => x.storePart h.postmark (h.part r).1 (h.part r).2) x = { x with ts := x.ts.writeRows h rows } := by
  induction rows generalizing x with
  | nil => rfl
  | cons r rows ih =>
    have hpart : x.storePart h.postmark (h.part r).1 (h.part r).2 = { x with ts := x.ts.write (h.part r).1 (h.part r).2 } := by
      simp [Tile.storePart, hx, hp, Tile.count_zero]
    rw [List.foldl_cons, hpart, ih (by simp [TileStore.write, hx])]
    rfl

theorem TileStore.read_writeRows {m : TileStore} (h : HeldWrite) {rows : List Nat} (hr : ∀ r ∈ rows, r ∈ wordsOf h.off h.data.length 64) (a : Nat) :
    (m.writeRows h rows).bytes.read a =
      if a / 64 ∈ rows ∧ h.off ≤ a ∧ a < h.off + h.data.length then h.data.getD (a - h.off) 0 else m.bytes.read a := by
  induction rows generalizing m with
  | nil => simp [TileStore.writeRows]
  | cons r rows ih =>
    have hrow := (mem_wordsOf (by omega)).1 (hr r (.head _))
    have hlen : (h.part r).2.length = min (h.off + h.data.length) (64 * r + 64) - max h.off (64 * r) := by
      simp only [HeldWrite.part, rowPart, List.length_take, List.length_drop]; omega
    have hfirst : (h.part r).1 = max h.off (64 * r) := rfl
    refine (ih (m := m.write (h.part r).1 (h.part r).2) fun q hq => hr q (.tail _ hq)).trans ?_
    by_cases hin : a / 64 ∈ rows ∧ h.off ≤ a ∧ a < h.off + h.data.length
    · rw [if_pos hin, if_pos ⟨.tail _ hin.1, hin.2⟩]
    rw [if_neg hin]
    by_cases ha : a / 64 = r ∧ h.off ≤ a ∧ a < h.off + h.data.length
    · have hb := Memory.read_writeBytes (h.part r).2 m.bytes (h.part r).1 (a - (h.part r).1) (by omega)
      rw [show (h.part r).1 + (a - (h.part r).1) = a by omega] at hb
      rw [if_pos ⟨ha.1 ▸ .head _, ha.2⟩]
      refine hb.trans ?_
      simp only [HeldWrite.part, List.getD_eq_getElem?_getD]
      rw [List.getElem?_take_of_lt (by simp only [rowPart]; omega), List.getElem?_drop]
      simp only [rowPart]
      congr 2
      omega
    · rw [if_neg fun hc => ?_]
      · exact Memory.read_writeBytes_other (h.part r).2 m.bytes (h.part r).1 a (by omega)
      · rcases List.mem_cons.1 hc.1 with e | e
        · exact ha ⟨e, hc.2⟩
        · exact hin ⟨e, hc.2⟩

theorem judgeRows_of_on {s : State} {ltn : Nat} {h : HeldWrite} (hp : h.postmark = none) (hd : h.dropped = []) (hx : (s.tileN ltn).ts.flips = [])
    (hon : ∀ r ∈ h.rows, (s.tileN ltn).ts.rowFate r = .on) :
    s.judgeRows ltn h h.rows = s.setTileN ltn { s.tileN ltn with ts := (s.tileN ltn).ts.writeRows h h.rows } := by
  have hkeep : h.rows.filter (fun r => (s.tileN ltn).ts.rowFate r == .on) = h.rows :=
    List.filter_eq_self.2 fun r hr => by simp [hon r hr]
  have hoff : h.rows.filter (fun r => (s.tileN ltn).ts.rowFate r != .on) = [] :=
    List.filter_eq_nil_iff.2 fun r hr => by simp [hon r hr]
  have hleft : h.rows.filter (fun r => !h.rows.contains r) = [] :=
    List.filter_eq_nil_iff.2 fun r hr => by simpa using hr
  simp only [State.judgeRows, hkeep, hoff, hleft, foldl_storePart hx h hp, hd, leastOf, List.append_nil, List.isEmpty_nil, if_true, State.heldLetter]

section
variable {s : State} {ltn o : Nat} (hs : Claims.Served (s.tileN ltn)) (hf : s.fencedLtn ltn = false)
include hs hf

theorem outsideWrite_of_served {data : List Byte} (source origin : Nat) (hn : o + data.length ≤ 0x1800000) (hne : data ≠ []) :
    ∃ m, s.outsideWrite ltn o data source origin none = s.setTileN ltn { s.tileN ltn with ts := m } ∧ Claims.WroteTs (s.tileN ltn).ts m o data := by
  let w : HeldWrite := { off := o, data := data, source := source, origin := origin, postmark := none, rows := wordsOf o data.length 64 }
  have hpos : 0 < data.length := List.length_pos_iff.2 hne
  have hon (r) (hr : r ∈ wordsOf o data.length 64) := rowFate_of_served hs hn hr
  have hrows : (wordsOf o data.length 64).filter (fun r => (s.tileN ltn).ts.rowFate r != .reserved) = wordsOf o data.length 64 :=
    List.filter_eq_self.2 fun r hr => by simp [hon r hr]
  have hfree : (wordsOf o data.length 64).filter (fun r => (s.tileN ltn).ts.rowFate r != .held) = wordsOf o data.length 64 :=
    List.filter_eq_self.2 fun r hr => by simp [hon r hr]
  have hmem {a : Nat} (hl : o ≤ a) (hu : a < o + data.length) : a / 64 ∈ wordsOf o data.length 64 := by
    rw [mem_wordsOf (by omega)]
    omega
  have hnonempty : (wordsOf o data.length 64).isEmpty = false :=
    List.isEmpty_eq_false_iff.2 (List.ne_nil_of_mem (hmem (Nat.le_refl o) (by omega)))
  obtain ⟨hflips, hgranules, hbanks⟩ := TileStore.writeRows_frame hs.1 w w.rows
  have hread := TileStore.read_writeRows (m := (s.tileN ltn).ts) w (rows := w.rows) fun _ hr => hr
  refine ⟨(s.tileN ltn).ts.writeRows w w.rows, ?_, hgranules, hbanks, fun i hi => ?_, fun a ha => ?_⟩
  · have hjudge := judgeRows_of_on (h := w) rfl rfl hs.1 hon
    simp only [State.outsideWrite, hf, hrows, hfree, hnonempty, rowsWith_of_served hs hn (f := .reserved) (by decide)]
    exact hjudge
  · rw [TileStore.byte_of_clean hflips, hread, if_pos ⟨hmem (by omega) (by omega), Nat.le_add_right .., Nat.add_lt_add_left hi o⟩]
    congr 1
    exact Nat.add_sub_cancel_left o i
  · rw [TileStore.byte_of_clean hflips, TileStore.byte_of_clean hs.1, hread, if_neg]
    rintro ⟨_, hl, hu⟩
    have hl' : o ≤ a := hl
    have hu' : a < o + data.length := hu
    omega

variable {n : Nat} (hn : o + n ≤ 0x1800000)
include hn

theorem storeWaits_of_served : s.storeWaits ltn o n = false := by
  simp [State.storeWaits, hf, rowsWith_of_served hs hn (f := .held) (by decide)]

theorem storeTouch_of_served (source origin : Nat) : s.storeTouch ltn o n source origin = s.setTileN ltn (s.tileN ltn) := by
  have hsum (l : List Nat) : ((l.map fun _ => ((0, none) : Nat × Option Nat)).map (·.1)).foldl (· + ·) 0 = 0 := by
    induction l with
    | nil => rfl
    | cons _ _ ih => simpa using ih
  have hfind (l : List Nat) : (l.map fun _ => ((0, none) : Nat × Option Nat)).findSome? (·.2) = none := by
    simp
  simp only [State.storeTouch, State.storeTouchAt, hf, TileStore.check_of_clean hs.1, hsum, hfind, Tile.count_zero,
    rowsWith_of_served hs hn (f := .asleep) (by decide), rowsWith_of_served hs hn (f := .reserved) (by decide)]
  rfl

theorem storeServed_of_served : s.storeServed ltn o n = true := by
  simp only [State.storeServed, hf, Bool.not_false, Bool.true_and, List.all_eq_true]
  intro r hr
  simp [rowFate_of_served hs hn hr, TileStore.check_of_clean hs.1]

theorem storeBytes_of_served : s.storeBytes ltn o n = (s.tileN ltn).ts.read o n := by
  rw [← TileStore.flatMap_rows]
  refine congrArg List.flatten (List.map_congr_left fun r hr => ?_)
  simp [hf, rowFate_of_served hs hn hr, TileStore.check_of_clean hs.1]

end

/-! Accesses of BAR2 by place. -/

/-- What a read of the place of device address a leaves (R10, R336). -/
def State.readPlace (s : State) (a n : Nat) : Place → State
  | .tileStore ltn o => s.barReadTs ltn o n
  | .scratchpad ltn o => s.barReadSp a ltn o n
  | .hbm => s.barReadHbm a n
  | .reserved => (s.hostDead 2 false a n).unsupported
  | .unmapped => (s.hostDead 1 false a n).unsupported

/-- What a write of the place of device address a leaves (R10, R336). -/
def State.writePlace (s : State) (a : Nat) (bs : List Byte) : Place → State
  | .tileStore ltn o => if s.tileBusy ltn then s.hostDead 3 true a bs.length else s.barWriteTs a ltn o bs
  | .scratchpad ltn o => if s.tileBusy ltn then s.hostDead 3 true a bs.length else s.barWriteSp a ltn o bs
  | .hbm => s.barWriteHbm a bs
  | .reserved => s.hostDead 2 true a bs.length
  | .unmapped => s.hostDead 1 true a bs.length

theorem execBar2Read_eq {s : State} (hs : s.ready = true) (off : BitVec 38) (n : Nat) :
    execBar2Read off n s = .next (s.readPlace (s.barAddr off.toNat) n (placeOf (s.barAddr off.toNat))) := by
  unfold execBar2Read
  simp only [hs, Bool.not_true, Bool.false_eq_true, if_false]
  cases placeOf (s.barAddr off.toNat) <;> simp only [State.readPlace]

theorem execBar2Write_eq {s : State} (hs : s.ready = true) (hf : s.repair.failed = false) (off : BitVec 38) {data : List Byte} (hd : data ≠ []) :
    execBar2Write off data s = .next (s.writePlace (s.barAddr off.toNat) data (placeOf (s.barAddr off.toNat))) := by
  unfold execBar2Write
  have hne : data.isEmpty = false := List.isEmpty_eq_false_iff.2 hd
  simp only [hs, hf, hne, Bool.not_true, Bool.or_self, Bool.false_eq_true, if_false]
  cases placeOf (s.barAddr off.toNat) <;> simp only [State.writePlace]

/-- The device address of a tile store is what its dead letters name (R355). -/
theorem storeAddr_of_place {a ltn o : Nat} (h : placeOf a = .tileStore ltn o) : storeAddr 0 ltn o = a := by
  unfold placeOf at h
  split at h
  · split at h
    · injection h with hl ho
      rw [storeAddr, if_neg (by decide)]
      omega
    · cases h
  · split at h
    · cases h
    · split at h <;> cases h

section
variable {s : State} {a ltn o n : Nat}

theorem barReadSp_of_checked {c : Nat} (hf : s.fencedLtn ltn = false) (hc : (s.tileN ltn).sp.check o n = (c, none)) :
    s.barReadSp a ltn o n = { s.setTileN ltn (Claims.corrected (s.tileN ltn) c) with reply := .bytes ((s.tileN ltn).sp.read o n) } := by
  simp [State.barReadSp, State.padTouch, State.padBytes, hf, hc, Claims.corrected]

theorem barReadTs_of_served (hs : Claims.Served (s.tileN ltn)) (hf : s.fencedLtn ltn = false) (hn : o + n ≤ 0x1800000) :
    s.barReadTs ltn o n = { s.setTileN ltn (s.tileN ltn) with reply := .bytes ((s.tileN ltn).ts.read o n) } := by
  simp only [State.barReadTs, storeWaits_of_served hs hf hn, storeTouch_of_served hs hf hn, storeServed_of_served hs hf hn,
    storeBytes_of_served hs hf hn, Bool.false_eq_true, if_false, if_true]

theorem barReadSp_of_fenced (hf : s.fencedLtn ltn = true) : s.barReadSp a ltn o n = (s.fencedLetter false ltn a n).unsupported := by
  simp [State.barReadSp, hf]

theorem barReadTs_of_fenced (hf : s.fencedLtn ltn = true) : s.barReadTs ltn o n = (s.fencedLetter false ltn (storeAddr 0 ltn o) n).unsupported := by
  simp [State.barReadTs, State.storeWaits, State.storeTouch, State.storeTouchAt, State.storeServed, hf]

theorem barReadHbm_of_good (h : s.hbmBadUnit a n = none) : s.barReadHbm a n = { s with reply := .bytes (s.hbm.readBytes a n) } := by
  simp [State.barReadHbm, h]

variable {data : List Byte}

theorem barWriteSp_of_checked {c : Nat} (hf : s.fencedLtn ltn = false) (hc : (s.tileN ltn).sp.checkPartial o data.length = (c, none)) :
    ∃ m, s.barWriteSp a ltn o data = s.setTileN ltn { Claims.corrected (s.tileN ltn) c with sp := m } ∧ Claims.Wrote (s.tileN ltn).sp m o data := by
  obtain ⟨hin, hout, hcls, hmode⟩ := Scratchpad.write_spec (s.tileN ltn).sp o data
  refine ⟨(s.tileN ltn).sp.write o data, ?_, ⟨hcls, hmode, hout⟩, hin⟩
  simp only [State.barWriteSp, State.padWrite, hf, hc, Bool.false_eq_true, if_false]
  rfl

theorem barWriteTs_of_served (hs : Claims.Served (s.tileN ltn)) (hf : s.fencedLtn ltn = false) (hn : o + data.length ≤ 0x1800000) (hne : data ≠ [])
    (hc : (s.tileN ltn).meetsCurrent o data.length = false) :
    ∃ m, s.barWriteTs a ltn o data = s.setTileN ltn { s.tileN ltn with ts := m } ∧ Claims.WroteTs (s.tileN ltn).ts m o data := by
  simp only [State.barWriteTs, hf, hc, Bool.not_false, Bool.and_false, Bool.false_eq_true, if_false]
  exact outsideWrite_of_served hs hf 0 Config.requesterId hn hne

theorem barWriteSp_of_fenced (hf : s.fencedLtn ltn = true) : s.barWriteSp a ltn o data = s.fencedLetter true ltn a data.length := by
  simp [State.barWriteSp, hf]

theorem barWriteTs_of_fenced (hf : s.fencedLtn ltn = true) : s.barWriteTs a ltn o data = s.fencedLetter true ltn (storeAddr 0 ltn o) data.length := by
  simp [State.barWriteTs, State.outsideWrite, hf]

theorem barWriteHbm_of_free (h : ∀ k, k < 16 → ((s.sectN k).busy = true → (s.sectN k).rowWordHit a data.length = false) ∧
    s.maskHits (s.sectN k) a data.length = [] ∧ (s.sectN k).shuffleHit a data.length = false) : s.barWriteHbm a data = s.hbmWrite a data := by
  have hlocked : s.lockedTables a data.length = [] := by
    simp only [State.lockedTables, List.flatMap_eq_nil_iff, List.mem_range]
    intro k hk
    rw [(h k hk).2.1, List.map_nil]
  have hrows : ((List.range 16).map s.sectN).any (fun x => x.busy && x.rowWordHit a data.length) = false := by
    simp only [List.any_map, List.any_eq_false, List.mem_range, Function.comp_apply, Bool.and_eq_true, not_and, Bool.not_eq_true]
    exact fun k hk => (h k hk).1
  have hshuffle : ((List.range 16).map s.sectN).any (fun x => x.shuffleHit a data.length) = false := by
    simp only [List.any_map, List.any_eq_false, List.mem_range, Function.comp_apply, Bool.not_eq_true]
    exact fun k hk => (h k hk).2.2
  have hfree : s.hbmRefusal a data.length = none := by
    simp [State.hbmRefusal, hrows, hlocked, hshuffle]
  simp only [State.barWriteHbm, hfree]

end

/-- Settles O39: an access goes to the read or write of its place, whose outcome the lemmas above say. -/
theorem windowAccesses : Obligations.WindowAccesses := by
  intro s off n ltn o c data a x hs
  have hr {p : Place} (hp : placeOf a = p) : exec (.bar2Read off n) s = .next (s.readPlace a n p) := by
    rw [exec, execBar2Read_eq hs, ← hp]
    rfl
  have hw {p : Place} (hf : s.repair.failed = false) (hd : data ≠ []) (hp : placeOf a = p) :
      exec (.bar2Write off data) s = .next (s.writePlace a data p) := by
    rw [exec, execBar2Write_eq hs hf off hd, ← hp]
    rfl
  refine ⟨fun hp hf _ hc => ?_, fun hp hf hserved hn => ?_, fun hp hf => ?_, fun hp _ hgood => ?_, hr, hr, fun hok hne => ?_⟩
  · rw [hr hp, State.readPlace, barReadSp_of_checked hf hc]
  · rw [hr hp, State.readPlace, barReadTs_of_served hserved hf hn]
  · rcases hp with hp | hp
    · rw [hr hp, State.readPlace, barReadSp_of_fenced hf]
      rfl
    · rw [hr hp, State.readPlace, barReadTs_of_fenced hf, storeAddr_of_place hp]
      rfl
  · rw [hr hp, State.readPlace, barReadHbm_of_good hgood]
  · have hwp {p} (hp : placeOf a = p) := hw hok hne hp
    refine ⟨fun hp hb hf _ hc => ?_, fun hp hb hf hcur hserved hn => ?_, fun hp _ hfree => ?_, fun hp hb => ?_, fun hp hb hf => ?_, hwp, hwp⟩
    · obtain ⟨m, hm, hwrote⟩ := barWriteSp_of_checked (a := a) hf hc
      exact ⟨m, by rw [hwp hp, State.writePlace, hb, if_neg Bool.false_ne_true, hm], hwrote⟩
    · obtain ⟨m, hm, hwrote⟩ := barWriteTs_of_served (a := a) hserved hf hn hne hcur
      exact ⟨m, by rw [hwp hp, State.writePlace, hb, if_neg Bool.false_ne_true, hm], hwrote⟩
    · rw [hwp hp, State.writePlace, barWriteHbm_of_free hfree]
    · rcases hp with hp | hp <;>
      · rw [hwp hp, State.writePlace, hb, if_pos rfl]
        rfl
    · rcases hp with hp | hp
      · rw [hwp hp, State.writePlace, hb, if_neg Bool.false_ne_true, barWriteSp_of_fenced hf]
        rfl
      · rw [hwp hp, State.writePlace, hb, if_neg Bool.false_ne_true, barWriteTs_of_fenced hf, storeAddr_of_place hp]
        rfl

end Sys2Proof.Machine
end

section
/-! SUPPORT. What a table reads as after a run is written into it, and how many elements and bytes a row or a block takes (R102). -/

namespace Sys2Proof.Machine

/-! Tables written in runs. -/

section
variable {α : Type} {d : α}

theorem Sparse.get_append_of_absent_left {m m' : Sparse α} {a : Nat} (h : ∀ e ∈ m, e.1 ≠ a) : Sparse.get d (m ++ m') a = Sparse.get d m' a := by
  induction m with
  | nil => rfl
  | cons e m ih =>
    rw [List.cons_append, Sparse.get, if_neg (Ne.symm (h e (.head _)))]
    exact ih fun e he => h e (.tail _ he)

theorem Sparse.get_append_of_absent_right {m m' : Sparse α} {a : Nat} (h : ∀ e ∈ m', e.1 ≠ a) : Sparse.get d (m ++ m') a = Sparse.get d m a := by
  induction m with
  | nil => simpa using Sparse.get_append_of_absent_left (m' := []) h
  | cons e m ih => rw [List.cons_append, Sparse.get, Sparse.get, ih]

variable [DecidableEq α]

theorem Sparse.le_of_mem_run {xs : List α} {lo : Nat} {e : Nat × α} (h : e ∈ Sparse.run d lo xs) : lo ≤ e.1 := by
  induction xs generalizing lo with
  | nil => cases h
  | cons x xs ih =>
    rw [Sparse.run] at h
    split at h
    · exact Nat.le_of_succ_le (ih h)
    · rcases List.mem_cons.1 h with rfl | h
      · exact Nat.le_refl _
      · exact Nat.le_of_succ_le (ih h)

theorem Sparse.get_run (xs : List α) (lo i : Nat) : Sparse.get d (Sparse.run d lo xs) (lo + i) = xs.getD i d := by
  induction xs generalizing lo i with
  | nil => rfl
  | cons x xs ih =>
    cases i with
    | zero =>
      have habsent : ∀ e ∈ Sparse.run d (lo + 1) xs, e.1 ≠ lo := fun e he => Nat.ne_of_gt (Sparse.le_of_mem_run he)
      have hrest : Sparse.get d (Sparse.run d (lo + 1) xs) lo = d := by
        simpa [Sparse.get] using Sparse.get_append_of_absent_left (d := d) (m' := []) habsent
      rw [Sparse.run]
      split
      · next hx => simpa [hx] using hrest
      · simp [Sparse.get]
    | succ i =>
      have hrest := ih (lo + 1) i
      rw [show lo + 1 + i = lo + (i + 1) by omega] at hrest
      rw [Sparse.run]
      split
      · simpa using hrest
      · simpa [Sparse.get] using hrest

/-- A run that is put into a table reads back; every other key reads as before. -/
theorem Sparse.get_putRun (m : Sparse α) (lo : Nat) (xs : List α) (a : Nat) :
    Sparse.get d (Sparse.putRun d m lo xs) a = if lo ≤ a ∧ a < lo + xs.length then xs.getD (a - lo) d else Sparse.get d m a := by
  have hlow := Sparse.get_filter d (fun k => decide (k < lo)) m a
  have hhigh := Sparse.get_filter d (fun k => decide (lo + xs.length ≤ k)) m a
  have hrun {e : Nat × α} (he : e ∈ Sparse.run d lo xs) : lo ≤ e.1 ∧ e.1 < lo + xs.length :=
    ⟨Sparse.le_of_mem_run he, Sparse.above_run.2 e he⟩
  have hlowKeys {e : Nat × α} (he : e ∈ m.filter fun e => decide (e.1 < lo)) : e.1 < lo := by simpa using (List.mem_filter.1 he).2
  have hhighKeys {e : Nat × α} (he : e ∈ m.filter fun e => decide (lo + xs.length ≤ e.1)) : lo + xs.length ≤ e.1 := by
    simpa using (List.mem_filter.1 he).2
  rw [Sparse.putRun]
  by_cases hbelow : a < lo
  · rw [if_neg (by omega), Sparse.get_append_of_absent_right fun e he => by have := hhighKeys he; omega,
      Sparse.get_append_of_absent_right fun e he => by have := hrun he; omega, hlow, if_pos (by simpa using hbelow)]
  by_cases habove : lo + xs.length ≤ a
  · rw [if_neg (by omega), List.append_assoc, Sparse.get_append_of_absent_left fun e he => by have := hlowKeys he; omega,
      Sparse.get_append_of_absent_left fun e he => by have := hrun he; omega, hhigh, if_pos (by simpa using habove)]
  · rw [if_pos (by omega), Sparse.get_append_of_absent_right fun e he => by have := hhighKeys he; omega,
      Sparse.get_append_of_absent_left fun e he => by have := hlowKeys he; omega]
    have hat := Sparse.get_run (d := d) xs lo (a - lo)
    rwa [show lo + (a - lo) = a by omega] at hat

end

/-! Elements of a row or a block. -/

theorem Fmt.bytes_of_wide {f : Fmt} (h : f.width ≠ 4) (n : Nat) : f.bytes n = n * (f.width / 8) := by
  cases f <;> simp only [Fmt.bytes, Fmt.width] at h ⊢ <;> omega

theorem Fmt.bytes_pos (f : Fmt) {n : Nat} (h : 0 < n) : 0 < f.bytes n := by
  cases f <;> simp only [Fmt.bytes, Fmt.width] <;> omega

theorem length_elems {f : Fmt} {bs : List Byte} {n : Nat} (h : f.bytes n ≤ bs.length) : (elems f bs n).length = n := by
  by_cases hw : f.width = 4
  · simp only [Fmt.bytes, hw] at h
    fun_induction elems f bs n with
    | case1 => rfl
    | case2 => simp only [List.length_nil] at h; omega
    | case3 => rfl
    | case4 _ _ _ _ ih => simp only [List.length_cons] at h ⊢; rw [ih (by omega)]
    | case5 => contradiction
  · clear h
    induction n generalizing bs with
    | zero => rfl
    | succ n ih => rw [elems.eq_def]; simp [hw, ih]

theorem length_packElems (f : Fmt) (old : Byte) (cs : List Nat) : (packElems f old cs).length = f.bytes cs.length := by
  by_cases hw : f.width = 4
  · simp only [Fmt.bytes, hw]
    fun_induction packElems f old cs with
    | case1 => rfl
    | case2 => simp
    | case3 => contradiction
    | case4 _ _ _ _ ih => simp only [List.length_cons, ih]; omega
    | case5 => contradiction
  · rw [Fmt.bytes_of_wide hw]
    fun_induction packElems f old cs with
    | case1 => simp
    | case2 => contradiction
    | case3 => simp
    | case4 => contradiction
    | case5 _ _ _ _ ih => simp only [List.length_append, leBytes_length, ih, List.length_cons, Nat.succ_mul]; omega

end Sys2Proof.Machine
end

section
/-! SUPPORT. Accesses of an engine that nothing stops (R86, R201-R203), and a rule that puts them together. -/

namespace Sys2Proof.Machine

open Claims

theorem engReach_of_covered {covered : Nat → Nat → Bool} {ts : Bool} {a n : Nat}
    (h : ∀ r ∈ wordsOf a n 64, covered (rowPart a n r).1 (rowPart a n r).2 = true) : engReach none covered ts a n = (n, none) := by
  have hall : (wordsOf a n 64).takeWhile (fun r => covered (rowPart a n r).1 (rowPart a n r).2) = wordsOf a n 64 := by
    have happend := List.takeWhile_append_of_pos (l₂ := []) h
    rwa [List.append_nil, List.takeWhile_nil, List.append_nil] at happend
  simp [engReach, hall]

theorem covers_rowPart {f : Footprint} {a n r : Nat} (h : Inside f a n) (hr : r ∈ wordsOf a n 64) :
    f.covers false (rowPart a n r).1 (rowPart a n r).2 = true := by
  obtain ⟨hts, hlo, hhi, _⟩ := h
  rw [mem_wordsOf (by omega)] at hr
  simp only [Footprint.covers, hts, beq_self_eq_true, Bool.true_and, Bool.and_eq_true, decide_eq_true_eq]
  simp only [rowPart]
  omega

section
variable {α β : Type} {s s' : EngState} {a : α}

theorem Eng.run_bind {m : Eng α} {f : α → Eng β} (h : m.run s = (.ok a, s')) : (m >>= f).run s = (f a).run s' := by
  show (m >>= f) s = f a s'
  have h' : m s = (.ok a, s') := h
  simp only [bind, ExceptT.bind, StateT.bind, ExceptT.mk, ExceptT.bindCont, h']

theorem Eng.run_get : (get : Eng EngState).run s = (.ok s, s) := rfl
theorem Eng.run_set : (set s' : Eng PUnit).run s = (.ok ⟨⟩, s') := rfl

end

theorem engTry_run {fs : List Footprint} {a n k c : Nat} {s : EngState} {stop : Option (Nat × Nat)}
    (hreach : engReach s.grant (fun o k => fs.any fun f => f.covers false o k) false a n = (k, stop)) (hc : s.tile.sp.check a k = (c, none)) :
    (engTry fs a n).run s = (.ok (s.tile.sp.read a k, stop), { s.spend a k with tile := s.tile.count 3 c }) := by
  unfold engTry
  rw [Eng.run_bind Eng.run_get]
  simp only [hreach, hc]
  rw [Eng.run_bind Eng.run_set]
  rfl

theorem engRead_of_inside {f : Footprint} {a n c : Nat} {x : Tile} (h : Inside f a n) (hc : x.sp.check a n = (c, none)) :
    (engRead [f] a n).run { tile := x } = (.ok (x.sp.read a n), { tile := corrected x c }) := by
  have hreach : engReach none (fun o k => [f].any fun f => f.covers false o k) false a n = (n, none) :=
    engReach_of_covered fun r hr => by simp [covers_rowPart h hr]
  unfold engRead
  rw [Eng.run_bind (engTry_run hreach hc)]
  rfl

theorem engPut_run {f : Footprint} {a c : Nat} {bs : List Byte} {grant : Option Nat} {s : EngState}
    (hreach : engReach grant (fun o k => f.covers false o k) false a bs.length = (bs.length, none)) (hc : s.tile.sp.checkPartial a bs.length = (c, none)) :
    (engPut grant f a bs).run s = (.ok (), { s with tile := { s.tile.count 3 c with sp := s.tile.sp.write a bs } }) := by
  unfold engPut
  rw [Eng.run_bind Eng.run_get]
  simp only [hreach, Bool.false_and, hc, List.take_length]
  rw [Eng.run_bind Eng.run_set]
  rfl

theorem engWrite_of_inside {f : Footprint} {a c : Nat} {x : Tile} {bs : List Byte} (h : Inside f a bs.length) (hc : x.sp.checkPartial a bs.length = (c, none)) :
    (engWrite f a bs).run { tile := x } = (.ok (), { tile := { corrected x c with sp := x.sp.write a bs } }) := by
  have hreach : engReach none (fun o k => f.covers false o k) false a bs.length = (bs.length, none) :=
    engReach_of_covered fun r hr => covers_rowPart h hr
  unfold engWrite
  rw [Eng.run_bind Eng.run_get, Eng.run_bind Eng.run_set, engPut_run hreach hc]
  rfl

/-! What an engine answers and leaves, put together from what its accesses do. -/

/-- Run on tile x with nothing to stop it, m answers a and leaves a tile y with R a y, and sends no byte away. -/
def Runs {α : Type} (m : Eng α) (x : Tile) (R : α → Tile → Prop) : Prop := ∃ a y, m.run { tile := x } = (.ok a, { tile := y }) ∧ R a y

section
variable {α β : Type} {x : Tile} {R : α → Tile → Prop}

theorem Runs.pure {a : α} (h : R a x) : Runs (pure a) x R := ⟨a, x, rfl, h⟩

theorem Runs.mono {m : Eng α} {Q : α → Tile → Prop} (h : Runs m x R) (hQ : ∀ a y, R a y → Q a y) : Runs m x Q := by
  obtain ⟨a, y, he, hr⟩ := h
  exact ⟨a, y, he, hQ a y hr⟩

theorem Runs.bind {m : Eng α} {f : α → Eng β} {Q : β → Tile → Prop} (h : Runs m x R) (hf : ∀ a y, R a y → Runs (f a) y Q) : Runs (m >>= f) x Q := by
  obtain ⟨a, y, he, hr⟩ := h
  obtain ⟨b, z, he', hq⟩ := hf a y hr
  exact ⟨b, z, (Eng.run_bind he).trans he', hq⟩

theorem Runs.tile_bind {f : Tile → Eng α} (h : Runs (f x) x R) : Runs (engTile >>= f) x R :=
  .bind (R := fun a y => x = a ∧ x = y) ⟨x, x, rfl, rfl, rfl⟩ fun _ _ ⟨ha, hy⟩ => ha ▸ hy ▸ h

theorem Runs.modify {f : Tile → Tile} {R : Unit → Tile → Prop} (h : R () (f x)) : Runs (engModify f) x R := ⟨(), f x, rfl, h⟩

end

theorem Scratchpad.check_of_clean {m : Scratchpad} (h : m.flips = []) (a n : Nat) : m.check a n = (0, none) := by
  simp [Scratchpad.check, h]

theorem Scratchpad.checkPartial_of_clean {m : Scratchpad} (h : m.flips = []) (a n : Nat) : m.checkPartial a n = (0, none) := by
  simp [Scratchpad.checkPartial, h]

theorem Scratchpad.openRows_clean (rs : List Nat) {m : Scratchpad} (h : m.flips = []) : (m.openRows rs).flips = [] := by
  induction rs generalizing m with
  | nil => exact h
  | cons r rs ih =>
    refine ih ?_
    unfold Scratchpad.openRow
    split
    · exact h
    · simp [h, Sparse.clearRange]

theorem Scratchpad.write_clean {m : Scratchpad} (h : m.flips = []) (a : Nat) (bs : List Byte) : (m.write a bs).flips = [] := by
  have ho := Scratchpad.openRows_clean (wordsOf a bs.length 64) h
  simp [Scratchpad.write, ho]

section
variable {x : Tile} {f : Footprint} {a n : Nat} (hx : x.sp.flips = [])
include hx

theorem Runs.read {R : List Byte → Tile → Prop} (hf : Inside f a n) (h : R (x.sp.read a n) x) : Runs (engRead [f] a n) x R := by
  refine ⟨_, _, engRead_of_inside hf (Scratchpad.check_of_clean hx a n), ?_⟩
  rwa [corrected, Tile.count_zero]

theorem Runs.read_bind {α : Type} {g : List Byte → Eng α} {R : α → Tile → Prop} (hf : Inside f a n) (h : Runs (g (x.sp.read a n)) x R) :
    Runs (engRead [f] a n >>= g) x R :=
  .bind (.read hx (R := fun bs y => x.sp.read a n = bs ∧ x = y) hf ⟨rfl, rfl⟩) fun _ _ ⟨hb, hy⟩ => hb ▸ hy ▸ h

theorem Runs.write {bs : List Byte} {R : Unit → Tile → Prop} (hf : Inside f a bs.length) (h : R () { x with sp := x.sp.write a bs }) :
    Runs (engWrite f a bs) x R := by
  refine ⟨_, _, engWrite_of_inside hf (Scratchpad.checkPartial_of_clean hx a bs.length), ?_⟩
  rwa [corrected, Tile.count_zero]

end

theorem State.engine_of_runs {s : State} {t : Ltn} {q op : Nat} {e : QEntry} {f : StepEnv → List Byte → Eng Nat} {R : Nat → Tile → Prop}
    (h : Started s t q op e) (hf : Runs (f (s.stepEnv (s.sectNo t)) e.desc) (s.tile t) R) :
    ∃ n y, s.engine t q op f = s.setTile t (ran y q e n) ∧ R n y := by
  obtain ⟨hfence, hfault, ⟨rest, hqueue⟩, hstatus, hop⟩ := h
  obtain ⟨n, y, hrun, hr⟩ := hf
  refine ⟨n, y, ?_, hr⟩
  have hfront : (s.tile t).inExecution q op = some e := by simp [Tile.inExecution, hqueue, hop, hstatus, hfault]
  have hwork : (s.tile t).work q e (f (s.stepEnv (s.sectNo t)) e.desc) = (.ok n, { tile := y }) := by
    simpa [Tile.work, hstatus] using hrun
  simp only [State.engine, State.clocked, hfence, Bool.false_eq_true, if_false, Tile.runEngine, hfront, hwork, Tile.worked, hstatus, reduceCtorEq]
  rfl

end Sys2Proof.Machine
end

section
/-! SUPPORT. What a drain changes, row by row (R115-R124). -/

namespace Sys2Proof.Machine

open Claims

/-- What a drain with descriptor bytes d, slot and kind of output leaves of tile x when it answers tile y: the scratchpad outside its write
footprint, the accumulators, squares and drain buffer, the step state of other slots and, for an ACC40 output, the row statistics. -/
structure Drained (d : List Byte) (slot : Nat) (accOut : Bool) (x y : Tile) : Prop where
  frame : { y with sp := x.sp, me := x.me, acc := x.acc } = x
  kept : KeptOutside x.sp y.sp (fpWr d).off (fpWr d).len
  clean : y.sp.flips = []
  me : { y.me with stats := x.me.stats, statValid := x.me.statValid } = x.me
  me_of_accOut : accOut = true → y.me = x.me
  acc : ∀ c, c ≠ slot → Sparse.get {} y.acc c = Sparse.get {} x.acc c

section
variable {d : List Byte} {slot : Nat} {accOut : Bool} {x y z : Tile}

theorem Drained.refl (h : x.sp.flips = []) : Drained d slot accOut x x :=
  ⟨rfl, ⟨rfl, rfl, fun _ _ => rfl⟩, h, rfl, fun _ => rfl, fun _ _ => rfl⟩

theorem Drained.trans (h : Drained d slot accOut x y) (h' : Drained d slot accOut y z) : Drained d slot accOut x z where
  frame :=
    calc { z with sp := x.sp, me := x.me, acc := x.acc }
      _ = { ({ z with sp := y.sp, me := y.me, acc := y.acc } : Tile) with sp := x.sp, me := x.me, acc := x.acc } := rfl
      _ = { y with sp := x.sp, me := x.me, acc := x.acc } := by rw [h'.frame]
      _ = x := h.frame
  kept := by
    obtain ⟨hcls, hmode, hbytes⟩ := h.kept
    obtain ⟨hcls', hmode', hbytes'⟩ := h'.kept
    exact ⟨hcls'.trans hcls, hmode'.trans hmode, fun o ho => (hbytes' o ho).trans (hbytes o ho)⟩
  clean := h'.clean
  me :=
    calc { z.me with stats := x.me.stats, statValid := x.me.statValid }
      _ = { ({ z.me with stats := y.me.stats, statValid := y.me.statValid } : Matrix) with stats := x.me.stats, statValid := x.me.statValid } := rfl
      _ = { y.me with stats := x.me.stats, statValid := x.me.statValid } := by rw [h'.me]
      _ = x.me := h.me
  me_of_accOut ha := (h'.me_of_accOut ha).trans (h.me_of_accOut ha)
  acc c hc := (h'.acc c hc).trans (h.acc c hc)

theorem Drained.write (h : x.sp.flips = []) {a : Nat} {bs : List Byte} (hin : Inside (fpWr d) a bs.length) :
    Drained d slot accOut x { x with sp := x.sp.write a bs } := by
  obtain ⟨_, hlo, hhi, _⟩ := hin
  obtain ⟨_, hout, hcls, hmode⟩ := Scratchpad.write_spec x.sp a bs
  exact ⟨rfl, ⟨hcls, hmode, fun o ho => hout o (by omega)⟩, Scratchpad.write_clean h a bs, rfl, fun _ => rfl, fun _ _ => rfl⟩

theorem Drained.update (h : x.sp.flips = []) {me : Matrix} {acc : Sparse StepAcc} (hme : { me with stats := x.me.stats, statValid := x.me.statValid } = x.me)
    (ha : accOut = true → me = x.me) (hacc : ∀ c, c ≠ slot → Sparse.get {} acc c = Sparse.get {} x.acc c) :
    Drained d slot accOut x { x with me := me, acc := acc } :=
  ⟨rfl, ⟨rfl, rfl, fun _ _ => rfl⟩, h, hme, ha, hacc⟩

theorem Drained.flagAccSat (h : x.sp.flips = []) (sat : Bool) : Drained d slot accOut x (x.flagAccSat slot sat) := by
  unfold Tile.flagAccSat
  split
  · exact .update h rfl (fun _ => rfl) fun _ hc => Sparse.get_set_other _ _ _ _ _ hc
  · exact .refl h

/-- A write of a drain, and what follows it. -/
theorem Runs.drainWrite_bind {α : Type} (slot : Nat) (accOut : Bool) {f : Unit → Eng α} {R : α → Tile → Prop} (h : x.sp.flips = []) {a : Nat} {bs : List Byte}
    (hin : Inside (fpWr d) a bs.length) (hf : ∀ y, Drained d slot accOut x y → Runs (f ()) y R) : Runs (engWrite (fpWr d) a bs >>= f) x R :=
  .bind (.write h hin (.write h hin)) fun _ => hf

end

theorem length_codes_drainElems {x : DrainDesc} {env : StepEnv} {isInt : Bool} {fo : Fmt} {scale : Sparse Word} {i j : Nat} {es : List (Acc × Nat × Nat)} {r : DrainRow} :
    (drainElems x env isInt fo scale i j es r).codes.length = r.codes.length + es.length := by
  induction es generalizing j r with
  | nil => rfl
  | cons e es ih =>
    rw [drainElems, ih]
    simp only [List.length_append, List.length_cons, List.length_nil]
    omega

theorem RowStat.length_record (r : RowStat) : r.record.length = 32 := by
  simp [RowStat.record, fillBytes]

theorem runs_savedElems {b : Bool} {f : Footprint} {a : Nat} {fmt : Fmt} {t : Tile} (ht : t.sp.flips = []) (h : b = true → Inside f a (fmt.bytes 48)) :
    Runs (if b then do
        let bs ← engRead [f] a (fmt.bytes 48)
        pure (elems fmt bs 48) else pure (List.replicate 48 0)) t fun vs y => t = y ∧ vs.length = 48 := by
  cases b with
  | false => exact .pure ⟨rfl, List.length_replicate ..⟩
  | true => exact .read_bind ht (h rfl) (.pure ⟨rfl, length_elems (Nat.le_of_eq (Scratchpad.read_length ..).symm)⟩)

/-- The accesses of row i of a drain lie in its footprints (R86, R115). -/
structure RowFits (x : DrainDesc) (d : List Byte) (sp : Bool) (i : Nat) : Prop where
  dst : Inside (fpWr d) (rowOff x.dst x.dstStride i) (if x.accOut then 240 else ((Fmt.ofCode x.fmtO).getD .fp32).bytes 48)
  src : sp = true → Inside (fpRd1 d) (rowOff x.src x.srcStride i) 240
  pre : x.accOut = false → x.deriv = true → Inside (fpRd0 d) (rowOff x.pre x.preStride i) (((Fmt.ofCode x.fmtPre).getD .fp32).bytes 48)
  vec : x.accOut = false → x.statEn = true → x.dotEn = true → Inside (fpRd1 d) (rowOff x.vec x.vecStride i) (((Fmt.ofCode x.fmtVec).getD .fp32).bytes 48)
  stat : x.accOut = false → x.statEn = true → Inside (fpWr d) (rowOff x.stat 32 i) 32

section
variable {x : DrainDesc} {d : List Byte} {sp : Bool} {skip : Nat} (hfit : ∀ i, i < 48 → rowSkipped skip i = false → RowFits x d sp i)
include hfit

theorem runs_drainRows (env : StepEnv) (isInt : Bool) {n i : Nat} (hn : i + n = 48) (nan : Bool) {t : Tile} (ht : t.sp.flips = []) :
    Runs (drainRows x env d sp isInt skip ((Fmt.ofCode x.fmtO).getD .fp32) n i nan) t fun _ y => Drained d x.slot x.accOut t y := by
  induction n generalizing i nan t with
  | zero => exact .pure (.refl ht)
  | succ n ih =>
    have hrest {nan : Bool} {y : Tile} (h : Drained d x.slot x.accOut t y) :
        Runs (drainRows x env d sp isInt skip ((Fmt.ofCode x.fmtO).getD .fp32) n (i + 1) nan) y fun _ z => Drained d x.slot x.accOut t z :=
      (ih (by omega) nan h.clean).mono fun _ _ h' => h.trans h'
    rw [drainRows]
    split
    · exact hrest (.refl ht)
    next hskip =>
    have fits := hfit i (by omega) (by simpa using hskip)
    refine .bind (R := fun accs y => t = y ∧ accs.length = 48) ?_ ?_
    · cases sp with
      | true =>
        refine .read_bind ht (fits.src rfl) (.pure ⟨rfl, ?_⟩)
        rw [List.length_map, length_elems (by rw [Scratchpad.read_length]; decide)]
      | false => exact .tile_bind (.pure ⟨rfl, by rw [List.length_map, List.length_range]⟩)
    rintro accs _ ⟨rfl, haccs⟩
    have hdst := fits.dst
    split
    next hacc =>
      rw [if_pos hacc] at hdst
      refine .drainWrite_bind x.slot x.accOut ht ?_ fun _ => hrest
      rwa [length_packElems, List.length_map, haccs]
    next hacc =>
      rw [if_neg hacc] at hdst
      have hacc : x.accOut = false := by simpa using hacc
      refine .bind (runs_savedElems ht (fits.pre hacc)) ?_
      rintro zs _ ⟨rfl, hzs⟩
      refine .bind (runs_savedElems ht fun h => have ⟨hstat, hdot⟩ := Bool.and_eq_true_iff.1 h; fits.vec hacc hstat hdot) ?_
      rintro vs _ ⟨rfl, hvs⟩
      refine .tile_bind (.drainWrite_bind x.slot x.accOut ht ?_ fun y hy => .bind (R := fun _ z => Drained d x.slot x.accOut t z) (.modify ?_) fun _ _ => hrest)
      · rwa [length_packElems, length_codes_drainElems, List.length_zip, List.length_zip, haccs, hzs, hvs]
      · refine hy.trans (.update hy.clean ?_ (by simp [hacc]) fun _ hc => Sparse.get_set_other _ _ _ _ _ hc)
        split <;> rfl

theorem runs_drainRecords (hacc : x.accOut = false) (hstat : x.statEn = true) {n i : Nat} (hn : i + n = 48) {t : Tile} (ht : t.sp.flips = []) :
    Runs (drainRecords x d skip n i) t fun _ y => Drained d x.slot x.accOut t y := by
  induction n generalizing i t with
  | zero => exact .pure (.refl ht)
  | succ n ih =>
    rw [drainRecords]
    split
    · exact ih (by omega) ht
    next hskip =>
    have hin := (hfit i (by omega) (by simpa using hskip)).stat hacc hstat
    refine .tile_bind (.drainWrite_bind x.slot x.accOut ht (by rwa [RowStat.length_record]) fun y hy => ?_)
    exact (ih (by omega) hy.clean).mono fun _ _ h => hy.trans h

end

theorem runs_drainRun {env : StepEnv} {d : List Byte} {sp : Bool} {t : Tile} (ht : t.sp.flips = [])
    (hfit : ∀ i, i < 48 → rowSkipped (if sp then (drainDesc d).skip else t.me.dbSkip) i = false → RowFits (drainDesc d) d sp i) :
    Runs (drainRun env d sp) t fun n y => (n = 0 ∨ n = 0x0102) ∧ Drained d (drainDesc d).slot (drainDesc d).accOut t y := by
  unfold drainRun
  refine .tile_bind (.bind (runs_drainRows hfit env _ rfl false ht) fun nan y hy => ?_)
  -- what follows the statistic records, with and without them: ACC_SAT and the answer
  have hend {z : Tile} (hz : Drained d (drainDesc d).slot (drainDesc d).accOut t z) :
      Runs (engModify (fun t' => t'.flagAccSat (drainDesc d).slot (!sp && t'.me.dbSat)) >>= fun _ => pure (if nan then 0x0102 else 0)) z fun n y =>
        (n = 0 ∨ n = 0x0102) ∧ Drained d (drainDesc d).slot (drainDesc d).accOut t y := by
    refine .bind (R := fun _ y => Drained d (drainDesc d).slot (drainDesc d).accOut t y) (.modify (hz.trans (.flagAccSat hz.clean _))) fun _ _ h => .pure ⟨?_, h⟩
    cases nan
    · exact .inl rfl
    · exact .inr rfl
  dsimp only
  split
  next hstat =>
    rw [Bool.and_eq_true, Bool.not_eq_true'] at hstat
    refine .bind (runs_drainRecords hfit hstat.2 hstat.1 rfl hy.clean) fun _ z hz =>
      .bind (R := fun _ w => Drained d (drainDesc d).slot (drainDesc d).accOut t w) (.modify ?_) fun _ _ => hend
    exact hy.trans (hz.trans (.update hz.clean rfl (by simp [hstat]) fun _ _ => rfl))
  · exact hend hy

end Sys2Proof.Machine
end

section
/-! SUPPORT. What an MMA makes of the matrix engine (R99-R112), and the matrix engine's commands (O17). -/

namespace Sys2Proof.Machine

open Claims

/-- The n blocks of 48 x 48 elements from offset src on, as reads deliver them. -/
def Scratchpad.blocks (m : Scratchpad) (src : Nat) (f : Fmt) (n : Nat) : List (Array Nat) :=
  (List.range n).map fun p => (elems f (m.read (src + p * f.bytes 2304) (f.bytes 2304)) 2304).toArray

theorem Scratchpad.blocks_succ (m : Scratchpad) (src : Nat) (f : Fmt) (n : Nat) :
    m.blocks src f (n + 1) = (elems f (m.read src (f.bytes 2304)) 2304).toArray :: m.blocks (src + f.bytes 2304) f n := by
  simp only [Scratchpad.blocks, List.range_succ_eq_map, List.map_cons, List.map_map, Nat.zero_mul, Nat.add_zero]
  congr 1
  refine List.map_congr_left fun p _ => ?_
  simp only [Function.comp_apply, Nat.succ_mul]
  rw [show src + (p * f.bytes 2304 + f.bytes 2304) = src + f.bytes 2304 + p * f.bytes 2304 by omega]

theorem Scratchpad.size_of_mem_blocks {m : Scratchpad} {src n : Nat} {f : Fmt} {b : Array Nat} (h : b ∈ m.blocks src f n) : b.size = 2304 := by
  obtain ⟨p, _, rfl⟩ := List.mem_map.1 h
  rw [List.size_toArray, length_elems (Nat.le_of_eq (Scratchpad.read_length ..).symm)]

theorem runs_readBlocks {x : Tile} (hx : x.sp.flips = []) {f : Footprint} {src n : Nat} {fmt : Fmt}
    (h : 0 < n → Inside f src (n * fmt.bytes 2304)) : Runs (readBlocks f src fmt n) x fun bs y => x = y ∧ bs = x.sp.blocks src fmt n := by
  induction n generalizing src with
  | zero => exact .pure ⟨rfl, rfl⟩
  | succ n ih =>
    obtain ⟨hts, hlo, hhi, _⟩ := h (Nat.succ_pos n)
    have hpos := fmt.bytes_pos (n := 2304) (by decide)
    rw [Nat.succ_mul] at hhi
    rw [readBlocks]
    refine .read_bind hx ⟨hts, hlo, by omega, hpos⟩ (.bind (ih fun hn => ⟨hts, by omega, by omega, Nat.mul_pos hn hpos⟩) ?_)
    rintro _ _ ⟨rfl, rfl⟩
    exact .pure ⟨rfl, (x.sp.blocks_succ ..).symm⟩

theorem get_loadSquares_other {bs : List (Array Nat)} (hb : ∀ b ∈ bs, b.size = 2304) {sq : Sparse Word} {q n k : Nat}
    (hk : k < 2304 * q ∨ 2304 * (q + 2) ≤ k) : Sparse.get 0 (loadSquares sq q bs n) k = Sparse.get 0 sq k := by
  induction bs generalizing sq n with
  | nil => rfl
  | cons b bs ih =>
    have hlen : (b.toList.map (BitVec.ofNat 32)).length = 2304 := by simpa using hb b (.head _)
    rw [loadSquares, ih fun b' h => hb b' (.tail _ h), Sparse.get_putRun, if_neg (by rw [hlen]; omega)]

theorem get_loadSquares_last {bs : List (Array Nat)} (hb : ∀ b ∈ bs, b.size = 2304) (hne : bs ≠ []) {sq : Sparse Word} {q n c : Nat} (hc : c < 2304) :
    Sparse.get 0 (loadSquares sq q bs n) (2304 * (q + (n + (bs.length - 1)) % 2) + c) = BitVec.ofNat 32 ((bs.getLast hne).getD c 0) := by
  induction bs generalizing sq n with
  | nil => contradiction
  | cons b bs ih =>
    cases bs with
    | nil =>
      have hlen : b.size = 2304 := hb b (.head _)
      rw [loadSquares, loadSquares, Sparse.get_putRun]
      simp [hlen, hc]
    | cons b' bs =>
      have hlast := ih (fun b h => hb b (.tail _ h)) (List.cons_ne_nil _ _) (sq := Sparse.putRun 0 sq (2304 * (q + n % 2)) (b.toList.map (BitVec.ofNat 32))) (n := n + 1)
      rw [loadSquares, List.getLast_cons (List.cons_ne_nil _ _), ← hlast]
      congr 4
      simp only [List.length_cons]
      omega

/-- The elements that PRELOAD reads: a row for 1, a block for 2 (R105). -/
def Scratchpad.preload (sp : Scratchpad) (m : MmaDesc) : List Nat :=
  let fp := (Fmt.ofCode m.fmtP).getD .fp32
  elems fp (if m.preload = 1 then sp.read m.preSrc (fp.bytes 48) else if m.preload = 2 then sp.read m.preSrc (fp.bytes 2304) else []) (if m.preload = 1 then 48 else 2304)

/-- What the accumulation of cell c = 48 i + j starts from (R105, R106). -/
def Tile.mmaStart (x : Tile) (m : MmaDesc) (c : Nat) : Acc :=
  let fp := (Fmt.ofCode m.fmtP).getD .fp32
  match m.preload with
  | 0 => 0
  | 1 => toAcc (fmtInt m.fmtA) (fp.decode ((x.sp.preload m).toArray.getD (c % 48) 0))
  | 2 => toAcc (fmtInt m.fmtA) (fp.decode ((x.sp.preload m).toArray.getD c 0))
  | _ => Sparse.get 0 x.me.acc c

/-- Cell c = 48 i + j after an MMA, and whether it saturated (R107-R112). -/
def Tile.mmaCell (x : Tile) (env : StepEnv) (m : MmaDesc) (fa fb : Fmt) (c : Nat) : Acc × Bool :=
  let nb := (m.kSteps + 47) / 48
  let i := c / 48
  let j := c % 48
  if rowSkipped m.skip i then (Sparse.get 0 x.me.acc c, false)
  else cellAdds m env fa fb (fmtInt m.fmtA) (x.sp.blocks m.aSrc fa nb).toArray (x.sp.blocks m.bSrc fb nb).toArray i j
    (m.outBase + i * m.rowStep + j * m.colStep) m.kSteps 0 (x.mmaStart m c, false)

/-- The matrix engine after an MMA (R101, R105-R112). -/
def Tile.afterMma (x : Tile) (env : StepEnv) (m : MmaDesc) (fa fb : Fmt) : Matrix :=
  let nb := (m.kSteps + 47) / 48
  let cells := (List.range 2304).map (x.mmaCell env m fa fb)
  { x.me with
    squares := loadSquares (loadSquares x.me.squares 0 (x.sp.blocks m.aSrc fa nb) 0) 2 (x.sp.blocks m.bSrc fb nb) 0
    acc := Sparse.putRun 0 x.me.acc 0 (cells.map (·.1))
    accOpen := true
    accInt := fmtInt m.fmtA
    accSat := (m.preload == 3 && x.me.accSat) || cells.any (·.2)
    accSkip := m.skip }

theorem runs_mmaRun {env : StepEnv} {d : List Byte} {x : Tile} {fa fb : Fmt} (hx : x.sp.flips = [])
    (hfa : Fmt.ofCode (mmaDesc d).fmtA = some fa) (hfb : Fmt.ofCode (mmaDesc d).fmtB = some fb)
    (ha : Inside (fpRd0 d) (mmaDesc d).aSrc (((mmaDesc d).kSteps + 47) / 48 * fa.bytes 2304))
    (hb : Inside (fpRd1 d) (mmaDesc d).bSrc (((mmaDesc d).kSteps + 47) / 48 * fb.bytes 2304))
    (hrow : (mmaDesc d).preload = 1 → Inside (fpRd2 d) (mmaDesc d).preSrc (((Fmt.ofCode (mmaDesc d).fmtP).getD .fp32).bytes 48))
    (hblock : (mmaDesc d).preload = 2 → Inside (fpRd2 d) (mmaDesc d).preSrc (((Fmt.ofCode (mmaDesc d).fmtP).getD .fp32).bytes 2304)) :
    Runs (mmaRun env d) x fun _ y => y = { x with me := x.afterMma env (mmaDesc d) fa fb } := by
  unfold mmaRun
  simp only [hfa, hfb]
  refine .bind (R := fun pre y => x = y ∧ pre = if (mmaDesc d).preload = 1 then x.sp.read (mmaDesc d).preSrc (((Fmt.ofCode (mmaDesc d).fmtP).getD .fp32).bytes 48)
    else if (mmaDesc d).preload = 2 then x.sp.read (mmaDesc d).preSrc (((Fmt.ofCode (mmaDesc d).fmtP).getD .fp32).bytes 2304) else []) ?_ ?_
  · split
    next h => exact .read hx (hrow h) ⟨rfl, rfl⟩
    · split
      next h => exact .read hx (hblock h) ⟨rfl, rfl⟩
      · exact .pure ⟨rfl, rfl⟩
  rintro _ _ ⟨rfl, rfl⟩
  refine .bind (runs_readBlocks hx fun _ => ha) ?_
  rintro _ _ ⟨rfl, rfl⟩
  refine .bind (runs_readBlocks hx fun _ => hb) ?_
  rintro _ _ ⟨rfl, rfl⟩
  exact .modify rfl

theorem rowSkipped_iff (skip i : Nat) : rowSkipped skip i = true ↔ skip / 2 ^ i % 2 = 1 := by
  simp [rowSkipped, bitOf]

theorem Tile.get_acc_afterMma (x : Tile) (env : StepEnv) (m : MmaDesc) (fa fb : Fmt) {c : Nat} (hc : c < 2304) :
    Sparse.get 0 (x.afterMma env m fa fb).acc c = (x.mmaCell env m fa fb c).1 := by
  simp only [Tile.afterMma, Sparse.get_putRun]
  simp [hc]

/-- Square A0 or A1, by the parity of the number of blocks, holds A's last block (R101). -/
theorem Tile.get_squares_afterMma (x : Tile) (env : StepEnv) (m : MmaDesc) (fa fb : Fmt) {c : Nat} (hc : c < 2304) (hk : 0 < m.kSteps) :
    let n := (m.kSteps + 47) / 48
    Sparse.get 0 (x.afterMma env m fa fb).squares (2304 * ((n - 1) % 2) + c) = BitVec.ofNat 32 (((x.sp.blocks m.aSrc fa n).toArray.getD (n - 1) #[]).getD c 0) := by
  intro n
  have hlen : (x.sp.blocks m.aSrc fa n).length = n := by rw [Scratchpad.blocks, List.length_map, List.length_range]
  have hne : x.sp.blocks m.aSrc fa n ≠ [] := List.ne_nil_of_length_pos (by omega)
  have hlast := get_loadSquares_last (fun _ => Scratchpad.size_of_mem_blocks) hne (sq := x.me.squares) (q := 0) (n := 0) hc
  have hget : (x.sp.blocks m.aSrc fa n).toArray.getD (n - 1) #[] = (x.sp.blocks m.aSrc fa n).getLast hne := by
    simp [List.getLast_eq_getElem, hlen, show n - 1 < n by omega]
  rw [hlen, Nat.zero_add, Nat.zero_add] at hlast
  rw [hget, ← hlast]
  exact get_loadSquares_other (fun _ => Scratchpad.size_of_mem_blocks) (by omega)

/-- Settles O17: an MMA and a drain that nothing stops run as `runs_mmaRun` and `runs_drainRun` say. -/
theorem matrixCommands : Obligations.MatrixCommands := by
  refine ⟨?_, ?_⟩
  · intro s t e fa fb x d m nb fp blocks env isInt start hs hx hfa hfb hk ha hb hrow hblock
    have hrun : Runs (quiet (mmaRun env d)) x fun n y => n = 0 ∧ y = { x with me := x.afterMma env m fa fb } :=
      .bind (runs_mmaRun hx hfa hfb ha hb hrow hblock) fun _ _ h => .pure ⟨rfl, h⟩
    obtain ⟨_, _, hgoes, rfl, rfl⟩ := State.engine_of_runs (f := fun env d => quiet (mmaRun env d)) hs hrun
    refine ⟨x.afterMma env m fa fb, congrArg _ hgoes, rfl, rfl, rfl, rfl, rfl, rfl, rfl, fun i j hi hj => ?_, fun i j hi hj => ?_⟩
    · have hdiv : (48 * i + j) / 48 = i := by omega
      have hmod : (48 * i + j) % 48 = j := by omega
      have hstart : x.mmaStart m (48 * i + j) = start i j := by
        simp only [Tile.mmaStart, Scratchpad.preload, start, hmod]
        split <;> simp [*, fp, isInt]
      rw [Tile.get_acc_afterMma _ _ _ _ _ (by omega), Tile.mmaCell, hstart]
      simp only [hdiv, hmod]
      split
      next h => rw [if_pos ((rowSkipped_iff ..).1 h)]
      next h =>
        rw [if_neg fun h' => h ((rowSkipped_iff ..).2 h')]
        rfl
    · rw [Nat.add_assoc]
      exact x.get_squares_afterMma env m fa fb (by omega) hk
  · intro s t e sp x d y skip bytes row hs hx hrows
    have hfit (i : Nat) (hi : i < 48) (hskip : rowSkipped skip i = false) : RowFits y d sp i := by
      have hkept : skip / 2 ^ i % 2 = 0 := by
        have hbit : ¬ skip / 2 ^ i % 2 = 1 := mt (rowSkipped_iff skip i).2 (by rw [hskip]; decide)
        omega
      obtain ⟨hdst, hsrc, hpre, hvec, hstat⟩ := hrows i hi hkept
      exact ⟨hdst, hsrc, hpre, hvec, hstat⟩
    have hrun := runs_drainRun (env := s.stepEnv (s.sectNo t)) hx hfit
    obtain ⟨n, x', hgoes, hn, h⟩ := State.engine_of_runs (f := fun env d => drainRun env d sp) hs hrun
    refine ⟨x', n, ?_, hn, h.frame, h.kept, h.me, h.me_of_accOut, h.acc⟩
    cases sp
    · exact congrArg _ hgoes
    · exact congrArg _ hgoes

end Sys2Proof.Machine
end

section
/-! SUPPORT. The accumulate step of a cell and one drained element (O18). -/

namespace Sys2Proof.Machine

theorem signedOf_toNat (v : Acc) : signedOf 40 v.toNat = v.toInt := by
  have hlt := v.isLt
  simp only [signedOf, BitVec.toInt_eq_toNat_cond]
  split <;> split <;> omega

theorem accClamp_spec (v : Int) : (accClamp v).1.toInt = max (-(2 ^ 39)) (min (2 ^ 39 - 1) v) ∧ ((accClamp v).2 = true ↔ v < -(2 ^ 39) ∨ 2 ^ 39 - 1 < v) := by
  simp only [accClamp, clampBits, BitVec.toInt_eq_toNat_cond, BitVec.toNat_ofNat, decide_eq_true_eq]
  constructor
  · split <;> omega
  · omega

theorem accAddProd_of_nan {acc : Acc} (h : (Fmt.decode .accF acc.toNat).isNan = true) (mode : RMode) (a b : Ex) : accAddProd mode acc a b = (acc, false) := by
  simp [accAddProd, h]

theorem accAddProd_of_not_fin {acc : Acc} {a b : Ex} (h : (Fmt.decode .accF acc.toNat).isNan = false) (hab : a.isFin = false ∨ b.isFin = false) (mode : RMode) :
    accAddProd mode acc a b = (accNan, false) := by
  rcases hab with ha | hb
  · simp [accAddProd, h, ha]
  · simp [accAddProd, h, hb]

/-! One drained element (R116-R123, R152, R156). -/

theorem toNat_amaxOf (a b : Word) : (amaxOf a b).toNat = max a.toNat b.toNat := by
  unfold amaxOf
  split <;> omega

theorem toNat_magnitude (y : Word) : (y &&& 0x7FFFFFFF).toNat = y.toNat % 2 ^ 31 := by
  rw [BitVec.toNat_and]
  exact Nat.and_two_pow_sub_one_eq_mod y.toNat 31

section
variable {a : StepAcc} {y : Word} {held : Bool} {c : ElemClass}

theorem StepAcc.element_amax_of_fin (h : (f32 y).isFin = true) : (a.element y held c).amax.toNat = max a.amax.toNat (y.toNat % 2 ^ 31) := by
  simp only [StepAcc.element, h, if_true, toNat_amaxOf, toNat_magnitude]

theorem StepAcc.element_amax_of_not_fin (h : (f32 y).isFin = false) : (a.element y held c).amax = a.amax := by
  simp [StepAcc.element, h]

end

theorem activate_linear {x : DrainDesc} {v : Word} (hfn : x.fn = 0) (hd : x.deriv = false) (hv : (f32 v).isNan = false) (z : Word) : activate x v z = v := by
  simp [activate, hfn, hd, hv, actF]

/-- Settles O18: the accumulate step by the lemmas about `accClamp` and `accAddProd`; a drained element by the row that stages 1 to 6 make of it. -/
theorem matrixDatapath : Obligations.MatrixDatapath := by
  refine ⟨?_, ?_⟩
  · intro acc a b mode m env fa fb isInt as bs i j o n p r
    refine ⟨?_, fun h => accAddProd_of_nan h .., fun h hab => accAddProd_of_not_fin h hab mode, rfl, _, rfl, rfl⟩
    intro v
    rw [accAddInt, signedOf_toNat]
    exact accClamp_spec v
  · intro x env isInt fo scale i j a z v r dq z' y q r' hsr
    have hdq : (if !x.dqEn then 0x3F800000 else Sparse.get 0 scale (if x.perch then x.scaleBase + j else x.scaleBase)) = dq := by
      simp only [dq]
      cases x.dqEn <;> cases x.perch <;> rfl
    let rd := Fmt.round fo .sat .rne (if (f32 y).isNan then .nan else q)
    have hr' : r' = {
        codes := r.codes ++ [rd.bits]
        stat := if x.statEn then r.stat.fold x.dotEn y (((Fmt.ofCode x.fmtVec).getD .fp32).decode v) else r.stat
        acc := r.acc.element y (env.slot x.slot).2 (classify fo q rd)
        nan := r.nan || rd.nanUncoded } := by
      simp only [r', rd, drainElems, hdq, hsr, Bool.false_eq_true, if_false]
      cases (f32 y).isNan <;> rfl
    rw [hr']
    refine ⟨rfl, rfl, rfl, StepAcc.element_amax_of_fin, StepAcc.element_amax_of_not_fin, fun h => ?_, fun h => ?_, fun hfn hd hv => activate_linear hfn hd hv z'⟩
    · simp [h]
    · simp only [h]
      exact ⟨rfl, fun hdot => by rw [hdot]; rfl⟩

end Sys2Proof.Machine
end

section
/-! SUPPORT. The integer codes of INT4 and INT8, read and written (O19). -/

namespace Sys2Proof.Machine

theorem signedOf_eq_toInt_ofNat (w v : Nat) : signedOf w v = (BitVec.ofNat w v).toInt := by
  simp only [signedOf, BitVec.toInt_eq_toNat_cond, BitVec.toNat_ofNat]
  cases w with
  | zero => simp [Nat.mod_one]
  | succ k =>
    rw [Nat.add_sub_cancel]
    split <;> split <;> omega

theorem Ex.toInt_ofInt (i : Int) : (Ex.ofInt i).toInt = i := by
  simp only [Ex.ofInt, Ex.toInt, pow2, Int.neg_zero, Int.toNat_zero, Nat.pow_zero, Nat.mul_one, Nat.div_one, decide_eq_true_eq]
  split <;> omega

/-- R133 as one equation: the reading of an INT8 code raises its two's-complement value to -127. -/
theorem Fmt.toInt_decode_int8 (b : Nat) : (Fmt.decode .int8 b).toInt = max (-127) (BitVec.ofNat 8 b).toInt := by
  have hlo := BitVec.le_toInt (BitVec.ofNat 8 b)
  simp only [Fmt.decode, Ex.toInt_ofInt, signedOf_eq_toInt_ofNat]
  split <;> omega

/-- R133 as one equation: the reading of an INT4 code raises its two's-complement value to -7. -/
theorem Fmt.toInt_decode_int4 (b : Nat) : (Fmt.decode .int4 b).toInt = max (-7) (BitVec.ofNat 4 b).toInt := by
  have hlo := BitVec.le_toInt (BitVec.ofNat 4 b)
  simp only [Fmt.decode, Ex.toInt_ofInt, signedOf_eq_toInt_ofNat]
  split <;> omega

theorem neg_two_pow_lt_toInt {k : Nat} {c : BitVec (k + 1)} (hc : c ≠ BitVec.intMin (k + 1)) : -2 ^ k < c.toInt := by
  have hlo := BitVec.le_toInt c
  have hne : c.toInt ≠ (BitVec.intMin (k + 1)).toInt := fun h => hc (BitVec.eq_of_toInt_eq h)
  rw [BitVec.toInt_intMin_of_pos (by omega)] at hne
  rw [Nat.add_sub_cancel] at hlo hne
  omega

/-- A clamp to less than half the codes on each side of zero leaves out the most negative code: values from zero up lie below it, negative values above. -/
theorem clampBits_symmetric {k : Nat} {m : Int} (hm : 0 ≤ m) (hk : m < 2 ^ k) (v : Int) :
    (clampBits (k + 1) (-m) m v).bits < 2 ^ (k + 1) ∧ (clampBits (k + 1) (-m) m v).bits ≠ 2 ^ k := by
  have hpow : ((2 ^ (k + 1) : Nat) : Int) = 2 * 2 ^ k := by rw [Nat.pow_succ', Int.natCast_mul, Int.natCast_pow]; rfl
  simp only [clampBits]
  generalize hc : max (-m) (min m v) = c
  rcases Int.lt_or_le c 0 with hneg | hpos
  · have hmod : c % (2 ^ (k + 1) : Nat) = c + (2 ^ (k + 1) : Nat) := by
      rw [← Int.add_emod_right, Int.emod_eq_of_lt] <;> omega
    omega
  · have hmod : c % (2 ^ (k + 1) : Nat) = c := Int.emod_eq_of_lt hpos (by omega)
    omega

/-- What a rounding to an integer format can answer (R135-R137): a zero code for a NaN and a zero, and `roundRat` of some magnitude for the rest. -/
theorem Fmt.round_of_isInt {f : Fmt} (hf : f.isInt = true) (ovf : Ovf) (mode : RMode) (x : Ex) :
    (f.round ovf mode x).bits = 0 ∨ ∃ neg num e, f.round ovf mode x = roundRat f ovf mode neg num 1 e := by
  have hnan : f.nanCode = none := by revert hf; cases f <;> decide
  have hinf : f.infCode = none := by revert hf; cases f <;> decide
  match x with
  | .nan => exact .inl (by simp [Fmt.round, hnan])
  | .inf neg => exact .inr ⟨neg, 2 ^ 64, 0, by simp [Fmt.round, hinf, hf]⟩
  | .fin neg 0 e => exact .inl (by simp [Fmt.round, hf])
  | .fin neg (m + 1) e => exact .inr ⟨neg, m + 1, e, rfl⟩

theorem Fmt.round_symmetric {f : Fmt} {k : Nat} {m : Int} (hf : f.isInt = true) (hm : 0 ≤ m) (hk : m < 2 ^ k) {ovf : Ovf} {mode : RMode}
    (hclamp : ∀ neg num e, ∃ v, roundRat f ovf mode neg num 1 e = clampBits (k + 1) (-m) m v) (x : Ex) :
    (f.round ovf mode x).bits < 2 ^ (k + 1) ∧ (f.round ovf mode x).bits ≠ 2 ^ k := by
  obtain h | ⟨neg, num, e, h⟩ := Fmt.round_of_isInt hf ovf mode x
  · rw [h]
    exact ⟨Nat.two_pow_pos _, Nat.ne_of_lt (Nat.two_pow_pos k)⟩
  · obtain ⟨v, hv⟩ := hclamp neg num e
    rw [h, hv]
    exact clampBits_symmetric hm hk v

/-- Settles O19: a reading is the code's value raised to -127 or -7, and a rounding is a symmetric clamp. -/
theorem integerCodes : Obligations.IntegerCodes := by
  refine ⟨by decide, by decide, fun c hc => ?_, fun c hc => ?_, fun b => ?_, fun ovf mode x => ?_⟩
  · have hlo := neg_two_pow_lt_toInt (k := 7) hc
    rw [Fmt.toInt_decode_int8, BitVec.ofNat_toNat, BitVec.setWidth_eq]
    omega
  · have hlo := neg_two_pow_lt_toInt (k := 3) hc
    rw [Fmt.toInt_decode_int4, BitVec.ofNat_toNat, BitVec.setWidth_eq]
    omega
  · have h8 := BitVec.toInt_lt (x := BitVec.ofNat 8 b)
    have h4 := BitVec.toInt_lt (x := BitVec.ofNat 4 b)
    rw [Fmt.toInt_decode_int8, Fmt.toInt_decode_int4]
    omega
  · obtain ⟨hlt8, hne8⟩ := Fmt.round_symmetric (f := .int8) (k := 7) (m := 127) rfl (by decide) (by decide) (fun _ _ _ => ⟨_, rfl⟩) x
    obtain ⟨hlt4, hne4⟩ := Fmt.round_symmetric (f := .int4) (k := 3) (m := 7) rfl (by decide) (by decide) (fun _ _ _ => ⟨_, rfl⟩) x
    exact ⟨hlt8, hne8, hlt4, hne4⟩

end Sys2Proof.Machine
end

section
/-! SUPPORT. What a micro-op puts into a lane, and what a candidate list holds (O21). -/

namespace Sys2Proof.Machine

/-- A change of the sign bit adds 2^31, the carry lost (R172). -/
theorem toNat_signChange (a : Word) : (a ^^^ 0x80000000).toNat = (a.toNat + 2 ^ 31) % 2 ^ 32 := by
  have hlt := a.isLt
  have hdiv := Nat.xor_div_two_pow (n := 31) (a := a.toNat) (b := 2 ^ 31)
  have hmod := Nat.xor_mod_two_pow (n := 31) (a := a.toNat) (b := 2 ^ 31)
  rw [Nat.mod_self, Nat.xor_zero] at hmod
  rw [BitVec.toNat_xor, show (0x80000000 : Word).toNat = 2 ^ 31 from rfl]
  rcases Nat.lt_or_ge a.toNat (2 ^ 31) with hpos | hneg
  · rw [Nat.div_eq_of_lt hpos, Nat.zero_xor, Nat.div_self (by decide)] at hdiv
    omega
  · rw [show a.toNat / 2 ^ 31 = 1 by omega, Nat.div_self (by decide), Nat.xor_self] at hdiv
    omega

/-! Candidate lists (R184). -/

theorem candInsert_perm (c : Cand) (xs : List Cand) : (candInsert c xs).Perm (c :: xs) := by
  induction xs with
  | nil => exact .refl _
  | cons x xs ih =>
    rw [candInsert]
    split
    · exact .refl _
    · exact (ih.cons x).trans (.swap c x xs)

/-- The first k of the candidates cs in the order of R184, before the padding. -/
def candKept (k : Nat) (kept cs : List Cand) : List Cand := cs.foldl (fun acc c => (candInsert c acc).take k) kept

theorem candTop_eq (k : Nat) (cs : List Cand) : candTop k cs = candKept k [] cs ++ List.replicate (k - (candKept k [] cs).length) candPad := rfl

theorem length_candKept {k : Nat} {kept cs : List Cand} (h : kept.length ≤ k) : (candKept k kept cs).length = min k (kept.length + cs.length) := by
  induction cs generalizing kept with
  | nil => exact (Nat.min_eq_right h).symm
  | cons c cs ih =>
    have hlen : ((candInsert c kept).take k).length = min k (kept.length + 1) := by rw [List.length_take, (candInsert_perm c kept).length_eq, List.length_cons]
    rw [candKept, List.foldl_cons, ← candKept, ih (by omega), hlen, List.length_cons]
    omega

/-- The candidates given are those kept and some that were dropped. -/
theorem candKept_perm (k : Nat) (kept cs : List Cand) : ∃ dropped, (candKept k kept cs ++ dropped).Perm (kept ++ cs) := by
  induction cs generalizing kept with
  | nil => exact ⟨[], .refl _⟩
  | cons c cs ih =>
    obtain ⟨dropped, hperm⟩ := ih ((candInsert c kept).take k)
    refine ⟨dropped ++ (candInsert c kept).drop k, ?_⟩
    calc candKept k kept (c :: cs) ++ (dropped ++ (candInsert c kept).drop k)
      _ = (candKept k ((candInsert c kept).take k) cs ++ dropped) ++ (candInsert c kept).drop k := (List.append_assoc ..).symm
      List.Perm _ (((candInsert c kept).take k ++ cs) ++ (candInsert c kept).drop k) := hperm.append_right _
      List.Perm _ (((candInsert c kept).take k ++ (candInsert c kept).drop k) ++ cs) := by
        rw [List.append_assoc, List.append_assoc]
        exact List.perm_append_comm.append_left _
      _ = candInsert c kept ++ cs := by rw [List.take_append_drop]
      List.Perm _ ((c :: kept) ++ cs) := (candInsert_perm c kept).append_right cs
      List.Perm _ (kept ++ c :: cs) := List.perm_middle.symm

theorem length_candTop (k : Nat) (cs : List Cand) : (candTop k cs).length = k := by
  have hlen := length_candKept (k := k) (kept := []) (cs := cs) (Nat.zero_le k)
  rw [candTop_eq, List.length_append, List.length_replicate, hlen]
  omega

theorem mem_candTop {k : Nat} {cs : List Cand} {c : Cand} (h : c ∈ candTop k cs) : c ∈ cs ∨ c = candPad := by
  obtain ⟨dropped, hperm⟩ := candKept_perm k [] cs
  rw [candTop_eq, List.mem_append] at h
  exact h.imp (fun h => hperm.mem_iff.1 (List.mem_append_left _ h)) List.eq_of_mem_replicate

theorem count_candTop_le {k : Nat} {cs : List Cand} {c : Cand} (h : c ≠ candPad) : (candTop k cs).count c ≤ cs.count c := by
  obtain ⟨dropped, hperm⟩ := candKept_perm k [] cs
  have hcount : (candKept k [] cs).count c + dropped.count c = cs.count c := by
    rw [← List.count_append]
    exact hperm.count_eq c
  have hpad : (List.replicate (k - (candKept k [] cs).length) candPad).count c = 0 :=
    List.count_eq_zero.2 fun hmem => h (List.eq_of_mem_replicate hmem)
  rw [candTop_eq, List.count_append]
  omega

theorem mem_candTop_of_length_le {k : Nat} {cs : List Cand} {c : Cand} (hk : cs.length ≤ k) (h : c ∈ cs) : c ∈ candTop k cs := by
  obtain ⟨dropped, hperm⟩ := candKept_perm k [] cs
  have hlen : (candKept k [] cs).length = min k (0 + cs.length) := length_candKept (Nat.zero_le k)
  have hsum : (candKept k [] cs).length + dropped.length = cs.length := by
    rw [← List.length_append]
    exact hperm.length_eq
  obtain rfl : dropped = [] := List.eq_nil_of_length_eq_zero (by omega)
  rw [List.append_nil] at hperm
  rw [candTop_eq]
  exact List.mem_append_left _ (hperm.mem_iff.2 h)

/-- Settles O21: the lanes by the word operation that each op names, the lists by `candKept`, which permutes some of the candidates given. -/
theorem vectorDatapath : Obligations.VectorDatapath := by
  refine ⟨?_, fun k cs => ⟨length_candTop k cs, fun _ => mem_candTop, fun _ => count_candTop_le, fun hk _ => mem_candTop_of_length_le hk⟩⟩
  intro env d vd va vb vc o a b c lane
  refine ⟨BitVec.toNat_ofNat .., BitVec.toNat_add .., ?_, BitVec.toNat_mul .., BitVec.toNat_and .., BitVec.toNat_or .., BitVec.toNat_xor ..,
    ?_, ?_, ?_, rfl, rfl, fun hnan => ⟨?_, ?_⟩⟩
  · show (a - b).toNat = _
    rw [BitVec.toNat_sub, Nat.add_comm]
  · show (a <<< (b.toNat % 32)).toNat = _
    rw [BitVec.toNat_shiftLeft, Nat.shiftLeft_eq]
  · show (a >>> (b.toNat % 32)).toNat = _
    rw [BitVec.toNat_ushiftRight, Nat.shiftRight_eq_div_pow]
  · show (if c ≠ 0 then a else b) = _
    rw [ite_not]
    exact ite_congr (propext BitVec.toNat_eq) (fun _ => rfl) fun _ => rfl
  · show (fneg a).toNat = _
    rw [fneg, hnan]
    exact toNat_signChange a
  · show (fabs a).toNat = _
    rw [fabs, hnan]
    exact toNat_magnitude a

end Sys2Proof.Machine
end

section
/-! SUPPORT. What the vector engine and the sampler do of their tile (R168-R175, R184-R189), and their commands (O20). -/

namespace Sys2Proof.Machine

open Claims

section
variable {α : Type} {x : Tile} {a n : Nat} (hx : x.sp.flips = [])
include hx

/-- A read inside one of the footprints of a command, and what follows it. -/
theorem Runs.readAny_bind {fs : List Footprint} {g : List Byte → Eng α} {R : α → Tile → Prop} (hf : ∃ f ∈ fs, Inside f a n)
    (h : Runs (g (x.sp.read a n)) x R) : Runs (engRead fs a n >>= g) x R := by
  obtain ⟨f, hmem, hin⟩ := hf
  have hreach : engReach none (fun o k => fs.any fun f => f.covers false o k) false a n = (n, none) :=
    engReach_of_covered fun r hr => List.any_eq_true.2 ⟨f, hmem, covers_rowPart hin hr⟩
  have hread : (engRead fs a n).run { tile := x } = (.ok (x.sp.read a n), { tile := x }) := by
    unfold engRead
    rw [Eng.run_bind (engTry_run hreach (Scratchpad.check_of_clean hx a n)), Tile.count_zero]
    rfl
  exact .bind (R := fun bs y => x.sp.read a n = bs ∧ x = y) ⟨_, _, hread, rfl, rfl⟩ fun _ _ ⟨hb, hy⟩ => hb ▸ hy ▸ h

/-- A write inside the write footprint, of whole bytes or ending in half a byte. -/
theorem Runs.writePart {f : Footprint} {bs : List Byte} {half : Bool} {R : Unit → Tile → Prop} (hf : Inside f a bs.length)
    (h : R () { x with sp := x.sp.write a bs }) : Runs (engWrite f a bs half) x R := by
  have hreach : engReach none (fun o k => f.covers false o k) false a bs.length = (bs.length, none) :=
    engReach_of_covered fun r hr => covers_rowPart hf hr
  have hcheck : x.sp.checkPartial a bs.length (half && bs.length == bs.length) = (0, none) := by simp [Scratchpad.checkPartial, hx]
  refine ⟨(), _, ?_, h⟩
  unfold engWrite engPut
  rw [Eng.run_bind Eng.run_get, Eng.run_bind Eng.run_set, Eng.run_bind Eng.run_get]
  simp only [hreach, EngState.spend, Option.map_none, hcheck, List.take_length, Tile.count_zero]
  rfl

end

theorem Scratchpad.wrote_write (m : Scratchpad) (a : Nat) (bs : List Byte) : Wrote m (m.write a bs) a bs := by
  obtain ⟨hin, hout, hcls, hmode⟩ := Scratchpad.write_spec m a bs
  exact ⟨⟨hcls, hmode, hout⟩, hin⟩

theorem keptOutside_trans {m m' m'' : Scratchpad} {a n : Nat} (h : KeptOutside m m' a n) (h' : KeptOutside m' m'' a n) : KeptOutside m m'' a n := by
  obtain ⟨hcls, hmode, hbytes⟩ := h
  obtain ⟨hcls', hmode', hbytes'⟩ := h'
  exact ⟨hcls'.trans hcls, hmode'.trans hmode, fun o ho => (hbytes' o ho).trans (hbytes o ho)⟩

theorem keptOutside_write_of_inside {f : Footprint} {a : Nat} {bs : List Byte} (m : Scratchpad) (h : Inside f a bs.length) :
    KeptOutside m (m.write a bs) f.off f.len := by
  obtain ⟨_, hlo, hhi, _⟩ := h
  obtain ⟨⟨hcls, hmode, hbytes⟩, _⟩ := m.wrote_write a bs
  exact ⟨hcls, hmode, fun o ho => hbytes o (by omega)⟩

/-- Tile y is tile x with the scratchpad written inside the write footprint of descriptor bytes d. -/
structure Stored (d : List Byte) (x y : Tile) : Prop where
  frame : y = { x with sp := y.sp }
  kept : KeptOutside x.sp y.sp (fpWr d).off (fpWr d).len
  clean : y.sp.flips = []

section
variable {d : List Byte} {x y z : Tile}

theorem Stored.refl (h : x.sp.flips = []) : Stored d x x := ⟨rfl, ⟨rfl, rfl, fun _ _ => rfl⟩, h⟩

theorem Stored.trans (h : Stored d x y) (h' : Stored d y z) : Stored d x z where
  frame := by rw [h'.frame, h.frame]
  kept := keptOutside_trans h.kept h'.kept
  clean := h'.clean

theorem Stored.write (h : x.sp.flips = []) {a : Nat} {bs : List Byte} (hin : Inside (fpWr d) a bs.length) : Stored d x { x with sp := x.sp.write a bs } :=
  ⟨rfl, keptOutside_write_of_inside x.sp hin, Scratchpad.write_clean h a bs⟩

end

/-! The passes of a VPROG (R170). -/

/-- The elements of pass c of a stream of n elements lie where the stream lies. -/
theorem inside_pass {fp : Footprint} {f : Fmt} {off n c : Nat} (h : Inside fp off (f.bytes n)) (hc : 64 * c < n) :
    Inside fp (off + 64 * c * f.width / 8) (f.bytes (min 64 (n - 64 * c))) := by
  obtain ⟨hts, hlo, hhi, _⟩ := h
  have hlen : 64 * c * f.width / 8 + f.bytes (min 64 (n - 64 * c)) ≤ f.bytes n := by
    cases f <;> simp only [Fmt.bytes, Fmt.width] <;> omega
  exact ⟨hts, by omega, by omega, f.bytes_pos (by omega)⟩

/-- The streams that a micro-op list moves and its reduction record lie in the footprints of its VPROG (R169, R175). -/
structure ProgFits (d : List Byte) (ms : List MicroOp) : Prop where
  load : ∀ m ∈ ms, m.op = 1 → ∃ f ∈ [fpRd0 d, fpRd1 d], Inside f (vStream d m.va).off (vStreamLen d m.va)
  store : ∀ m ∈ ms, m.op = 2 ∨ m.op = 3 → Inside (fpWr d) (vStream d m.vd).off (vStreamLen d m.vd)
  red : ∀ m ∈ ms, isReduction m.op = true → Inside (fpWr d) (vRed d) 32

/-- A store of a pass is one that a micro-op of the list makes, of as many codes as the pass has positions. -/
def StoreOf (ms : List MicroOp) (cnt : Nat) (st : VStore) : Prop := st.2.length = cnt ∧ ∃ m ∈ ms, (m.op = 2 ∨ m.op = 3) ∧ m.vd = st.1

theorem StoreOf.of_mem_microStep {env : StepEnv} {d : List Byte} {loads : List (List Word)} {lo cnt : Nat} {m : MicroOp} {v : VState} {st : VStore}
    (h : st ∈ (microStep env d loads lo cnt m v).stores) : st ∈ v.stores ∨ StoreOf [m] cnt st := by
  unfold microStep at h
  split at h
  · exact .inl h
  split at h
  · exact .inl h
  split at h
  next hstore =>
    refine (List.mem_append.1 h).imp_right fun h => ?_
    rw [List.mem_singleton.1 h]
    exact ⟨by simp, m, .head _, hstore, rfl⟩
  split at h
  · exact .inl h
  · exact .inl h

theorem StoreOf.of_mem_microSteps {env : StepEnv} {d : List Byte} {loads : List (List Word)} {lo cnt : Nat} {ms : List MicroOp} {v : VState} {st : VStore}
    (h : st ∈ (microSteps env d loads lo cnt ms v).stores) : st ∈ v.stores ∨ StoreOf ms cnt st := by
  induction ms generalizing v with
  | nil => exact .inl h
  | cons m ms ih =>
    rcases ih h with h | ⟨hlen, m', hm, h⟩
    · refine (StoreOf.of_mem_microStep h).imp_right fun ⟨hlen, m', hm, h⟩ => ⟨hlen, m', ?_, h⟩
      exact List.mem_singleton.1 hm ▸ .head _
    · exact .inr ⟨hlen, m', .tail _ hm, h⟩

section
variable {d : List Byte} {ms : List MicroOp} (hfit : ProgFits d ms)
include hfit

theorem runs_passLoad_bind {α : Type} {c : Nat} (hc : 64 * c < vN d) (k : Nat) {g : List Word → Eng α} {R : α → Tile → Prop} {x : Tile} (hx : x.sp.flips = [])
    (h : ∀ ws, Runs (g ws) x R) : Runs (passLoad d ms (64 * c) (min 64 (vN d - 64 * c)) k >>= g) x R := by
  refine .bind (R := fun _ y => x = y) ?_ fun ws _ hy => hy ▸ h ws
  unfold passLoad
  split
  next hany =>
    obtain ⟨m, hm, hload⟩ := List.any_eq_true.1 hany
    obtain ⟨hop, rfl⟩ : m.op = 1 ∧ m.va = k := by simpa using hload
    obtain ⟨f, hf, hin⟩ := hfit.load m hm hop
    exact .readAny_bind hx ⟨f, hf, inside_pass hin hc⟩ (.pure rfl)
  · exact .pure rfl

theorem runs_passStores {c : Nat} (hc : 64 * c < vN d) {sts : List VStore} (hsts : ∀ st ∈ sts, StoreOf ms (min 64 (vN d - 64 * c)) st) {x : Tile} (hx : x.sp.flips = []) :
    Runs (passStores d (64 * c) sts) x fun _ y => Stored d x y := by
  induction sts generalizing x with
  | nil => exact .pure (.refl hx)
  | cons st sts ih =>
    obtain ⟨k, cs⟩ := st
    obtain ⟨hlen, m, hm, hop, rfl⟩ := hsts _ (.head _)
    dsimp only at hlen
    have hin := inside_pass (hfit.store m hm hop) hc
    rw [← hlen] at hin
    refine .tile_bind (.bind (R := fun _ y => Stored d x y) (.writePart hx ?_ (.write hx ?_)) fun _ y hy => ?_)
    · rwa [length_packElems]
    · rwa [length_packElems]
    · exact (ih (fun st h => hsts st (.tail _ h)) hy.clean).mono fun _ _ h => hy.trans h

theorem runs_vPasses (env : StepEnv) {n c : Nat} (hn : n + c = (vN d + 63) / 64) {v : VState} {x : Tile} (hx : x.sp.flips = []) :
    Runs (vPasses env d ms n c v) x fun _ y => Stored d x y := by
  induction n generalizing c v x with
  | zero => exact .pure (.refl hx)
  | succ n ih =>
    have hc : 64 * c < vN d := by omega
    refine runs_passLoad_bind hfit hc 0 hx fun _ => runs_passLoad_bind hfit hc 1 hx fun _ => runs_passLoad_bind hfit hc 2 hx fun _ =>
      runs_passLoad_bind hfit hc 3 hx fun _ => .bind (runs_passStores hfit hc (fun st h => ?_) hx) fun _ y hy => ?_
    · exact (StoreOf.of_mem_microSteps h).resolve_left List.not_mem_nil
    · exact (ih (by omega) hy.clean).mono fun _ _ h => hy.trans h

end

theorem runs_vprogRun (env : StepEnv) {d : List Byte} {x : Tile} (hx : x.sp.flips = []) (hlist : ∃ f ∈ [fpRd0 d, fpRd1 d], Inside f (vProg d) (4 * vNops d))
    (hfit : ProgFits d (vList x.sp d)) : Runs (vprogRun env d) x fun n y => (n = 0 ∨ n = 0x0203) ∧ Stored d x y := by
  refine .readAny_bind hx hlist (.bind (runs_vPasses hfit env (by omega) hx) fun v y hy => ?_)
  have hend {z : Tile} (hz : Stored d x z) : Runs (pure (if v.nan then 0x0203 else 0)) z fun n y => (n = 0 ∨ n = 0x0203) ∧ Stored d x y := by
    refine .pure ⟨?_, hz⟩
    split
    · exact .inr rfl
    · exact .inl rfl
  dsimp only
  split
  next hred =>
    obtain ⟨m, hm, hop⟩ := List.any_eq_true.1 hred
    have hin := hfit.red m hm hop
    refine .bind (R := fun _ z => Stored d x z) (.write hy.clean hin ?_) fun _ _ => hend
    exact hy.trans (.write hy.clean hin)
  · exact hend hy

/-! The sampler (R184-R189). -/

theorem length_candBytes (cs : List Cand) : (candBytes cs).length = 8 * cs.length := by
  induction cs with
  | nil => rfl
  | cons c cs ih =>
    rw [candBytes, List.flatMap_cons, List.length_append, ← candBytes, ih, List.length_append, leBytes_length, leBytes_length, List.length_cons]
    omega

/-- A sampler command in execution that writes bs at a does nothing else. -/
theorem State.engine_of_sampled {s : State} {t : Ltn} {op : Nat} {e : QEntry} {f : StepEnv → List Byte → Eng Unit} {a : Nat} {bs : List Byte}
    (h : Started s t 2 op e) (hf : Runs (f (s.stepEnv (s.sectNo t)) e.desc) (s.tile t) fun _ y => y = { s.tile t with sp := (s.tile t).sp.write a bs }) :
    ∃ m, goes (s.engine t 2 op fun env d => quiet (f env d)) = goes (s.setTile t (ran { s.tile t with sp := m } 2 e 0)) ∧ Wrote (s.tile t).sp m a bs := by
  obtain ⟨_, _, hgoes, rfl, rfl⟩ := State.engine_of_runs (f := fun env d => quiet (f env d)) h
    (R := fun n y => n = 0 ∧ y = { s.tile t with sp := (s.tile t).sp.write a bs }) (.bind hf fun _ _ h => .pure ⟨rfl, h⟩)
  exact ⟨_, congrArg _ hgoes, Scratchpad.wrote_write ..⟩

theorem bitsOf_low (v hi : Nat) : bitsOf v hi 0 = v % 2 ^ (hi + 1) := by
  rw [bitsOf, Nat.pow_zero, Nat.div_one, Nat.sub_zero]

theorem candReal_eq (cs : List Cand) : candReal cs = cs.filter fun c => c ≠ candPad :=
  List.filter_congr fun c _ => Bool.eq_iff_iff.2 (by simp)

theorem map_zipIdx_eq_map_range {α β : Type} (xs : List α) (d : α) (g : α × Nat → β) : xs.zipIdx.map g = (List.range xs.length).map fun p => g (xs.getD p d, p) :=
  List.ext_getElem (by simp) fun i hi _ => by simp [show i < xs.length by simpa using hi]

/-- The candidates of a SCAND: z of each score by R185, with its position. -/
def Scratchpad.scored (sp : Scratchpad) (d : List Byte) : List Cand :=
  let f : Fmt := if fieldAt d 50 1 % 16 = 5 then .bf16 else .fp32
  let scores := elems f (sp.read (fieldAt d 32 4) (f.bytes (fieldAt d 36 4))) (fieldAt d 36 4)
  (List.range scores.length).map fun p => (scoreZ (BitVec.ofNat 32 (fieldAt d 44 4)) (toF32 (f.decode (scores.getD p 0))), fieldAt d 40 4 + p)

section
variable {d : List Byte} {x : Tile} (hx : x.sp.flips = [])
include hx

theorem runs_writeCands {a k : Nat} {cs : List Cand} (h : Inside (fpWr d) a (8 * k)) :
    Runs (engWrite (fpWr d) a (candBytes (candTop k cs))) x fun _ y => y = { x with sp := x.sp.write a (candBytes (candTop k cs)) } :=
  .write hx (by rwa [length_candBytes, length_candTop]) rfl

theorem runs_scandRun (hsrc : ∃ f ∈ [fpRd0 d, fpRd1 d], Inside f (fieldAt d 32 4) (Fmt.bytes (if fieldAt d 50 1 % 16 = 5 then .bf16 else .fp32) (fieldAt d 36 4)))
    (hdst : Inside (fpWr d) (fieldAt d 52 4) (8 * fieldAt d 48 2)) :
    Runs (scandRun d) x fun _ y => y = { x with sp := x.sp.write (fieldAt d 52 4) (candBytes (candTop (fieldAt d 48 2) (x.sp.scored d))) } := by
  unfold scandRun
  rw [bitsOf_low]
  refine .readAny_bind hx hsrc ?_
  dsimp only
  rw [map_zipIdx_eq_map_range _ 0]
  exact runs_writeCands hx hdst

theorem runs_smergeRun (hl : ∃ f ∈ [fpRd0 d, fpRd1 d], Inside f (fieldAt d 32 4) (8 * fieldAt d 44 2))
    (hr : ∃ f ∈ [fpRd0 d, fpRd1 d], Inside f (fieldAt d 36 4) (8 * fieldAt d 44 2)) (hdst : Inside (fpWr d) (fieldAt d 40 4) (8 * fieldAt d 44 2)) :
    let k := fieldAt d 44 2
    let list := fun a => candRead k (x.sp.read a (8 * k))
    Runs (smergeRun d) x fun _ y => y = { x with sp := x.sp.write (fieldAt d 40 4) (candBytes (candTop k (list (fieldAt d 32 4) ++ list (fieldAt d 36 4)))) } :=
  .readAny_bind hx hl (.readAny_bind hx hr (runs_writeCands hx hdst))

/-- SPICK writes the record of R188: position and z of the choice, n, the number of candidates and U. -/
theorem runs_spickRun {env : StepEnv} (hsrc : ∃ f ∈ [fpRd0 d, fpRd1 d], Inside f (fieldAt d 32 4) (8 * fieldAt d 36 2)) (hdst : Inside (fpWr d) (fieldAt d 44 4) 16) :
    let cs := (candRead (fieldAt d 36 2) (x.sp.read (fieldAt d 32 4) (8 * fieldAt d 36 2))).filter fun c => c ≠ candPad
    let u := ucgBits (ucgSeed env.base env.epoch 3) (fieldAt d 38 2) env.postmark 3 32 (fieldAt d 48 8 % 2 ^ 50)
    let pick := spickChoose (BitVec.ofNat 32 (fieldAt d 40 4)) u cs
    let c := cs.getD pick.1 candPad
    let record := leBytes 4 c.2 ++ leBytes 4 c.1.toNat ++ leBytes 2 pick.2.1 ++ leBytes 2 cs.length ++ leBytes 4 pick.2.2.toNat
    Runs (spickRun env d) x fun _ y => y = { x with sp := x.sp.write (fieldAt d 44 4) record } := by
  unfold spickRun
  rw [bitsOf_low]
  refine .readAny_bind hx hsrc ?_
  rw [candReal_eq]
  exact .write hx (by simpa using hdst) rfl

end

/-- Settles O20: a VPROG that nothing stops keeps `Stored` from pass to pass; a sampler command is its reads and one write. -/
theorem vectorCommands : Obligations.VectorCommands := by
  refine ⟨?_, ?_⟩
  · intro s t e x d ms rd hs hx hn hops hlist hload hstore hred
    have hrd {a n : Nat} (h : rd a n) : ∃ f ∈ [fpRd0 d, fpRd1 d], Inside f a n := by simpa using h
    have hrun := runs_vprogRun (s.stepEnv (s.sectNo t)) hx (hrd hlist) ⟨fun m hm h => hrd (hload m hm h), hstore, hred⟩
    obtain ⟨n, y, hgoes, hn, h⟩ := State.engine_of_runs (f := vprogRun) hs hrun
    rw [h.frame] at hgoes
    exact ⟨y.sp, n, congrArg _ hgoes, hn, h.kept⟩
  · intro s t e x d rd list hx
    have hrd {a n : Nat} (h : rd a n) : ∃ f ∈ [fpRd0 d, fpRd1 d], Inside f a n := by simpa using h
    refine ⟨?_, ?_, ?_⟩
    · intro hs f n k scores cands hsrc hdst
      exact State.engine_of_sampled (f := fun _ d => scandRun d) hs (runs_scandRun hx (hrd hsrc) hdst)
    · intro hs k hl hr hdst
      exact State.engine_of_sampled (f := fun _ d => smergeRun d) hs (runs_smergeRun hx (hrd hl) (hrd hr) hdst)
    · intro hs k env u cs pick hsrc hdst
      exact State.engine_of_sampled (f := spickRun) hs (runs_spickRun hx (hrd hsrc) hdst)

end Sys2Proof.Machine
end

section
/-! SUPPORT. What a write of whole rows and a bank's transition make of a tile store (R205-R213), and accesses that clean, aligned ranges let through (R201, R202). -/

namespace Sys2Proof.Machine

open Claims

/-! Flipped bits and the bytes that reads deliver. -/

/-- The key of the flipped bits of the protected word that holds an offset (R208, R209). -/
def TileStore.flipKey (m : TileStore) (a : Nat) : Nat := if (m.granule a).wcode then 2 * (a / 32) else a / 16

section
variable {m m' : TileStore} {a n : Nat}

theorem TileStore.word_of_unflipped (h : Sparse.get 0 m.flips (m.flipKey a) = 0) : m.word a = .clean 0 := by
  unfold TileStore.flipKey at h
  unfold TileStore.word
  split <;> simp_all

theorem TileStore.byte_of_unflipped (h : Sparse.get 0 m.flips (m.flipKey a) = 0) : m.byte a = m.bytes.read a := by
  simp [TileStore.byte, TileStore.word_of_unflipped h, EccResult.residual]

theorem TileStore.byte_congr (hg : m'.granules = m.granules) (hb : m'.bytes.read a = m.bytes.read a)
    (hf : Sparse.get 0 m'.flips (m.flipKey a) = Sparse.get 0 m.flips (m.flipKey a)) : m'.byte a = m.byte a := by
  have hgranule : m'.granule a = m.granule a := by rw [TileStore.granule, hg, TileStore.granule]
  have hword : m'.word a = m.word a := by
    unfold TileStore.flipKey at hf
    simp only [TileStore.word, hgranule]
    split <;> simp_all
  rw [TileStore.byte, hword, hgranule, hb, TileStore.byte]

theorem TileStore.check_of_unflipped (h : ∀ w ∈ wordsOf a n 16, Sparse.get 0 m.flips (m.flipKey (16 * w)) = 0) : m.check a n = (0, none) := by
  unfold TileStore.check
  split
  · rfl
  · refine List.foldlRecOn (motive := fun r => r = (0, none)) _ _ rfl fun r hr w hw => ?_
    simp [hr, TileStore.word_of_unflipped (h w hw)]

end

theorem Scratchpad.check_of_unflipped {m : Scratchpad} {a n : Nat} (h : ∀ w ∈ wordsOf a n 16, Sparse.get 0 m.flips w = 0) : m.check a n = (0, none) := by
  unfold Scratchpad.check
  split
  · rfl
  · refine List.foldlRecOn (motive := fun r => r = (0, none)) _ _ rfl fun r hr w hw => ?_
    simp [hr, Scratchpad.word_of_clean (h w hw)]

/-- A write of whole rows merges no word with what it held (R202). -/
theorem Scratchpad.checkPartial_of_rows (m : Scratchpad) {a n : Nat} (ha : a % 64 = 0) (hn : n % 64 = 0) : m.checkPartial a n = (0, none) := by
  have hnone : partialWords a n = [] := List.filter_eq_nil_iff.2 fun w hw => by
    rw [mem_wordsOf (by omega)] at hw
    simp only [Bool.false_and, Bool.or_false, Bool.or_eq_true, decide_eq_true_eq]
    omega
  simp [Scratchpad.checkPartial, hnone]

@[simp] theorem TileStore.length_read (m : TileStore) (n : Nat) : ∀ a, (m.read a n).length = n := by
  induction n with
  | zero => intro a; rfl
  | succ n ih => intro a; simp [TileStore.read, ih]

theorem TileStore.getD_read (m : TileStore) (n : Nat) : ∀ a i, i < n → (m.read a n).getD i 0 = m.byte (a + i) := by
  induction n with
  | zero => intro a i h; omega
  | succ n ih =>
    intro a i h
    cases i with
    | zero => simp [TileStore.read]
    | succ i => rw [TileStore.read, List.getD_cons_succ, ih _ _ (by omega), show a + 1 + i = a + (i + 1) by omega]

/-! A write of whole rows of the tile store (R205). -/

theorem TileStore.get_flips_write (m : TileStore) (a : Nat) (bs : List Byte) (k : Nat) :
    Sparse.get 0 (m.write a bs).flips k = if a / 16 ≤ k ∧ k < (a + bs.length + 15) / 16 then 0 else Sparse.get 0 m.flips k := by
  by_cases h : m.flips = []
  · simp [TileStore.write, h, Sparse.get]
  · simp [TileStore.write, h, Sparse.get_clearRange]

section
variable {m : TileStore} {a : Nat} {bs : List Byte} (ha : a % 64 = 0) (hbs : bs.length % 64 = 0)
include ha hbs

theorem TileStore.unflipped_write {o : Nat} (ho : a ≤ o ∧ o < a + bs.length) : Sparse.get 0 (m.write a bs).flips ((m.write a bs).flipKey o) = 0 := by
  rw [TileStore.get_flips_write, if_pos]
  unfold TileStore.flipKey
  split <;> omega

theorem TileStore.wroteTs_write : WroteTs m (m.write a bs) a bs := by
  refine ⟨rfl, rfl, fun i hi => ?_, fun o ho => TileStore.byte_congr rfl (Memory.read_writeBytes_other _ _ _ _ ho) ?_⟩
  · rw [TileStore.byte_of_unflipped (TileStore.unflipped_write ha hbs (by omega))]
    exact Memory.read_writeBytes _ _ _ _ hi
  · rw [TileStore.get_flips_write, if_neg]
    unfold TileStore.flipKey
    split <;> omega

end

/-- Rows written back as they were delivered read as before, and their words are clean (R221). -/
theorem TileStore.rewrite_spec (m : TileStore) {a n : Nat} (ha : a % 64 = 0) (hn : n % 64 = 0) :
    (∀ o, (m.write a (m.read a n)).byte o = m.byte o) ∧ (m.write a (m.read a n)).check a n = (0, none) := by
  have hlen : (m.read a n).length % 64 = 0 := by simpa using hn
  obtain ⟨_, _, hin, hout⟩ := TileStore.wroteTs_write (m := m) ha hlen
  rw [TileStore.length_read] at hin hout
  refine ⟨fun o => ?_, TileStore.check_of_unflipped fun w hw => TileStore.unflipped_write ha hlen ?_⟩
  · by_cases ho : a ≤ o ∧ o < a + n
    · have hbyte := (hin (o - a) (by omega)).trans (m.getD_read n a (o - a) (by omega))
      rwa [Nat.add_sub_cancel' ho.1] at hbyte
    · exact hout o (by omega)
  · rw [mem_wordsOf (by omega)] at hw
    rw [TileStore.length_read]
    omega

/-- A row of the scratchpad settled reads as before, and its words are clean (R221). -/
theorem Scratchpad.check_settle (m : Scratchpad) (a n : Nat) : (m.settle (wordsOf a n 16)).check a n = (0, none) := by
  obtain ⟨_, _, _, _, hflips⟩ := Scratchpad.settle_spec (wordsOf a n 16) m
  exact Scratchpad.check_of_unflipped fun w hw => by rw [hflips, if_pos hw]

/-! The transition of a bank (R212, R213). -/

theorem TileStore.byte_zero_bank (m : TileStore) (b o : Nat) :
    (m.zero (b * 0x180000) 0x180000).byte o = if o / 0x180000 = b then 0 else m.byte o := by
  have hkey : m.flipKey o / 0x18000 = o / 0x180000 := by
    unfold TileStore.flipKey
    split <;> omega
  have hflips : Sparse.get 0 (m.zero (b * 0x180000) 0x180000).flips (m.flipKey o) = if o / 0x180000 = b then 0 else Sparse.get 0 m.flips (m.flipKey o) := by
    simp only [TileStore.zero, Sparse.get_clearRange]
    congr 1
    apply propext
    omega
  have hbytes : (m.zero (b * 0x180000) 0x180000).bytes.read o = if o / 0x180000 = b then 0 else m.bytes.read o := by
    simp only [TileStore.zero, Memory.read, Sparse.get_clearRange]
    congr 1
    apply propext
    omega
  split
  · next h =>
    rw [if_pos h] at hflips hbytes
    exact (TileStore.byte_of_unflipped hflips).trans hbytes
  · next h =>
    rw [if_neg h] at hflips hbytes
    exact TileStore.byte_congr rfl hbytes hflips

section
variable (m : TileStore) (b : Nat) (dest : BankState)

theorem bankTurn_frame : (bankTurn m b dest).granules = m.granules ∧ (bankTurn m b dest).held = m.held ∧
    (bankTurn m b dest).banks = m.banks.setIfInBounds b { m.bank b with st := dest, target := none } := by
  unfold bankTurn
  dsimp only
  split <;> exact ⟨rfl, rfl, rfl⟩

theorem bank_bankTurn_same (h : b < 16) : (bankTurn m b dest).bank b = { m.bank b with st := dest, target := none } := by
  obtain ⟨_, _, hbanks⟩ := bankTurn_frame m b dest
  simp [TileStore.bank, hbanks, h]

theorem bank_bankTurn_other {b' : Nat} (h : b' ≠ b) : (bankTurn m b dest).bank b' = m.bank b' := by
  obtain ⟨_, _, hbanks⟩ := bankTurn_frame m b dest
  simp [TileStore.bank, hbanks, Ne.symm h]

theorem byte_bankTurn (o : Nat) : (bankTurn m b dest).byte o =
    if o / 0x180000 = b ∧ (dest = .off ∨ (m.bank b).st = .off) then 0 else m.byte o := by
  by_cases h : dest = .off ∨ (m.bank b).st = .off
  · have hcond : (dest == .off || (m.bank b).st == .off) = true := by simpa using h
    have hbyte : (bankTurn m b dest).byte o = (m.zero (b * 0x180000) 0x180000).byte o := by
      simp only [bankTurn, hcond, if_true]
      rfl
    rw [hbyte, TileStore.byte_zero_bank]
    simp [h]
  · have hcond : (dest == .off || (m.bank b).st == .off) = false := by simpa using h
    simp only [bankTurn, hcond, h, and_false, if_false]
    rfl

end

end Sys2Proof.Machine
end

section
/-! SUPPORT. The commands of queue DL and the transition of a bank (O14). -/

namespace Sys2Proof.Machine

open Claims

/-! Accesses of a DMA command that nothing stops (R86, R209, R218). -/

theorem inside_of_equals {f : Footprint} {a n : Nat} (h : f.equals false a n = true) (hn : 0 < n) : Inside f a n := by
  rw [Footprint.equals, if_neg (by omega)] at h
  simp only [Bool.and_eq_true, beq_iff_eq] at h
  obtain ⟨⟨hoff, hlen⟩, hts⟩ := h
  exact ⟨hts, by omega, by omega, hn⟩

theorem engTry_of_inside {f : Footprint} {a n c : Nat} {x : Tile} (h : Inside f a n) (hc : x.sp.check a n = (c, none)) :
    (engTry [f] a n).run { tile := x } = (.ok (x.sp.read a n, none), { tile := corrected x c }) :=
  engTry_run (engReach_of_covered fun r hr => by simp [covers_rowPart h hr]) hc

theorem engTsTry_run {a n c : Nat} {x : Tile} (hc : x.ts.check a n = (c, none)) :
    (engTsTry a n).run { tile := x } = (.ok (x.ts.read a n, none), { tile := x.count 4 c }) := by
  have hreach : engReach none (fun _ _ => true) true a n = (n, none) := engReach_of_covered fun _ _ => rfl
  unfold engTsTry
  rw [Eng.run_bind Eng.run_get]
  simp only [hreach, hc]
  rw [Eng.run_bind Eng.run_set]
  rfl

section
variable {x : Tile} {a : Nat} {bs : List Byte}

theorem runs_engPut_rows {f : Footprint} (h : Inside f a bs.length) (ha : a % 64 = 0) (hbs : bs.length % 64 = 0) :
    Runs (engPut none f a bs) x fun _ y => y = { x with sp := x.sp.write a bs } := by
  have hreach : engReach none (fun o k => f.covers false o k) false a bs.length = (bs.length, none) := engReach_of_covered fun _ hr => covers_rowPart h hr
  refine ⟨(), _, engPut_run hreach (x.sp.checkPartial_of_rows ha hbs), ?_⟩
  exact congrArg (fun y : Tile => { y with sp := x.sp.write a bs }) (Tile.count_zero x 3)

theorem runs_engWrite_rows {f : Footprint} (h : Inside f a bs.length) (ha : a % 64 = 0) (hbs : bs.length % 64 = 0) :
    Runs (engWrite f a bs) x fun _ y => y = { x with sp := x.sp.write a bs } := by
  obtain ⟨u, y, hrun, hy⟩ := runs_engPut_rows (x := x) h ha hbs
  refine ⟨u, y, ?_, hy⟩
  unfold engWrite
  rw [Eng.run_bind Eng.run_get, Eng.run_bind Eng.run_set]
  exact hrun

theorem runs_engTsPut (p : Nat) : Runs (engTsPut none p a bs) x fun _ y => y = x.tsServe p a bs := by
  have hreach : engReach none (fun _ _ => true) true a bs.length = (bs.length, none) := engReach_of_covered fun _ _ => rfl
  unfold engTsPut
  simp only [hreach, List.take_length]
  exact .bind (.modify rfl) fun _ _ h => .pure h

theorem runs_engTsWrite (p : Nat) : Runs (engTsWrite p a bs) x fun _ y => y = x.tsServe p a bs := by
  obtain ⟨u, y, hrun, hy⟩ := runs_engTsPut (x := x) (a := a) (bs := bs) p
  refine ⟨u, y, ?_, hy⟩
  unfold engTsWrite
  rw [Eng.run_bind Eng.run_get, Eng.run_bind Eng.run_set]
  exact hrun

/-- What a move reads before it writes: it answers the bytes, stopped by nothing. -/
theorem Runs.moved_bind {α : Type} {m : Eng (List Byte × Option (Nat × Nat))} {g : List Byte × Option (Nat × Nat) → Eng α} {x y : Tile} {bs : List Byte}
    {R : α → Tile → Prop} (hm : m.run { tile := x } = (.ok (bs, none), { tile := y })) (h : Runs (g (bs, none)) y R) : Runs (m >>= g) x R :=
  .bind (R := fun r z => (bs, none) = r ∧ y = z) ⟨_, _, hm, rfl, rfl⟩ fun _ _ ⟨hr, hz⟩ => hr ▸ hz ▸ h

end

theorem cmdOp_of_started {s : State} {t : Ltn} {q op : Nat} {e : QEntry} (h : Started s t q op e) : cmdOp e.desc = op := by
  obtain ⟨_, _, _, _, hop⟩ := h
  exact hop

theorem State.engine_of_quiet {s : State} {t : Ltn} {q op : Nat} {e : QEntry} {f : StepEnv → List Byte → Eng Unit} {y : Tile}
    (h : Started s t q op e) (hf : Runs (f (s.stepEnv (s.sectNo t)) e.desc) (s.tile t) fun _ z => z = y) :
    s.engine t q op (fun env d => quiet (f env d)) = s.setTile t (ran y q e 0) := by
  obtain ⟨_, _, hengine, rfl, rfl⟩ := State.engine_of_runs (f := fun env d => quiet (f env d)) h
    (R := fun n z => n = 0 ∧ z = y) (.bind hf fun _ _ h => .pure ⟨rfl, h⟩)
  exact hengine

/-! The moves of queue DL (R217, R218). -/

section
variable {d : List Byte}

theorem dlOk_move (h : dlOk d = true) (hop : cmdOp d = 1 ∨ cmdOp d = 2 ∨ cmdOp d = 3 ∨ cmdOp d = 4) :
    dlLen d % 64 = 0 ∧ 64 ≤ dlLen d ∧ dlTs d % 64 = 0 := by
  unfold dlOk at h
  obtain hop | hop | hop | hop := hop <;> simp only [hop, Bool.and_eq_true, beq_iff_eq, decide_eq_true_eq] at h <;> omega

theorem dlOk_tsRead (h : dlOk d = true) (hop : cmdOp d = 1) : dlSp d % 64 = 0 ∧ (fpWr d).equals false (dlSp d) (dlLen d) = true := by
  unfold dlOk at h
  simp only [hop, Bool.and_eq_true, beq_iff_eq] at h
  grind

theorem dlOk_tsWrite (h : dlOk d = true) (hop : cmdOp d = 2) : (fpRd0 d).equals false (dlSp d) (dlLen d) = true := by
  unfold dlOk at h
  simp only [hop, Bool.and_eq_true, beq_iff_eq] at h
  grind

theorem length_patternBytes (v : Nat) {n : Nat} (h : n % 64 = 0) : (patternBytes v n).length = n := by
  simp [patternBytes]
  omega

section
variable {x : Tile} {c p : Nat} (h : dlOk d = true)
include h

theorem runs_tsReadRun (hop : cmdOp d = 1) (hc : x.ts.check (dlTs d) (dlLen d) = (c, none)) :
    Runs (tsReadRun d) x fun _ y => y = { x.count 4 c with sp := x.sp.write (dlSp d) (x.ts.read (dlTs d) (dlLen d)) } := by
  obtain ⟨hlen, hmin, _⟩ := dlOk_move h (.inl hop)
  obtain ⟨hsp, hwr⟩ := dlOk_tsRead h hop
  refine .moved_bind (engTsTry_run hc) (.bind (runs_engPut_rows ?_ hsp ?_) fun _ _ h => .pure h) <;> rw [TileStore.length_read]
  · exact inside_of_equals hwr (by omega)
  · exact hlen

theorem runs_tsWriteRun (hop : cmdOp d = 2) (hc : x.sp.check (dlSp d) (dlLen d) = (c, none)) :
    Runs (tsWriteRun p d) x fun _ y => y = (corrected x c).tsServe p (dlTs d) (x.sp.read (dlSp d) (dlLen d)) := by
  obtain ⟨_, hmin, _⟩ := dlOk_move h (.inr (.inl hop))
  have hin := inside_of_equals (dlOk_tsWrite h hop) (by omega)
  exact .moved_bind (engTry_of_inside hin hc) (.bind (runs_engTsPut p) fun _ _ h => .pure h)

end

theorem runs_tcopyRun {x : Tile} {c : Nat} (p : Nat) (hc : x.ts.check (dlSrc d) (dlLen d) = (c, none)) :
    Runs (tcopyRun p d) x fun _ y => y = (x.count 4 c).tsServe p (dlTs d) (x.ts.read (dlSrc d) (dlLen d)) :=
  .moved_bind (engTsTry_run hc) (.bind (runs_engTsPut p) fun _ _ h => .pure h)

/-- A command of DL that serves a write of whole rows leaves what that write leaves and the ranges marked. -/
theorem goes_tsServe {s u : State} {t : Ltn} {q a n : Nat} {e : QEntry} {y : Tile} {p : Nat} {bs : List Byte} (hbs : bs.length = n) (ha : a % 64 = 0) (hn : n % 64 = 0)
    (hu : u = s.setTile t (ran (y.tsServe p a bs) q e 0)) :
    ∃ m, goes u = goes (s.setTile t (ran { y with ts := m, ranges := y.ranges.map (markWrite p a n) } q e 0)) ∧ WroteTs y.ts m a bs := by
  subst hbs
  exact ⟨_, congrArg _ hu, TileStore.wroteTs_write ha hn⟩

end

/-! The transition of a bank that holds no write (R213). -/

theorem Sparse.insert_insert {α : Type} (m : Sparse α) (a : Nat) (x y : α) : Sparse.insert (Sparse.insert m a x) a y = Sparse.insert m a y := by
  induction m with
  | nil => simp [Sparse.insert]
  | cons e m ih =>
    obtain ⟨k, v⟩ := e
    by_cases hlt : a < k
    · simp [Sparse.insert, hlt]
    · by_cases heq : a = k
      · simp [Sparse.insert, heq]
      · simp [Sparse.insert, hlt, heq, ih]

theorem Sparse.set_set_self {α : Type} [DecidableEq α] (d : α) (m : Sparse α) (a : Nat) (x : α) :
    Sparse.set d (Sparse.set d m a x) a x = Sparse.set d m a x := by
  unfold Sparse.set
  split
  · simp
  · exact Sparse.insert_insert m a x x

theorem State.setTile_setTile_self (s : State) (t : Ltn) (x : Tile) : (s.setTile t x).setTile t x = s.setTile t x :=
  congrArg (fun tiles => { s with tiles := tiles }) (Sparse.set_set_self {} s.tiles t.toNat x)

theorem State.unhold_of_none_held {s : State} {t : Ltn} (h : (s.tile t).ts.held = []) (b : Nat) : s.unhold t b = s.setTile t (s.tile t) := by
  have hx : { s.tile t with ts := { (s.tile t).ts with held := [] } } = s.tile t := by rw [← h]
  rw [State.unhold, hx, h]
  rfl

theorem execBankTransition_of_quiet {s : State} {t : Ltn} {b : BitVec 4} {dest : BankState} (htarget : ((s.tile t).ts.bank b.toNat).target = some dest)
    (hwrites : ((s.tile t).ts.bank b.toNat).inWrites = 0) (hreads : ((s.tile t).ts.bank b.toNat).inReads = 0) (hheld : (s.tile t).ts.held = []) :
    execBankTransition t b s = goes (s.setTile t { s.tile t with ts := bankTurn (s.tile t).ts b.toNat dest }) := by
  obtain ⟨_, hturned, _⟩ := bankTurn_frame (s.tile t).ts b.toNat dest
  have hheld' : ((s.setTile t { s.tile t with ts := bankTurn (s.tile t).ts b.toNat dest }).tile t).ts.held = [] := by
    rw [State.tile_setTile_same]
    exact hturned.trans hheld
  simp only [execBankTransition, htarget, hwrites, hreads, ne_eq, not_true_eq_false, or_self, if_false]
  rw [State.unhold_of_none_held hheld', State.tile_setTile_same, State.setTile_setTile_self]

/-- Settles O14: a move is one read, if any, and one write of whole rows; a bank with no held write turns by `bankTurn`. -/
theorem tileStoreMoves : Obligations.TileStoreMoves := by
  refine ⟨?_, ?_⟩
  · intro s t e c x d n marks hok _
    refine ⟨fun hs hc => ?_, fun hs hc => ?_, fun hs => ?_, fun hs hc => ?_⟩
    · have hengine := State.engine_of_quiet (f := fun _ d => tsReadRun d) hs (runs_tsReadRun hok (cmdOp_of_started hs) hc)
      exact ⟨_, congrArg _ hengine, Scratchpad.wrote_write ..⟩
    · obtain ⟨hlen, _, hts⟩ := dlOk_move hok (.inr (.inl (cmdOp_of_started hs)))
      exact goes_tsServe (Scratchpad.read_length ..) hts hlen
        (State.engine_of_quiet (f := fun _ d => tsWriteRun (s.stepPostmark t) d) hs (runs_tsWriteRun hok (cmdOp_of_started hs) hc))
    · obtain ⟨hlen, _, hts⟩ := dlOk_move hok (.inr (.inr (.inl (cmdOp_of_started hs))))
      exact goes_tsServe (length_patternBytes _ hlen) hts hlen
        (State.engine_of_quiet (f := fun _ d => tfillRun (s.stepPostmark t) d) hs (runs_engTsWrite _))
    · obtain ⟨hlen, _, hts⟩ := dlOk_move hok (.inr (.inr (.inr (cmdOp_of_started hs))))
      exact goes_tsServe (TileStore.length_read ..) hts hlen
        (State.engine_of_quiet (f := fun _ d => tcopyRun (s.stepPostmark t) d) hs (runs_tcopyRun _ hc))
  · intro s t e b dest x k
    refine ⟨fun hs => ?_, fun htarget hwrites hreads hheld => ?_⟩
    · obtain ⟨_, _, hengine, rfl, rfl⟩ := State.engine_of_runs (f := fun _ _ => pure 0) hs (R := fun n y => n = 0 ∧ y = s.tile t) (.pure ⟨rfl, rfl⟩)
      exact congrArg _ hengine
    · obtain ⟨hgranules, _, _⟩ := bankTurn_frame x.ts b.toNat dest
      have hbank := bank_bankTurn_same x.ts b.toNat dest b.isLt
      refine ⟨_, execBankTransition_of_quiet htarget hwrites hreads hheld, by rw [hbank], by rw [hbank], hgranules, fun b' _ hb' => ?_, fun o ho => ?_, fun o ho => ?_⟩
      · exact bank_bankTurn_other _ _ _ hb'
      · rw [byte_bankTurn, if_neg fun h => ho h.1]
      · rw [byte_bankTurn]
        simp only [ho, true_and]
        rfl

end Sys2Proof.Machine
end

section
/-! SUPPORT. The scrubbers (O22). -/

namespace Sys2Proof.Machine

open Claims

theorem State.clocked_of_running {s : State} {t : Ltn} (h : s.fencedLtn t.toNat = false) (f : State → State) : s.clocked t f = f s := by
  simp [State.clocked, h]

theorem State.clocked_of_fenced {s : State} {t : Ltn} (h : s.fencedLtn t.toNat = true) (f : State → State) : s.clocked t f = s := by
  simp [State.clocked, h]

/-- A corrected row written back: reads deliver what they delivered, and the row's words are clean (R221). -/
theorem scrubFix_spec (x : Tile) (ts : Bool) {o : Nat} (ho : o % 64 = 0) : ∃ m d, scrubFix x ts o = { x with sp := m, ts := d } ∧
    (∀ a, m.byte a = x.sp.byte a) ∧ (∀ a, d.byte a = x.ts.byte a) ∧ (if ts then d.check o 64 else m.check o 64) = (0, none) := by
  cases ts with
  | true =>
    obtain ⟨hbyte, hcheck⟩ := x.ts.rewrite_spec ho (n := 64) (by omega)
    exact ⟨x.sp, _, rfl, fun _ => rfl, hbyte, hcheck⟩
  | false =>
    obtain ⟨hbyte, _⟩ := x.sp.settle_spec (wordsOf o 64 16)
    exact ⟨_, x.ts, rfl, hbyte, fun _ => rfl, x.sp.check_settle o 64⟩

/-- The offset of the row that a scrubber reads next (R221). -/
def Tile.scrubOffset (x : Tile) (ts : Bool) (bank : BitVec 4) : Nat :=
  64 * ((if ts then 24576 else 1024) * bank.toNat + x.scrub.toList.getD (bank.toNat + if ts then 16 else 0) 0)

/-- A tile whose scrubber has advanced by one row (R221). -/
def Tile.scrubAdvanced (x : Tile) (ts : Bool) (bank : BitVec 4) : Tile :=
  let i := bank.toNat + if ts then 16 else 0
  { x with scrub := x.scrub.setIfInBounds i ((x.scrub.toList.getD i 0 + 1) % if ts then 24576 else 1024) }

/-- What an enabled scrubber makes of the state once its check of the row at o has answered; x is the tile with the scrubber advanced (R221). -/
def State.scrubbed (s : State) (t : Ltn) (ts : Bool) (x : Tile) (o : Nat) : Nat × Option Nat → State
  | (_, some w) => (s.setTile t (x.count 5 1)).event 0x0301 (s.sectNo t) (items [t.toNat, boolNat ts, w])
  | (0, none) => s.setTile t x
  | (n + 1, none) => s.setTile t ((scrubFix x ts o).count (if ts then 4 else 3) (n + 1))

section
variable {s : State} {t : Ltn} {ts : Bool} {bank : BitVec 4}

theorem execScrub_idle (h : s.fencedLtn t.toNat = true ∨ bitOf (s.reg oScrubCfg) 16 = false ∨ ts = true ∧ ((s.tile t).ts.bank bank.toNat).st ≠ .on) :
    execScrub t ts bank s = goes s := by
  cases hfence : s.fencedLtn t.toNat with
  | true => exact congrArg _ (State.clocked_of_fenced hfence _)
  | false =>
    have hidle : (!bitOf (s.reg oScrubCfg) 16 || (ts && ((s.tile t).ts.bank bank.toNat).st != .on)) = true := by
      simpa [hfence] using h
    simp only [execScrub, State.clocked_of_running hfence, hidle, if_true]

theorem not_and_not_iff (a b : Bool) : (!a && !b) = true ↔ ¬ (a = true ∨ b = true) := by
  cases a <;> cases b <;> decide

theorem execScrub_enabled (hfence : s.fencedLtn t.toNat = false) (hcfg : bitOf (s.reg oScrubCfg) 16 = true)
    (hon : ts = true → ((s.tile t).ts.bank bank.toNat).st = .on) :
    execScrub t ts bank s = goes (if ts = true ∨ (s.tile t).sp.rowValid ((s.tile t).scrubOffset ts bank) = true
      then s.scrubbed t ts ((s.tile t).scrubAdvanced ts bank) ((s.tile t).scrubOffset ts bank) (scrubCheck (s.tile t) ts ((s.tile t).scrubOffset ts bank))
      else s.setTile t ((s.tile t).scrubAdvanced ts bank)) := by
  have ho : bank.toNat * ((if ts then 24576 else 1024) * 64) + 64 * (s.tile t).scrub.toList.getD (bank.toNat + if ts then 16 else 0) 0 =
      (s.tile t).scrubOffset ts bank := by
    rw [Tile.scrubOffset]
    cases ts <;> simp only [Bool.false_eq_true, if_true, if_false] <;> omega
  have hgo : (!bitOf (s.reg oScrubCfg) 16 || (ts && ((s.tile t).ts.bank bank.toNat).st != .on)) = false := by
    cases ts <;> simp_all
  rw [execScrub, State.clocked_of_running hfence]
  dsimp only
  rw [if_neg (Bool.eq_false_iff.1 hgo), ho]
  by_cases hreads : ts = true ∨ (s.tile t).sp.rowValid ((s.tile t).scrubOffset ts bank) = true
  · rw [if_pos hreads, if_neg fun hskips => (not_and_not_iff ..).1 hskips hreads]
    rfl
  · rw [if_neg hreads, if_pos ((not_and_not_iff ..).2 hreads)]
    rfl

end

/-- Settles O22: an enabled scrubber at a bank that is ON judges one row by what its check finds; `scrubFix_spec` says what a correctable row becomes. -/
theorem scrubbing : Obligations.Scrubbing := by
  intro s t ts bank x i rows row o found reads moved
  refine ⟨fun hfence hcfg hon => ?_, execScrub_idle⟩
  have hexec : exec (.scrub t ts bank) s = goes (if reads then s.scrubbed t ts moved o found else s.setTile t moved) :=
    execScrub_enabled hfence hcfg hon
  refine ⟨fun h => ?_, fun n hreads hfound => ?_, fun n w hreads hfound => ?_⟩
  · rw [hexec]
    split
    · next hreads =>
      rw [h.resolve_left (fun hskips => hskips hreads)]
      rfl
    · rfl
  · obtain ⟨m, d, hfix, hspec⟩ := scrubFix_spec moved ts (o := o) (by omega)
    refine ⟨m, d, ?_, hspec⟩
    rw [hexec, if_pos hreads, hfound, State.scrubbed, hfix]
    rfl
  · rw [hexec, if_pos hreads, hfound]
    rfl

end Sys2Proof.Machine
end

section
/-! SUPPORT. The commands of queues DH and DU (O16). -/

namespace Sys2Proof.Machine

open Claims

/-! A started command in its queue (R84, R87). -/

section
variable {s : State} {t : Ltn} {q op : Nat} {e : QEntry}

theorem clocked_of_started (h : Started s t q op e) (f : State → State) : s.clocked t f = f s := by
  obtain ⟨hfence, _⟩ := h
  exact State.clocked_of_running hfence f

theorem inExecution_of_started (h : Started s t q op e) : (s.tile t).inExecution q op = some e := by
  obtain ⟨_, hfault, ⟨rest, hqueue⟩, hstatus, hop⟩ := h
  simp [Tile.inExecution, hqueue, hop, hstatus, hfault]

theorem work_of_started {α : Type} (h : Started s t q op e) (f : Eng α) : (s.tile t).work q e f = f.run { tile := s.tile t } := by
  obtain ⟨_, _, _, hstatus, _⟩ := h
  simp [Tile.work, hstatus]

theorem worked_of_started (h : Started s t q op e) (y : Tile) (n : Nat) : y.worked q e (.ok n) = ran y q e n := by
  obtain ⟨_, _, _, hstatus, _⟩ := h
  simp only [Tile.worked, hstatus, reduceCtorEq, if_false]
  rfl

end

/-! Transfers of DH (R219). -/

theorem Memory.length_readBytes (m : Memory) (n : Nat) : ∀ a, (m.readBytes a n).length = n := by
  induction n with
  | zero => intro a; rfl
  | succ n ih => intro a; simp [Memory.readBytes, ih]

section
variable {d : List Byte}

/-- A DH command moves whole rows (R219). -/
theorem dhOk_rows (h : dhOk d = true) : dhLocal d % 64 = 0 ∧ dhLen d % 64 = 0 ∧ 0 < dhLen d := by
  simp only [dhOk, Bool.and_eq_true, beq_iff_eq, decide_eq_true_eq] at h
  omega

/-- The local footprint of a DH command is its local range (R219). -/
theorem dhOk_own (h : dhOk d = true) :
    (if cmdOp d = 1 then fpWr d else fpRd0 d).equals (if cmdOp d = 1 then fpWr d else fpRd0 d).ts (dhLocal d) (dhLen d) = true := by
  simp only [dhOk, Bool.and_eq_true] at h
  obtain ⟨⟨⟨_, hown⟩, _⟩, _⟩ := h
  exact hown

variable {x : Tile} {p c : Nat} {bs : List Byte} (h : dhOk d = true)
include h

theorem runs_hread (hop : cmdOp d = 1) (hbs : bs.length = dhLen d) : Runs (dhLocalRun p d bs) x fun n y => n = 0 ∧
    y = if (fpWr d).ts then x.tsServe p (dhLocal d) bs else { x with sp := x.sp.write (dhLocal d) bs } := by
  obtain ⟨haddr, hlen, hpos⟩ := dhOk_rows h
  unfold dhLocalRun
  rw [if_pos hop]
  cases hts : (fpWr d).ts with
  | true => exact .bind (runs_engTsWrite p) fun _ _ hy => .pure ⟨rfl, hy⟩
  | false =>
    have hin : Inside (fpWr d) (dhLocal d) bs.length := by
      have hown := dhOk_own h
      rw [if_pos hop, hts] at hown
      exact hbs ▸ inside_of_equals hown hpos
    exact .bind (runs_engWrite_rows hin haddr (hbs ▸ hlen)) fun _ _ hy => .pure ⟨rfl, hy⟩

theorem run_hwrite (hop : cmdOp d = 2) (hc : (if (fpRd0 d).ts then x.ts.check (dhLocal d) (dhLen d) else x.sp.check (dhLocal d) (dhLen d)) = (c, none)) :
    (dhLocalRun p d bs).run { tile := x } = (.ok 0,
      { tile := if (fpRd0 d).ts then x.count 4 c else corrected x c
        out := if (fpRd0 d).ts then x.ts.read (dhLocal d) (dhLen d) else x.sp.read (dhLocal d) (dhLen d) }) := by
  obtain ⟨haddr, hlen, hpos⟩ := dhOk_rows h
  unfold dhLocalRun
  rw [if_neg (by omega)]
  cases hts : (fpRd0 d).ts with
  | true =>
    rw [hts, if_pos rfl] at hc
    exact Eng.run_bind (engTsTry_run hc)
  | false =>
    have hin : Inside (fpRd0 d) (dhLocal d) (dhLen d) := by
      have hown := dhOk_own h
      rw [if_neg (by omega), hts] at hown
      exact inside_of_equals hown hpos
    rw [hts, if_neg Bool.false_ne_true] at hc
    exact Eng.run_bind (engTry_of_inside hin hc)

end

section
variable {s : State} {t : Ltn} {e : QEntry}

theorem execHread_of_good {data : List Byte} (h : Started s t 4 1 e) (hgood : dhHost e.desc = false → s.hbmBadUnit (dhAddr e.desc) (dhLen e.desc) = none) :
    execHread t data s = goes (s.hreadWith t e (if dhHost e.desc then data else s.hbm.readBytes (dhAddr e.desc) (dhLen e.desc))) := by
  simp only [execHread, clocked_of_started h, inExecution_of_started h]
  cases hhost : dhHost e.desc with
  | true => rfl
  | false => simp [hgood hhost]

theorem hreadWith_of_started {bs : List Byte} (h : Started s t 4 1 e) (hok : dhOk e.desc = true) (hbs : bs.length = dhLen e.desc) :
    s.hreadWith t e bs = s.setTile t (ran (if (fpWr e.desc).ts then (s.tile t).tsServe (s.stepPostmark t) (dhLocal e.desc) bs
      else { s.tile t with sp := (s.tile t).sp.write (dhLocal e.desc) bs }) 4 e 0) := by
  obtain ⟨_, _, hrun, rfl, rfl⟩ := runs_hread (x := s.tile t) (p := s.stepPostmark t) hok (cmdOp_of_started h) hbs
  have hpad : padTo (dhLen e.desc) bs = bs := by
    rw [padTo_eq _ _ (Nat.le_of_eq hbs), hbs, Nat.sub_self]
    exact List.append_nil bs
  simp only [State.hreadWith, hpad, work_of_started h, hrun, worked_of_started h]

/-- A write of HBM: the bytes written read back, every other byte stays, and a bad unit is one that was bad and is not written whole. -/
theorem State.hbmWrite_spec (s : State) (a : Nat) (bs : List Byte) : ∃ m bad, s.hbmWrite a bs = { s with hbm := m, hbmBad := bad } ∧
    (∀ i, i < bs.length → m.read (a + i) = bs.getD i 0) ∧ (∀ o, o < a ∨ a + bs.length ≤ o → m.read o = s.hbm.read o) ∧
    ∀ v, v ∈ bad ↔ v ∈ s.hbmBad ∧ ¬ (a ≤ 64 * v ∧ 64 * v + 64 ≤ a + bs.length) := by
  refine ⟨_, _, rfl, fun i hi => Memory.read_writeBytes _ _ _ _ hi, fun o ho => s.hbmWrite_read_other a o bs ho, fun v => ?_⟩
  rw [List.mem_filter]
  refine and_congr_right fun _ => ?_
  simp only [Bool.not_eq_true', Bool.and_eq_false_iff, decide_eq_false_iff_not]
  omega

theorem execHwrite_of_checked {c : Nat} (h : Started s t 4 2 e) (hok : dhOk e.desc = true)
    (hc : (if (fpRd0 e.desc).ts then (s.tile t).ts.check (dhLocal e.desc) (dhLen e.desc) else (s.tile t).sp.check (dhLocal e.desc) (dhLen e.desc)) = (c, none)) :
    let bytes := if (fpRd0 e.desc).ts then (s.tile t).ts.read (dhLocal e.desc) (dhLen e.desc) else (s.tile t).sp.read (dhLocal e.desc) (dhLen e.desc)
    let u := s.setTile t (ran (if (fpRd0 e.desc).ts then (s.tile t).count 4 c else corrected (s.tile t) c) 4 e 0)
    bytes.length = dhLen e.desc ∧
      execHwrite t s = goes (if dhHost e.desc then u.hostWrite (dhAddr e.desc) bytes else u.hbmWrite (dhAddr e.desc) bytes) := by
  intro bytes u
  obtain ⟨_, _, hpos⟩ := dhOk_rows hok
  have hlen : bytes.length = dhLen e.desc := by
    simp only [bytes]
    split <;> simp
  have hne : bytes ≠ [] := List.ne_nil_of_length_pos (by omega)
  refine ⟨hlen, ?_⟩
  simp only [execHwrite, clocked_of_started h, inExecution_of_started h, work_of_started h, run_hwrite hok (cmdOp_of_started h) hc,
    worked_of_started h]
  rw [if_neg hne]

end

/-! USEND (R271, R289). -/

section
variable {s : State} {t : Ltn} {e : QEntry}

theorem duOk_usend {d : List Byte} (h : duOk d = true) (hop : cmdOp d = 1) : duLen d = 11520 ∧ Inside (fpRd0 d) (duSrc d) 11520 := by
  simp only [duOk, hop, Bool.and_eq_true, beq_iff_eq] at h
  obtain ⟨_, ⟨⟨hlen, _⟩, hrd⟩, _⟩ := h
  exact ⟨hlen, inside_of_equals hrd (by omega)⟩

theorem execUsend_of_waiting (h : Started s t 5 1 e) (hready : s.sliceReady (usendSlice (s.sectNo t) t.toNat e.desc []) = false) :
    execUsend t s = goes s := by
  simp [execUsend, clocked_of_started h, inExecution_of_started h, hready]

theorem execUsend_of_ready {c : Nat} (h : Started s t 5 1 e) (hok : duOk e.desc = true)
    (hready : s.sliceReady (usendSlice (s.sectNo t) t.toNat e.desc []) = true) (hc : (s.tile t).sp.check (duSrc e.desc) 11520 = (c, none)) :
    let u := s.setTile t (ran (corrected (s.tile t) c) 5 e 0)
    execUsend t s = goes (u.pushSlice (usendSlice (u.sectNo t) t.toNat e.desc ((s.tile t).sp.read (duSrc e.desc) 11520))) := by
  intro u
  obtain ⟨hlen, hin⟩ := duOk_usend hok (cmdOp_of_started h)
  have hne : (s.tile t).sp.read (duSrc e.desc) 11520 ≠ [] := List.ne_nil_of_length_pos (by rw [Scratchpad.read_length]; omega)
  have hrun : (do
      let bs ← engRead [fpRd0 e.desc] (duSrc e.desc) (duLen e.desc)
      modify fun s => { s with out := bs }
      pure 0 : Eng Nat).run { tile := s.tile t } = (.ok 0, { tile := corrected (s.tile t) c, out := (s.tile t).sp.read (duSrc e.desc) 11520 }) := by
    rw [hlen]
    exact Eng.run_bind (engRead_of_inside hin hc)
  simp only [execUsend, clocked_of_started h, inExecution_of_started h, hready, work_of_started h, hrun, worked_of_started h,
    Bool.not_true, Bool.false_eq_true, if_false, if_neg hne]
  rfl

end

/-- Settles O16: a DH command is its local access and the remote one; a USEND that is ready is one read and one slice. -/
theorem hostAndUpdateMoves : Obligations.HostAndUpdateMoves := by
  refine ⟨?_, ?_⟩
  · intro s t e data c x d n remote bytes x' hok
    obtain ⟨haddr, hlen, _⟩ := dhOk_rows hok
    refine ⟨fun hs hdata hgood => ?_, fun hs hc => ?_⟩
    · have hremote : remote.length = n := by
        simp only [remote]
        split
        · next hhost => exact hdata hhost
        · exact Memory.length_readBytes ..
      have hexec : exec (.hread t data) s = goes _ := (execHread_of_good hs hgood).trans (congrArg _ (hreadWith_of_started hs hok hremote))
      refine ⟨fun hts => ?_, fun hts => ?_⟩
      · rw [hexec, hts]
        exact ⟨_, rfl, Scratchpad.wrote_write ..⟩
      · rw [hexec, hts]
        exact goes_tsServe hremote haddr hlen rfl
    · obtain ⟨hbytes, hexec⟩ := execHwrite_of_checked hs hok hc
      refine ⟨fun hhost => ?_, fun hhost => ?_⟩
      · rw [hhost] at hexec
        exact hexec
      · rw [hhost] at hexec
        obtain ⟨m, bad, hwrite, hin, hout, hbad⟩ := State.hbmWrite_spec (s.setTile t (ran x' 4 e 0)) (dhAddr d) bytes
        rw [show bytes.length = n from hbytes] at hin hout hbad
        exact ⟨m, bad, hexec.trans (congrArg _ hwrite), hin, hout, hbad⟩
  · intro s t e c x d hok
    refine ⟨execUsend_of_waiting, fun hs hready hc => execUsend_of_ready hs hok hready hc, fun hs => ?_⟩
    obtain ⟨_, _, hengine, rfl, rfl⟩ := State.engine_of_runs hs
      (f := fun _ d => engModify (fun x => { x with ucounts := x.ucounts ++ [(duGroup d, duCounter d, duValue d)] }) >>= fun _ => pure 0)
      (R := fun n y => n = 0 ∧ y = { s.tile t with ucounts := (s.tile t).ucounts ++ [(duGroup e.desc, duCounter e.desc, duValue e.desc)] })
      (.bind (.modify rfl) fun _ _ hy => .pure ⟨rfl, hy⟩)
    exact congrArg _ hengine

end Sys2Proof.Machine
end

section
/-! SUPPORT. One step of the queue (O1), and what the posting of an event makes of its ring (O35). -/

namespace Sys2Proof.Machine

open Claims

/-- Settles O1: the two cases of the queue. -/
theorem stepTakesFrontCommand : Obligations.StepTakesFrontCommand := by
  refine ⟨fun _ _ _ => rfl, fun s hempty => ?_⟩
  unfold step
  split
  · rfl
  · next hcons => simp [hempty] at hcons

/-! A ring that is written twice. -/

theorem Sparse.filter_insert {α : Type} (m : Sparse α) (a : Nat) (x : α) :
    (Sparse.insert m a x).filter (fun e => e.1 != a) = m.filter fun e => e.1 != a := by
  induction m with
  | nil => simp [Sparse.insert]
  | cons e m ih =>
    obtain ⟨k, v⟩ := e
    unfold Sparse.insert
    split
    · simp
    · split
      · next heq => simp [heq]
      · simp [List.filter_cons, ih]

/-- The last of two writes stays, if the first left an entry. -/
theorem Sparse.set_set {α : Type} [DecidableEq α] {d : α} (m : Sparse α) (a : Nat) {x : α} (y : α) (hx : x ≠ d) :
    Sparse.set d (Sparse.set d m a x) a y = Sparse.set d m a y := by
  unfold Sparse.set
  simp only [if_neg hx, Sparse.filter_insert, Sparse.insert_insert]

/-- A ring that has numbered a record is not as at reset. -/
theorem State.setRing_numbered (s : State) (r n : Nat) (x y : Ring) : (s.setRing r { x with seq := n + 1 }).setRing r y = s.setRing r y := by
  have hx : ({ x with seq := n + 1 } : Ring) ≠ {} := fun h => Nat.succ_ne_zero n (congrArg Ring.seq h)
  exact congrArg (fun rings => { s with rings := rings }) (Sparse.set_set s.rings r y hx)

@[simp] theorem Ring.free_numbered (x : Ring) (n : Nat) : ({ x with seq := n } : Ring).free = x.free := rfl

theorem State.hostWrite_setRing (s : State) (r a : Nat) (x : Ring) (bs : List Byte) : (s.setRing r x).hostWrite a bs = (s.hostWrite a bs).setRing r x := rfl

/-! Posting a record (R339, R342, R343, R357). -/

section
variable {s : State} {r : Nat} {rec : List Byte} {b : Bool}

theorem ringPost_of_room (hon : s.ringOn r = true) (hheld : (s.ring r).held = []) (hroom : rec.length / entryBytes r ≤ (s.ring r).free) :
    s.ringPost r rec b = s.ringWrite r rec b := by
  simp [State.ringPost, hon, hheld, hroom]

theorem ringPost_of_full (hon : s.ringOn r = true) (hfull : (s.ring r).free < rec.length / entryBytes r ∨ (s.ring r).held ≠ [])
    (hheld : (s.ring r).held.length < 256) : s.ringPost r rec b = s.setRing r { s.ring r with held := (s.ring r).held ++ [(rec, b)] } := by
  have hno : ¬ ((s.ring r).held = [] ∧ rec.length / entryBytes r ≤ (s.ring r).free) := by
    rintro ⟨hnil, hle⟩
    exact hfull.elim (Nat.not_lt.2 hle) (· hnil)
  simp [State.ringPost, hon, hno, Nat.not_le.2 hheld]

theorem ringPost_of_lost (hon : s.ringOn r = true) (hr : r = 64 ∨ r = 65) (hheld : 256 ≤ (s.ring r).held.length) :
    s.ringPost r rec b = s.setRing r { s.ring r with lost := (s.ring r).lost + 1 } := by
  have hne : (s.ring r).held ≠ [] := List.ne_nil_of_length_pos (by omega)
  simp [State.ringPost, hon, hne, hr, hheld]

/-- The write-back and the announcement of a ring that has neither (R342, R343). -/
theorem writeBack_of_none (hwb : (s.ring r).wb = 0) (i : Nat) : s.writeBack r i = s := if_pos hwb

theorem announce_of_silent (hirq : bitsOf (s.ringCtl r) 3 2 = 0) : s.announce r b = s := by
  simp [State.announce, hirq]

/-- A record of one entry is one write at the tail, which advances; the expected phase turns where it wraps (R343). -/
theorem writeEntries_one (n : Nat) (hlen : rec.length = entryBytes r) (hpos : 0 < entryBytes r) :
    let x := s.ring r
    let tail := (x.tail + 1) % x.size
    s.writeEntries r (n + 1) rec =
      (s.hostWrite (x.base + entryBytes r * x.tail) rec).setRing r { x with tail := tail, phase := if tail = 0 then !x.phase else x.phase } := by
  cases rec with
  | nil => simp [← hlen] at hpos
  | cons c rest =>
    rw [State.writeEntries, ← hlen, List.take_length, List.drop_length]
    cases n <;> rfl

theorem ringWrite_one (hlen : rec.length = entryBytes r) (hpos : 0 < entryBytes r) (hirq : bitsOf (s.ringCtl r) 3 2 = 0) (hwb : (s.ring r).wb = 0) :
    let x := s.ring r
    let tail := (x.tail + 1) % x.size
    s.ringWrite r rec b = (s.hostWrite (x.base + entryBytes r * x.tail) (setPhase x.phase (phaseByte r) rec)).setRing r
      { x with tail := tail, phase := if tail = 0 then !x.phase else x.phase } := by
  intro x tail
  have hset : (setPhase x.phase (phaseByte r) rec).length = entryBytes r := by
    rw [← hlen, setPhase]
    split <;> simp
  simp only [State.ringWrite]
  rw [writeEntries_one _ hset hpos, writeBack_of_none (by simpa using hwb), announce_of_silent (by simpa using hirq)]

end

/-! Event records (R353). -/

/-- An event record: code, section, the byte of PHASE, number, timestamp and DATA. -/
def eventRecord (code sect : Nat) (phase : Byte) (seq tstamp : Nat) (data : List Byte) : List Byte :=
  leBytes 2 code ++ leBytes 1 sect ++ [phase] ++ leBytes 4 seq ++ leBytes 8 tstamp ++ padTo 16 data

section
variable {code sect seq tstamp : Nat} {data : List Byte}

theorem eventRecord_length (phase : Byte) : (eventRecord code sect phase seq tstamp data).length = 32 := by
  simp [eventRecord]

theorem setPhase_eventRecord (p : Bool) :
    setPhase p (phaseByte 64) (eventRecord code sect 0 seq tstamp data) = eventRecord code sect (BitVec.ofNat 8 (boolNat p)) seq tstamp data := by
  cases p
  · rfl
  · simp [setPhase, phaseByte, eventRecord, leBytes, boolNat]

end

section
variable {s : State} {code sect : Nat} {data : List Byte}

/-- An event numbers its record and posts it. -/
theorem event_of_on (hon : s.ringOn 64 = true) : s.event code sect data =
    (s.setRing 64 { s.ring 64 with seq := (s.ring 64).seq + 1 }).ringPost 64 (eventRecord code sect 0 (s.ring 64).seq s.tstamp data) false := by
  simp [State.event, State.ringSeq, hon, eventRecord]

theorem event_of_room (hon : s.ringOn 64 = true) (hheld : (s.ring 64).held = []) (hfree : 1 ≤ (s.ring 64).free) (hirq : bitsOf (s.ringCtl 64) 3 2 = 0)
    (hwb : (s.ring 64).wb = 0) :
    let x := s.ring 64
    let tail := (x.tail + 1) % x.size
    s.event code sect data = (s.hostWrite (x.base + 32 * x.tail) (eventRecord code sect (BitVec.ofNat 8 (boolNat x.phase)) x.seq s.tstamp data)).setRing 64
      { x with seq := x.seq + 1, tail := tail, phase := if tail = 0 then !x.phase else x.phase } := by
  intro x tail
  rw [event_of_on hon, ringPost_of_room (by simpa using hon) (by simpa using hheld) (by simpa [eventRecord_length, entryBytes] using hfree),
    ringWrite_one (eventRecord_length 0) (by decide) (by simpa using hirq) (by simpa using hwb)]
  simp only [State.ring_setRing_same, setPhase_eventRecord, State.hostWrite_setRing, State.setRing_numbered]
  rfl

theorem event_of_full (hon : s.ringOn 64 = true) (hfull : (s.ring 64).free = 0 ∨ (s.ring 64).held ≠ []) (hheld : (s.ring 64).held.length < 256) :
    s.event code sect data = s.setRing 64 { s.ring 64 with
      seq := (s.ring 64).seq + 1, held := (s.ring 64).held ++ [(eventRecord code sect 0 (s.ring 64).seq s.tstamp data, false)] } := by
  have hfull' : (s.ring 64).free < 1 ∨ (s.ring 64).held ≠ [] := hfull.imp_left (by omega)
  rw [event_of_on hon, ringPost_of_full (by simpa using hon) (by simpa [eventRecord_length, entryBytes] using hfull') (by simpa using hheld),
    State.ring_setRing_same, State.setRing_numbered]

theorem event_of_lost (hon : s.ringOn 64 = true) (hheld : 256 ≤ (s.ring 64).held.length) :
    s.event code sect data = s.setRing 64 { s.ring 64 with seq := (s.ring 64).seq + 1, lost := (s.ring 64).lost + 1 } := by
  rw [event_of_on hon, ringPost_of_lost (by simpa using hon) (.inl rfl) (by simpa using hheld), State.ring_setRing_same, State.setRing_numbered]

end

/-- Settles O35: a post that finds room is one entry written, and any other changes the ring alone. -/
theorem eventRecords : Obligations.EventRecords := by
  intro s code sect data x bytes waiting tail
  exact ⟨State.event_off s code sect data, event_of_room, event_of_full, event_of_lost⟩

end Sys2Proof.Machine
end

section
/-! SUPPORT. Ring enables, doorbells and what time announces (O34). -/

namespace Sys2Proof.Machine

open Claims

/-! Posting an event leaves the boot controller alone and does not look at it. -/

/-- A state with another boot controller. -/
def State.withBoot (s : State) (b : Boot) : State := { s with boot := b }

section
variable (s : State) (b : Boot)

@[simp] theorem ring_withBoot (r : Nat) : (s.withBoot b).ring r = s.ring r := rfl
@[simp] theorem ringOn_withBoot (r : Nat) : (s.withBoot b).ringOn r = s.ringOn r := rfl
@[simp] theorem tstamp_withBoot : (s.withBoot b).tstamp = s.tstamp := rfl
@[simp] theorem setRing_withBoot (r : Nat) (x : Ring) : (s.withBoot b).setRing r x = (s.setRing r x).withBoot b := rfl

@[simp] theorem writeBack_withBoot (r i : Nat) : (s.withBoot b).writeBack r i = (s.writeBack r i).withBoot b := by
  rw [State.writeBack, State.writeBack, apply_ite (State.withBoot · b)]
  rfl

@[simp] theorem announce_withBoot (r : Nat) (once : Bool) : (s.withBoot b).announce r once = (s.announce r once).withBoot b := by
  simp only [State.announce, apply_ite (State.withBoot · b)]
  rfl

@[simp] theorem writeEntries_withBoot (r n : Nat) (bs : List Byte) : (s.withBoot b).writeEntries r n bs = (s.writeEntries r n bs).withBoot b := by
  induction n generalizing s bs with
  | zero => rfl
  | succ n ih =>
    cases bs with
    | nil => rfl
    | cons =>
      rw [State.writeEntries, State.writeEntries, ← ih]
      rfl

@[simp] theorem ringWrite_withBoot (r : Nat) (rec : List Byte) (once : Bool) : (s.withBoot b).ringWrite r rec once = (s.ringWrite r rec once).withBoot b := by
  simp only [State.ringWrite, ring_withBoot, writeEntries_withBoot, writeBack_withBoot, announce_withBoot]

@[simp] theorem ringPost_withBoot (r : Nat) (rec : List Byte) (once : Bool) : (s.withBoot b).ringPost r rec once = (s.ringPost r rec once).withBoot b := by
  simp only [State.ringPost, apply_ite (State.withBoot · b), ← ringWrite_withBoot]
  rfl

theorem event_withBoot (code sect : Nat) (data : List Byte) : (s.withBoot b).event code sect data = (s.event code sect data).withBoot b := by
  cases hon : s.ringOn 64 with
  | false => rw [State.event_off _ _ _ _ hon, State.event_off _ _ _ _ (by simpa using hon)]
  | true => simp only [event_of_on hon, event_of_on (s := s.withBoot b) hon, ring_withBoot, tstamp_withBoot, setRing_withBoot, ringPost_withBoot]

end

/-- COUNTER_COPY_BAD for the items of a list (R416). -/
def State.postCopies (s : State) (l : List Nat) : State := l.foldl (fun u i => u.event 0x0806 0xFF (leBytes 4 i)) s

theorem postCopies_withBoot (b : Boot) (l : List Nat) (s : State) : (s.withBoot b).postCopies l = (s.postCopies l).withBoot b := by
  unfold State.postCopies
  induction l generalizing s with
  | nil => rfl
  | cons i l ih => rw [List.foldl_cons, List.foldl_cons, event_withBoot, ih]

theorem postBadCopies_eq (s : State) : s.postBadCopies = (s.postCopies s.boot.badCopies).withBoot { s.boot with badCopies := [] } := by
  have hitems (i) : items [i] = leBytes 4 i := by simp [items]
  rw [← postCopies_withBoot]
  simp only [State.postBadCopies, hitems]
  rfl

theorem postBadCopies_of_none {s : State} (h : s.boot.badCopies = []) : s.postBadCopies = s := by
  have hboot : ({ s.boot with badCopies := [] } : Boot) = s.boot := by rw [← h]
  rw [postBadCopies_eq, hboot, h]
  rfl

/-! Registers and bits. -/

theorem State.reg_setReg (s : State) (a v o : Nat) : (s.setReg a v).reg o = if o = a then v % 2 ^ 32 else s.reg o := by
  have hkey : regKey o 0 = regKey a 0 ↔ o = a := by
    unfold regKey
    omega
  simp only [State.reg, State.setReg, RegFile.get_put, hkey]
  split <;> simp

theorem bitOf_eq_testBit (v i : Nat) : bitOf v i = v.testBit i := by
  rw [bitOf, Nat.testBit_eq_decide_div_mod_eq]
  rfl

/-! The enable of a ring (R339). -/

theorem freshPipe_frame (s : State) (r : Nat) : ∃ pipes, s.freshPipe r = { s with pipes := pipes } := by
  unfold State.freshPipe
  dsimp only
  split
  · exact ⟨_, rfl⟩
  · split
    · exact ⟨_, rfl⟩
    · split
      · exact ⟨_, rfl⟩
      · exact ⟨_, rfl⟩

section
variable (s : State) (r : Nat)

@[simp] theorem ringOn_freshPipe (j : Nat) : (s.freshPipe r).ringOn j = s.ringOn j := by
  obtain ⟨pipes, hp⟩ := freshPipe_frame s r
  rw [hp]
  rfl

@[simp] theorem ring_freshPipe (j : Nat) : (s.freshPipe r).ring j = s.ring j := by
  obtain ⟨pipes, hp⟩ := freshPipe_frame s r
  rw [hp]
  rfl

@[simp] theorem posted_freshPipe : (s.freshPipe r).posted = s.posted := by
  obtain ⟨pipes, hp⟩ := freshPipe_frame s r
  rw [hp]

@[simp] theorem boot_freshPipe : (s.freshPipe r).boot = s.boot := by
  obtain ⟨pipes, hp⟩ := freshPipe_frame s r
  rw [hp]

end

/-- What RING_CTL holds of a value with EN = 1 and ERR = 0. -/
def enabledCtl (v : Nat) : Nat := v &&& 0xFFFF03FC ||| 1

/-- A ring that has started afresh, its register and its pipeline with it. -/
def State.ringStarted (s : State) (r v : Nat) : State := ((s.setReg (oRing r + 0xC) (enabledCtl v)).setRing r (s.freshRing r)).freshPipe r

theorem ringOn_setReg_enabledCtl (s : State) (r v : Nat) : (s.setReg (oRing r + 0xC) (enabledCtl v)).ringOn r = true := by
  have hmask : Nat.testBit 0xFFFF03FC 1 = false := by decide
  have hone : Nat.testBit 1 1 = false := by decide
  simp only [State.ringOn, State.ringCtl, State.reg_setReg, if_true, bitOf_eq_testBit, enabledCtl, Nat.testBit_mod_two_pow, Nat.testBit_or, Nat.testBit_and, hmask, hone]
  simp

section
variable {s : State} {r v : Nat}

theorem freshRing_setReg_ctl (c : Nat) : (s.setReg (oRing r + 0xC) c).freshRing r = s.freshRing r := by
  simp [State.freshRing, State.pair, State.reg_setReg]

/-- What a start leaves: the ring on and afresh, every other ring, what was sent and the boot controller as before. -/
theorem ringStarted_spec : (s.ringStarted r v).ringOn r = true ∧ (s.ringStarted r v).ring r = s.freshRing r ∧
    (∀ j, j ≠ r → (s.ringStarted r v).ring j = s.ring j) ∧ (s.ringStarted r v).posted = s.posted ∧ (s.ringStarted r v).boot = s.boot := by
  unfold State.ringStarted
  refine ⟨?_, ?_, fun j hj => ?_, ?_, ?_⟩
  · rw [ringOn_freshPipe, State.ringOn_setRing, ringOn_setReg_enabledCtl]
  · rw [ring_freshPipe, State.ring_setRing_same]
  · rw [ring_freshPipe, State.ring_setRing_other _ _ _ _ hj, State.ring_setReg]
  · rw [posted_freshPipe, State.setRing_posted, State.setReg_posted]
  · rw [boot_freshPipe, State.setRing_boot, State.setReg_boot]

/-- A write of RING_CTL that enables a ring starts it; the event ring then posts what boot found (R339, R416). -/
theorem writeRingCtl_of_enable (hv : v % 2 = 1) (hoff : s.ringOn r = false) (herr : bitOf (s.ringCtl r) 1 = false) (hsize : sizeOk r (s.reg (oRing r + 8)) = true) :
    s.writeRingCtl r v = if r = 64 ∧ s.ready then (s.ringStarted r v).postBadCopies else s.ringStarted r v := by
  have hen : bitOf v 0 = true := by simp [bitOf, hv]
  have hctl : v &&& 0xFFFF03FC ||| boolNat true ||| 2 * boolNat false = enabledCtl v := by simp [enabledCtl, boolNat]
  have hready : (s.ringStarted r v).ready = s.ready := by
    obtain ⟨_, _, _, _, hboot⟩ := ringStarted_spec (s := s) (r := r) (v := v)
    simp only [State.ready, hboot]
  simp only [State.writeRingCtl, hen, hsize, hoff, herr, Bool.and_self, Bool.false_and, hctl, ringOn_setReg_enabledCtl, Bool.not_false, if_true,
    freshRing_setReg_ctl]
  rw [← State.ringStarted, hready]

end

section
variable {s : State} {r : BitVec 7}

theorem execRingEnable_of_ready {v : Word} (hready : s.ready = true) (hr : r.toNat < 67) (hv : v.toNat % 2 = 1) :
    exec (.ringEnable r v) s = goes (s.writeRingCtl r.toNat v.toNat) := by
  have hen : bitOf v.toNat 0 = true := by simp [bitOf, hv]
  simp [exec, execRingEnable, hready, hr, hen]

/-! Doorbells (R340). -/

theorem execDoorbell_of_ready {w : Dword} (hready : s.ready = true) (hr : r.toNat < 67) : exec (.doorbell (BitVec.ofNat 12 (8 * r.toNat)) w) s =
    goes (if s.doorbellBad r.toNat w.toNat then s.event 0x0603 noSect (items [r.toNat, w.toNat]) else s.takeDoorbell r.toNat w.toNat) := by
  have hoff : (BitVec.ofNat 12 (8 * r.toNat)).toNat = 8 * r.toNat := by
    rw [BitVec.toNat_ofNat]
    omega
  simp [exec, execDoorbell, hready, hoff, State.doorbell, Nat.not_le.2 hr]

theorem takeDoorbell_of_empty {n v : Nat} (hn : 48 ≤ n) (hheld : (s.ring n).held = []) : s.takeDoorbell n v = s.setRing n { s.ring n with head := v } := by
  simp [State.takeDoorbell, Nat.not_lt.2 hn, hheld, State.ringDrain]

/-! What time announces (R343, R357, R358). -/

/-- A vector is sent, made pending, or neither (R335). -/
theorem msix_eq (s : State) (v : Nat) : s.msix v =
    { s with
      posted := s.posted ++ (if s.pcie.msixEnable = true ∧ s.pcie.masked v = false then [.msix v] else [])
      pcie := if s.pcie.msixEnable = true ∧ s.pcie.masked v = true then { s.pcie with msixPending := s.pcie.msixPending ||| BitVec.ofNat 64 (2 ^ v) } else s.pcie } := by
  simp only [State.msix, Pcie.sends, Pcie.raised, Bool.and_eq_true, Bool.not_eq_true']

theorem execCoalesceTimeout_of_waiting (hon : s.ringOn r.toNat = true) (hmode : s.ringCtl r.toNat / 4 % 4 = 2) (hwait : 0 < (s.ring r.toNat).unannounced) :
    exec (.coalesceTimeout r) s = goes ((s.setRing r.toNat { s.ring r.toNat with unannounced := 0 }).msix (s.ringCtl r.toNat / 16 % 64)) := by
  have hbits : bitsOf (s.ringCtl r.toNat) 3 2 = 2 := hmode
  simp only [exec, execCoalesceTimeout, hon, hbits, hwait, beq_self_eq_true, decide_true, Bool.and_self, if_true]
  rfl

theorem execRingPressure_of_full (hr : r.toNat < 48) (hon : s.ringOn r.toNat = true) (hfull : 7 * (s.ring r.toNat).size < 8 * (s.ring r.toNat).occupancy) :
    exec (.ringPressure r) s = goes (s.event 0x0601 0xFF (items [r.toNat, (s.ring r.toNat).occupancy])) := by
  simp [exec, execRingPressure, hr, hon, hfull, noSect]

theorem execEventLost_of_room (hlost : 0 < (s.ring r.toNat).lost) (hheld : (s.ring r.toNat).held = []) (hfree : 0 < (s.ring r.toNat).free) :
    exec (.eventLost r) s = goes ((s.setRing r.toNat { s.ring r.toNat with lost := 0 }).event 0x0604 0xFF (items [r.toNat, (s.ring r.toNat).lost])) := by
  simp [exec, execEventLost, hlost, hheld, hfree, noSect]

end

/-- Settles O34: an enable is `ringStarted`, a doorbell an event or a new index, an announcement one vector or one event. -/
theorem ringControl : Obligations.RingControl := by
  refine ⟨?_, ?_⟩
  · intro s r v w n x hready hn
    have hbell := execDoorbell_of_ready (w := w) hready hn
    refine ⟨fun hv hoff herr hsize hbad => ?_, fun hv hoff herr hsize h64 => ?_, fun hgood hn => ?_, fun hgood hn hheld => ?_, fun hbad => ?_⟩
    · obtain ⟨hon, hring, hother, hposted, hboot⟩ := ringStarted_spec (s := s) (r := n) (v := v.toNat)
      have hstart : (if n = 64 ∧ s.ready then (s.ringStarted n v.toNat).postBadCopies else s.ringStarted n v.toNat) = s.ringStarted n v.toNat := by
        rcases hbad with hne | hnone
        · exact if_neg fun h => hne h.1
        · rw [postBadCopies_of_none (hboot ▸ hnone), ite_self]
      refine ⟨s.ringStarted n v.toNat, ?_, hon, hring, ?_⟩
      · rw [execRingEnable_of_ready hready hn hv, writeRingCtl_of_enable hv hoff herr hsize, hstart]
      · rw [hring]
        exact ⟨rfl, rfl, rfl, rfl, rfl, hother, hposted⟩
    · obtain ⟨hon, hring, hother, hposted, hboot⟩ := ringStarted_spec (s := s) (r := n) (v := v.toNat)
      have hexec := execRingEnable_of_ready hready hn hv
      rw [writeRingCtl_of_enable hv hoff herr hsize, if_pos ⟨h64, hready⟩, postBadCopies_eq, hboot] at hexec
      exact ⟨s.ringStarted n v.toNat, h64 ▸ hon, h64 ▸ hring, h64 ▸ hother, hposted, hboot, hexec⟩
    · rw [hbell, hgood]
      exact congrArg _ (if_pos hn)
    · rw [hbell, hgood]
      exact congrArg _ (takeDoorbell_of_empty hn hheld)
    · rw [hbell, hbad]
      rfl
  · intro s r n x v masked
    refine ⟨fun hon hmode hwait => ?_, execRingPressure_of_full, execEventLost_of_room⟩
    rw [execCoalesceTimeout_of_waiting hon hmode hwait, msix_eq]
    rfl

end Sys2Proof.Machine
end

section
/-! SUPPORT. The configuration, SMBus and JTAG ports (O41). -/

namespace Sys2Proof.Machine

open Claims

/-! JTAG (R414, R483). -/

theorem tap_zero (s : State) (n : Nat) : s.tap n 0 = { s with phys := { s.phys with extest := 0, tdo := some false }, reply := .data 0 } := by
  simp [State.tap, bitOf]

theorem tap_idcode (s : State) : s.tap 32 0x10D01A4B = { s with phys := { s.phys with extest := 0, tdo := some false }, reply := .data 0x10D01A4B } := by
  have htop : bitOf 0x10D01A4B 31 = false := by decide
  simp [State.tap, htop]

theorem pinBytes_eq (pins : List Bool) : pins.map (fun b => BitVec.ofNat 8 (boolNat b)) = pins.map fun b => if b then 1 else 0 :=
  List.map_congr_left fun b _ => by cases b <;> rfl

/-! SMBus (R415, R482). -/

section
variable {s : State} {code : Nat}

theorem smbusReduced_of_large (h : 6 ≤ code) : s.smbusReduced code = none := by
  obtain ⟨k, rfl⟩ := Nat.exists_eq_add_of_le' h
  rfl

theorem smbusWord_vhu : s.smbusWord 4 = some (min s.boot.vhu 4095) := by
  simp [State.smbusWord, State.smbusReduced, State.roLow, oVhu, oGlbStatus, oGlbSeal, oTstampLo, oBootStatus, oBootCmd, oEpochLo, oLeaf, oMinver]

theorem smbusWord_hbmTemp (hl : 0x20 ≤ code) (hu : code ≤ 0x27) :
    s.smbusWord code = some (if s.ready then s.phys.hbmTemp.toList.getD (code - 0x20) 0 else 0xFFFF) := by
  have hrail : ¬ (0x10 ≤ code ∧ code ≤ 0x14) := by omega
  have hamp : ¬ (0x18 ≤ code ∧ code ≤ 0x1C) := by omega
  simp [State.smbusWord, smbusReduced_of_large (show 6 ≤ code by omega), State.smbusFull, hrail, hamp, hl, hu]

theorem smbusWord_of_unassigned (h : code = 0 ∨ 6 ≤ code ∧ code < 0x10 ∨ 0x2B ≤ code) : s.smbusWord code = none := by
  have hreduced : s.smbusReduced code = none := by
    rcases h with rfl | h | h
    · rfl
    · exact smbusReduced_of_large h.1
    · exact smbusReduced_of_large (by omega)
  have hfull : s.smbusFull code = none := by
    unfold State.smbusFull
    rw [if_neg (by omega), if_neg (by omega), if_neg (by omega), if_neg (by omega), if_neg (by omega), if_neg (by omega)]
  simp [State.smbusWord, hreduced, hfull]

end

section
variable {s : State} {addr : BitVec 7} {code : Byte} {tail : SmbusTail}

theorem execSmbus_other (h : s.phys.smbus = false ∨ addr.toNat ≠ smbusAddress) :
    exec (.smbusReadWord { addr := addr, code := code, tail := tail }) s = goes { s with reply := .notAcknowledged } := by
  rw [exec, execSmbusReadWord]
  rcases h with h | h <;> simp [h]

/-- A transfer to the port's address is answered by the word of its command code. -/
theorem execSmbus_addressed (hon : s.phys.smbus = true) (haddr : addr.toNat = smbusAddress) :
    exec (.smbusReadWord { addr := addr, code := code, tail := tail }) s =
      goes { s with reply := (s.smbusWord code.toNat).elim .notAcknowledged fun w => smbusAnswer code.toNat w tail } := by
  rw [exec, execSmbusReadWord]
  simp only [hon, haddr]
  cases s.smbusWord code.toNat <;> simp

end

/-! The configuration space and BAR4 (R335). -/

theorem unmask_of_none {s : State} (h : s.pcie.msixPending = 0) : s.unmask = s := by
  have hnone : ((List.range 64).filter fun v => bitOf s.pcie.msixPending.toNat v && s.pcie.sends v) = [] :=
    List.filter_eq_nil_iff.2 fun v _ => by simp [h, bitOf]
  rw [State.unmask, hnone]
  rfl

section
variable {s : State} {reg : BitVec 10} {o : BitVec 13} {v : Word}

theorem execConfig_register_read (hperst : s.phys.perst = false) (hpow : s.phys.powered = true) :
    exec (.configRequest false (.register reg) v) s = goes { s with reply := .data (s.configRead reg.toNat) } := by
  simp [exec, execConfigRequest, hperst, hpow]

theorem execConfig_register_write (hperst : s.phys.perst = false) (hpow : s.phys.powered = true) :
    exec (.configRequest true (.register reg) v) s = goes (s.configWrite reg.toNat v) := by
  simp [exec, execConfigRequest, hperst, hpow]

theorem execConfig_bar4_read (hperst : s.phys.perst = false) (hpow : s.phys.powered = true) :
    exec (.configRequest false (.bar4 o) v) s = goes (if s.ready then
      { s with reply := .data ((s.pcie.bar4Word (o.toNat / 8)).toNat / (if o.toNat % 8 < 4 then 1 else 2 ^ 32) % 2 ^ 32) } else s.unsupported) := by
  simp [exec, execConfigRequest, hperst, hpow]

theorem execConfig_bar4_write (hperst : s.phys.perst = false) (hpow : s.phys.powered = true) :
    exec (.configRequest true (.bar4 o) v) s = goes (if s.ready then s.bar4Write o.toNat v else s) := by
  simp [exec, execConfigRequest, hperst, hpow]

end

theorem configRead_ids (s : State) : s.configRead 0 / 65536 = 0x0D01 ∧ s.configRead 2 / 2 ^ 24 = 0x12 := by
  have hvendor := Config.pcieVendor.isLt
  constructor
  · show (Config.pcieVendor.toNat + 0x0D010000) / 65536 = _
    omega
  · show (0x12000000 + _ % 256) / 2 ^ 24 = _
    omega

theorem configWrite_other {s : State} {reg : Nat} (h : reg ≠ Config.capability .msix) (v : Word) :
    s.configWrite reg v = { s with pcie := { s.pcie with config := Sparse.set 0 s.pcie.config reg v } } :=
  if_neg fun hc => h hc.1

theorem configWrite_msix {s : State} {reg : Nat} (hreg : reg = Config.capability .msix) (hbase : 10 ≤ reg) (hpend : s.pcie.msixPending = 0) (v : Word) :
    s.configWrite reg v =
      { s with pcie := { s.pcie with config := Sparse.set 0 s.pcie.config reg v, msixEnable := v.getLsbD 31, msixMask := v.getLsbD 30 } } := by
  rw [State.configWrite]
  dsimp only
  rw [if_pos ⟨hreg, hbase⟩, bitOf_eq_testBit, bitOf_eq_testBit]
  exact unmask_of_none hpend

theorem half_word (w : Dword) (low : Bool) : w.toNat / (if low then 1 else 2 ^ 32) % 2 ^ 32 = if low then w.toNat % 2 ^ 32 else w.toNat / 2 ^ 32 := by
  have hlt := w.isLt
  cases low
  · exact Nat.mod_eq_of_lt (by simp; omega)
  · simp

/-- What an entry of the MSI-X table reads as before it is written (log 98). -/
def msixUnset (i : Nat) : Dword := if i % 2 = 1 then 0x100000000 else 0

/-- An endpoint whose MSI-X table has taken a word. -/
def Pcie.setEntry (p : Pcie) (i : Nat) (w : Dword) : Pcie := { p with msixTable := Sparse.set (msixUnset i) p.msixTable i w }

theorem bar4Word_setEntry_same (p : Pcie) {i : Nat} (w : Dword) (h : i < 128) : (p.setEntry i w).bar4Word i = w := by
  rw [Pcie.bar4Word, if_pos h]
  exact Sparse.get_set_same ..

theorem bar4Word_setEntry_other (p : Pcie) {i j : Nat} (w : Dword) (h : j ≠ i) : (p.setEntry i w).bar4Word j = p.bar4Word j := by
  unfold Pcie.bar4Word
  split
  · exact Sparse.get_set_other_default _ h
  · rfl

/-- A word of BAR4 with the half that byte offset o names replaced. -/
def bar4Merged (w : Dword) (o : Nat) (v : Word) : Dword :=
  BitVec.ofNat 64 (if o % 8 < 4 then w.toNat / 2 ^ 32 * 2 ^ 32 + v.toNat else w.toNat % 2 ^ 32 + 2 ^ 32 * v.toNat)

section
variable {s : State} {o : Nat} {v : Word}

theorem bar4Write_of_outside (h : 0x400 ≤ o) : s.bar4Write o v = s := if_pos (by omega)

theorem bar4Write_of_table (h : o < 0x400) (hpend : s.pcie.msixPending = 0) :
    s.bar4Write o v = { s with pcie := s.pcie.setEntry (o / 8) (bar4Merged (s.pcie.bar4Word (o / 8)) o v) } := by
  have hi : ¬ 128 ≤ o / 8 := by omega
  rw [State.bar4Write]
  dsimp only
  rw [if_neg hi]
  exact unmask_of_none hpend

end

theorem execPcieTrainingComplete_of_up {s : State} (width rate : Nat) (hperst : s.phys.perst = false) (hpow : s.phys.powered = true) :
    let t := { s with pcie := { s.pcie with trained := true, width := width, rate := rate } }
    exec (.pcieTrainingComplete width rate) s = goes (if width ∈ [4, 8, 16] ∧ rate ∈ [32, 64, 128] then t else t.event 0x0605 0xFF []) := by
  simp only [exec, execPcieTrainingComplete, hperst, hpow, Bool.not_true, Bool.or_self, Bool.false_eq_true, if_false, Bool.and_eq_true, List.contains_iff_mem]
  rfl

/-- Settles O41: JTAG by its data registers, SMBus by the word of each code, the configuration space register by register. -/
theorem portCommands : Obligations.PortCommands := by
  intro s addr code tail data pins cells op width rate reg o v tap lanes word mine answers
  refine ⟨congrArg goes (tap_zero s 1), congrArg goes (tap_idcode s), ?_, rfl, rfl, rfl, fun hclosed => ?_, fun hopen => ?_, execSmbus_other,
    fun hon haddr => ⟨?_, fun hl hu => ?_, fun hcode => ?_⟩, fun hperst hpow => ⟨?_, fun hreg => ?_, fun hreg hbase hpend => ?_, fun hready => ⟨?_, ?_⟩,
      fun hready => ⟨?_, fun ho => ?_, fun ho hpend => ?_⟩, execPcieTrainingComplete_of_up width rate hperst hpow⟩⟩
  · simp only [exec, execSamplePreload, pinBytes_eq]
    rfl
  · rw [exec, execInternalDebug, hclosed, tap_zero]
    rfl
  · rw [exec, execInternalDebug, hopen]
    rfl
  · rintro rfl
    have hanswer (x : SmbusTail) : answers x (smbusAnswer 4 (min s.boot.vhu 4095) x) := by
      have hexec := execSmbus_addressed (code := 4) (tail := x) hon haddr
      rwa [show (4 : Byte).toNat = 4 from rfl, smbusWord_vhu] at hexec
    exact ⟨hanswer _, hanswer _, hanswer _, hanswer _⟩
  · have hready : (if s.ready then s.phys.hbmTemp.toList.getD (code.toNat - 0x20) 0 else 0xFFFF) =
        if s.boot.phase = .ready then s.phys.hbmTemp.toList.getD (code.toNat - 0x20) 0 else 0xFFFF := by
      simp only [State.ready, beq_iff_eq]
    have hexec := execSmbus_addressed (code := code) (tail := .read false) hon haddr
    rwa [smbusWord_hbmTemp hl hu, hready] at hexec
  · have hnone : s.smbusWord code.toNat = none := smbusWord_of_unassigned (hcode.imp_left (congrArg BitVec.toNat))
    have hexec := execSmbus_addressed (code := code) (tail := tail) hon haddr
    rwa [hnone] at hexec
  · obtain ⟨hdevice, hclass⟩ := configRead_ids s
    refine ⟨_, execConfig_register_read hperst hpow, ?_, ?_⟩
    · rintro rfl
      exact hdevice
    · rintro rfl
      exact hclass
  · rw [execConfig_register_write hperst hpow, configWrite_other hreg]
  · rw [execConfig_register_write hperst hpow, configWrite_msix hreg hbase hpend]
  · rw [execConfig_bar4_write hperst hpow, hready]
    rfl
  · rw [execConfig_bar4_read hperst hpow, hready]
    rfl
  · have hhalf := half_word word (decide (o.toNat % 8 < 4))
    simp only [decide_eq_true_eq] at hhalf
    rw [execConfig_bar4_read hperst hpow, if_pos hready, hhalf]
  · rw [execConfig_bar4_write hperst hpow, if_pos hready, bar4Write_of_outside ho]
  · refine ⟨s.pcie.setEntry (o.toNat / 8) (bar4Merged word o.toNat v), ?_, rfl, hpend, rfl, rfl, bar4Word_setEntry_same s.pcie _ (by omega), fun i hi => bar4Word_setEntry_other s.pcie _ hi⟩
    rw [execConfig_bar4_write hperst hpow, if_pos hready, bar4Write_of_table ho hpend]

end Sys2Proof.Machine
end

section
/-! SUPPORT. What leaves the links, and the phases and span tables of the sections, as they stand: what a section's fault changes of them, and what a message that enters plane X changes of the links (R96, R233-R236, R384). -/

namespace Sys2Proof.Machine

/-! Reading and writing a link. -/

@[simp] theorem State.setLinkN_linkN (s : State) (n : Nat) : s.setLinkN n (s.linkN n) = s := by
  have hlinks : s.links.setIfInBounds n (s.linkN n) = s.links := by
    ext i hi
    rw [Vector.getElem_setIfInBounds]
    split
    · subst n
      simp [State.linkN, hi]
    · rfl
  unfold State.setLinkN
  rw [hlinks]

@[simp] theorem State.setLinkN_setLinkN (s : State) (n : Nat) (x y : Link) : (s.setLinkN n x).setLinkN n y = s.setLinkN n y := by
  have hlinks : (s.links.setIfInBounds n x).setIfInBounds n y = s.links.setIfInBounds n y := by
    ext i hi
    simp only [Vector.getElem_setIfInBounds]
    split <;> rfl
  simp only [State.setLinkN, hlinks]

@[simp] theorem State.linkN_setLinkN_toNat (s : State) (l : LinkId) (x : Link) : (s.setLinkN l.toNat x).linkN l.toNat = x :=
  s.linkN_setLinkN_same _ x l.isLt

/-- Of a link, in t only what waits to be sent differs from s. -/
def LinksQueue (s t : State) : Prop := ∀ j, ∃ q, t.linkN j = { s.linkN j with txq := q }

section
variable {r s t : State}

theorem LinksQueue.refl (s : State) : LinksQueue s s := fun j => ⟨(s.linkN j).txq, rfl⟩

theorem LinksQueue.trans (h : LinksQueue r s) (h' : LinksQueue s t) : LinksQueue r t := fun j => by
  obtain ⟨q, hq⟩ := h j
  obtain ⟨q', hq'⟩ := h' j
  exact ⟨q', by rw [hq', hq]⟩

theorem LinksQueue.update (h : LinksQueue r s) (e : t.links = s.links) : LinksQueue r t := fun j => by
  simpa only [State.linkN, e] using h j

theorem LinksQueue.ite {c : Prop} [Decidable c] (hs : LinksQueue r s) (ht : LinksQueue r t) : LinksQueue r (if c then s else t) := by
  split <;> assumption

theorem LinksQueue.foldl {α : Type} {f : State → α → State} {l : List α} (h : LinksQueue r s) (hf : ∀ t a, LinksQueue r t → LinksQueue r (f t a)) :
    LinksQueue r (l.foldl f s) :=
  List.foldlRecOn l f h fun t ht a _ => hf t a ht

theorem LinksQueue.posted (h : LinksQueue r s) (p : PostsOnly s t) : LinksQueue r t := by
  obtain ⟨_, _, _, rfl⟩ := p
  exact h.update rfl

theorem LinksQueue.event (h : LinksQueue r s) {c k d} : LinksQueue r (s.event c k d) := h.posted (postsOnly_event ..)
theorem LinksQueue.setSectN (h : LinksQueue r s) {n x} : LinksQueue r (s.setSectN n x) := h.update (s.setSectN_links n x)

/-- A link that takes frames to send. -/
theorem LinksQueue.setLinkN (h : LinksQueue r s) {n : Nat} {q : Vector (List Frame) 8} : LinksQueue r (s.setLinkN n { s.linkN n with txq := q }) := by
  refine h.trans fun j => ?_
  by_cases hj : j = n
  · subst j
    by_cases hn : n < 32
    · exact ⟨q, s.linkN_setLinkN_same n _ hn⟩
    · exact ⟨(s.linkN n).txq, by simp [State.linkN, State.setLinkN, hn]⟩
  · exact ⟨(s.linkN j).txq, s.linkN_setLinkN_other n j _ hj⟩

/-- In t the links stand as in s but for what waits to be sent, and every section has the phase and the span table that it has in s. -/
structure Steady (s t : State) : Prop where
  links : LinksQueue s t
  phase : ∀ j, (t.sectN j).phase = (s.sectN j).phase
  span : ∀ j, (t.sectN j).spanTable = (s.sectN j).spanTable

theorem Steady.refl (s : State) : Steady s s := ⟨.refl s, fun _ => rfl, fun _ => rfl⟩

theorem Steady.update (h : Steady r s) (hl : t.links = s.links) (hs : t.sects = s.sects) : Steady r t where
  links := h.links.update hl
  phase j := by simpa only [State.sectN, hs] using h.phase j
  span j := by simpa only [State.sectN, hs] using h.span j

theorem Steady.ite {c : Prop} [Decidable c] (hs : Steady r s) (ht : Steady r t) : Steady r (if c then s else t) := by
  split <;> assumption

theorem Steady.foldl {α : Type} {f : State → α → State} {l : List α} (h : Steady r s) (hf : ∀ t a, Steady r t → Steady r (f t a)) : Steady r (l.foldl f s) :=
  List.foldlRecOn l f h fun t ht a _ => hf t a ht

theorem Steady.posted (h : Steady r s) (p : PostsOnly s t) : Steady r t := by
  obtain ⟨_, _, _, rfl⟩ := p
  exact h.update rfl rfl

theorem sectN_setSectN_proj {α : Type} (g : Section → α) {s : State} {k : Nat} {x : Section} (h : g x = g (s.sectN k)) (j : Nat) :
    g ((s.setSectN k x).sectN j) = g (s.sectN j) := by
  by_cases hj : j = k
  · subst j
    by_cases hk : k < 16
    · rw [s.sectN_setSectN_same k x hk, h]
    · simp [State.sectN, State.setSectN, hk]
  · rw [s.sectN_setSectN_other k j x hj]

theorem Steady.setSectN (h : Steady r s) {k : Nat} {x : Section} (hp : x.phase = (s.sectN k).phase) (hs : x.spanTable = (s.sectN k).spanTable) :
    Steady r (s.setSectN k x) where
  links := h.links.setSectN
  phase j := (sectN_setSectN_proj Section.phase hp j).trans (h.phase j)
  span j := (sectN_setSectN_proj Section.spanTable hs j).trans (h.span j)

theorem Steady.complete (h : Steady r s) {k c} : Steady r (s.complete k c) := h.posted (postsOnly_complete ..)
theorem Steady.done (h : Steady r s) {k c} : Steady r (s.done k c) := by
  have hnops : Steady r (s.setSectN k { s.sectN k with nops := [] }) := h.setSectN (by rfl) (by rfl)
  exact hnops.complete.foldl fun _ _ h => h.complete

theorem Steady.abortRun (h : Steady r s) {k} : Steady r (s.abortRun k) := by
  unfold State.abortRun
  dsimp only
  split
  · exact h.done
  · exact h.done
  · exact h.done
  · exact h.done
  · exact h

theorem Steady.sealPoint (h : Steady r s) {k} : Steady r (s.sealPoint k) := by
  unfold State.sealPoint
  split
  · split
    · refine Steady.setSectN ?_ ?_ ?_
      · exact h.update rfl rfl
      · rfl
      · rfl
    · exact h
  · exact h

theorem Steady.mapTiles (h : Steady r s) {k f} : Steady r (s.mapTiles k f) := by
  obtain ⟨m, hm⟩ := (s.mapTiles_frame k f).1
  rw [hm]
  exact h.update rfl rfl

theorem Steady.sendAborts (h : Steady r s) {sp except index bseq chip code} : Steady r (s.sendAborts sp except index bseq chip code) :=
  h.foldl fun t _ ht => ⟨ht.links.setLinkN, fun j => by simpa [State.sendBarrier] using ht.phase j, fun j => by simpa [State.sendBarrier] using ht.span j⟩

end

/-! A section's fault (R96, R384). -/

section
variable {s : State} {k : Nat}

theorem faultSectFrom_of_stopped {code chip : Nat} {src : Option Nat} (h : (s.sectN k).phase = .off ∨ (s.sectN k).phase = .faulted) :
    s.faultSectFrom k code chip src = s := if_pos h

/-- A section that is neither OFF nor FAULTED is stopped, then put in FAULTED, then its span is told. -/
theorem faultSectFrom_of_running (code chip : Nat) (src : Option Nat) (h : ¬((s.sectN k).phase = .off ∨ (s.sectN k).phase = .faulted)) :
    ∃ u, Steady s u ∧ Steady (u.setSectN k { (u.sectN k).quiesce with phase := .faulted }) (s.faultSectFrom k code chip src) := by
  refine ⟨((s.sealPoint k).abortRun k).mapTiles k fun _ t => t.halt.dropStep, (Steady.refl s).sealPoint.abortRun.mapTiles, ?_⟩
  unfold State.faultSectFrom
  rw [if_neg h]
  dsimp only
  split
  · exact (Steady.refl _).sendAborts
  · exact .refl _

theorem linksQueue_faultSect (code : Nat) : LinksQueue s (s.faultSect k code) := by
  by_cases h : (s.sectN k).phase = .off ∨ (s.sectN k).phase = .faulted
  · rw [State.faultSect, faultSectFrom_of_stopped h]
    exact .refl s
  · obtain ⟨u, hsu, hut⟩ := faultSectFrom_of_running code (s.reg oChipId) none h
    exact hsu.links.setSectN.trans hut.links

theorem spanTable_faultSect (code j : Nat) : ((s.faultSect k code).sectN j).spanTable = (s.sectN j).spanTable := by
  by_cases h : (s.sectN k).phase = .off ∨ (s.sectN k).phase = .faulted
  · rw [State.faultSect, faultSectFrom_of_stopped h]
  · obtain ⟨u, hsu, hut⟩ := faultSectFrom_of_running code (s.reg oChipId) none h
    have hkept : (({ (u.sectN k).quiesce with phase := .faulted } : Section)).spanTable = (u.sectN k).spanTable := rfl
    rw [State.faultSect, hut.span j, sectN_setSectN_proj Section.spanTable hkept j, hsu.span j]

theorem phase_faultSect (code : Nat) (hk : k < 16) (j : Nat) :
    ((s.faultSect k code).sectN j).phase = if j = k ∧ (s.sectN k).phase ≠ .off then .faulted else (s.sectN j).phase := by
  by_cases h : (s.sectN k).phase = .off ∨ (s.sectN k).phase = .faulted
  · rw [State.faultSect, faultSectFrom_of_stopped h]
    split
    · rename_i hj
      rw [hj.1, h.resolve_left hj.2]
    · rfl
  · obtain ⟨u, hsu, hut⟩ := faultSectFrom_of_running code (s.reg oChipId) none h
    rw [State.faultSect, hut.phase j]
    by_cases hj : j = k
    · subst j
      rw [u.sectN_setSectN_same k _ hk, if_pos ⟨rfl, fun e => h (.inl e)⟩]
    · rw [u.sectN_setSectN_other k j _ hj, hsu.phase j, if_neg fun e => hj e.1]

end

/-! A message that enters plane X (R233-R242). -/

section
variable {r s : State}

theorem LinksQueue.faultSect (h : LinksQueue r s) {k code} : LinksQueue r (s.faultSect k code) := h.trans (linksQueue_faultSect code)
theorem LinksQueue.officeDead (h : LinksQueue r s) {reason office m} : LinksQueue r (s.officeDead reason office m) :=
  (h.posted (postsOnly_deadLetter ..)).update (State.count_links ..)
theorem LinksQueue.routeFault (h : LinksQueue r s) {office m} : LinksQueue r (s.routeFault office m) := h.officeDead.event.faultSect
theorem LinksQueue.nodeMismatch (h : LinksQueue r s) {office m} : LinksQueue r (s.nodeMismatch office m) := h.officeDead.event.faultSect
theorem LinksQueue.eject (h : LinksQueue r s) {office ltn m} : LinksQueue r (s.eject office ltn m) := h.officeDead.ite (h.update rfl)
theorem LinksQueue.nodeInput (h : LinksQueue r s) {office right m} : LinksQueue r (s.nodeInput office right m) := h.nodeMismatch.ite (h.update rfl)

theorem Link.foldl_enqueue (lvc : Nat) (fs : List Frame) (x : Link) : ∃ q, fs.foldl (fun k f => k.enqueue lvc f) x = { x with txq := q } :=
  List.foldlRecOn (motive := fun y : Link => ∃ q, y = { x with txq := q }) fs (fun k f => Link.enqueue k lvc f) ⟨x.txq, rfl⟩ <| by
    rintro _ ⟨q, rfl⟩ f _
    exact ⟨_, rfl⟩

theorem LinksQueue.linkSend (h : LinksQueue r s) {l lvc m} : LinksQueue r (s.linkSend l lvc m) := by
  unfold State.linkSend
  dsimp only
  split
  · exact h.setSectN
  · obtain ⟨q, hq⟩ := Link.foldl_enqueue lvc (messFrames lvc m) ((s.setSectN m.sect { s.sectN m.sect with
      linkUse := addLinkUse (s.sectN m.sect).linkUse l 0 (m.length / 64) 0 (((messFrames lvc m).map frameDigest).foldl (· + ·) 0) }).linkN l)
    rw [hq]
    exact h.setSectN.setLinkN

theorem LinksQueue.walkRoute (h : LinksQueue r s) {m office} : LinksQueue r (s.walkRoute m office) := by
  unfold State.walkRoute
  split
  · exact h.eject.ite h.routeFault
  · exact h.nodeInput
  · exact h.linkSend
  · exact h.routeFault
  · exact h

theorem LinksQueue.circHere (h : LinksQueue r s) {m office e} : LinksQueue r (s.circHere m office e) :=
  (h.foldl fun _ _ h => h.eject).foldl fun _ _ h => by
    split
    · exact h.linkSend
    · exact h

theorem LinksQueue.walkCirc (h : LinksQueue r s) {m office} : LinksQueue r (s.walkCirc m office) := by
  unfold State.walkCirc
  dsimp only
  split
  · exact h.foldl fun _ _ h => h.circHere
  · exact h

theorem LinksQueue.launch (h : LinksQueue r s) {m office} : LinksQueue r (s.launch m office) := h.walkCirc.ite h.walkRoute

end

end Sys2Proof.Machine
end

section
/-! SUPPORT. The states of a link (O46): what a new flight leaves of the link that sends it, how a retrain begins, what the loss of a link does to the sections, and what a write of XLINK_CTL holds (R367, R370-R375, R390). -/

namespace Sys2Proof.Machine

open Claims

/-! A new flight (R367-R369). -/

theorem Link.takeFrame_frame (x : Link) (order : List Nat) : ∃ q c, (x.takeFrame order).1 = { x with txq := q, credits := c } := by
  unfold Link.takeFrame
  split
  · split
    · exact ⟨_, _, rfl⟩
    · exact ⟨x.txq, x.credits, rfl⟩
  · exact ⟨x.txq, x.credits, rfl⟩

theorem Link.takeCredit_frame (x : Link) : ∃ r v, x.takeCredit.1 = { x with toReturn := r, lastReturn := v } := by
  unfold Link.takeCredit
  split
  · exact ⟨_, _, rfl⟩
  · exact ⟨x.toReturn, x.lastReturn, rfl⟩

/-- A link that sends the flight f as its next one has taken f's frames from its queues, keeps f, and holds its blocks. -/
theorem Link.newFlight_of_room (x : Link) (order : List Nat) (h : x.replay.length < 256) : ∃ q c r v f b, f.fseq = x.fseqTx ∧ f.frames.length = 3 ∧
    x.newFlight order = { x with
      txq := q, credits := c, toReturn := r, lastReturn := v, replay := x.replay ++ [f], fseqTx := (x.fseqTx + 1) % 1024, sent := flightBlocks (Link.flightBytes b f) } := by
  obtain ⟨q₁, c₁, h₁⟩ := x.takeFrame_frame order
  obtain ⟨q₂, c₂, h₂⟩ := Link.takeFrame_frame (x.takeFrame order).1 order
  obtain ⟨q₃, c₃, h₃⟩ := Link.takeFrame_frame ((x.takeFrame order).1.takeFrame order).1 order
  obtain ⟨r, v, h₄⟩ := Link.takeCredit_frame (((x.takeFrame order).1.takeFrame order).1.takeFrame order).1
  have hlink : (((x.takeFrame order).1.takeFrame order).1.takeFrame order).1.takeCredit.1 = { x with txq := q₃, credits := c₃, toReturn := r, lastReturn := v } := by
    rw [h₄, h₃, h₂, h₁]
  unfold Link.newFlight
  rw [if_neg (by omega)]
  dsimp only
  rw [hlink]
  exact ⟨q₃, c₃, r, v, _, _, rfl, rfl, rfl⟩

theorem Link.newFlight_of_full (x : Link) (order : List Nat) (h : 256 ≤ x.replay.length) : x.newFlight order =
    { x with sent := flightBlocks (x.flightBytes { fseq := (Config.nullFlightSeq x.fseqTx).toNat, frames := [nullFrame, nullFrame, nullFrame], credit := 0 }) } := if_pos h

/-- A flight sent leaves the failed lanes and the RETRAIN bit of a link alone. -/
theorem Link.newFlight_kept (x : Link) (order : List Nat) : (x.newFlight order).badLanes = x.badLanes ∧ (x.newFlight order).retrainBit = x.retrainBit := by
  by_cases h : x.replay.length < 256
  · obtain ⟨_, _, _, _, _, _, _, _, hx⟩ := x.newFlight_of_room order h
    rw [hx]
    exact ⟨rfl, rfl⟩
  · rw [x.newFlight_of_full order (by omega)]
    exact ⟨rfl, rfl⟩

/-! A retrain begins (R370, R371). -/

section
variable {s : State} {l : Nat}

theorem startRetrain_of_active (lanes : Nat) (h : (s.linkN l).phase = .active) : ∃ z, s.startRetrain l lanes = s.setLinkN l z ∧
    z.phase = .retraining ∧ z.wantLanes = lanes ∧ z.badLanes = (s.linkN l).badLanes ∧ z.retrainBit = (s.linkN l).retrainBit := by
  obtain ⟨hbad, hbit⟩ := Link.newFlight_kept ((s.linkN l).enqueue 7 (linkStateFrame (s.reg oChipId) l lanes)) s.sendOrder
  exact ⟨_, if_pos h, rfl, rfl, hbad, hbit⟩

theorem degrade_of_auto (h : s.autoDegrade l = true) : s.degrade l = s.startRetrain l (smallerLanes (s.linkN l).lanes (s.linkN l).good) := if_pos h

theorem degrade_of_manual (h : s.autoDegrade l = false) : s.degrade l = s := if_neg (by simp [h])

end

/-- A retrain of link l that begins once l has become y: every other link stands as before. -/
theorem startRetrain_setLinkN (s : State) (l : LinkId) {y : Link} (lanes : Nat) (h : y.phase = .active) :
    ∃ t, (s.setLinkN l.toNat y).startRetrain l.toNat lanes = t ∧ (t.linkN l.toNat).phase = .retraining ∧ (t.linkN l.toNat).wantLanes = lanes ∧
      (t.linkN l.toNat).badLanes = y.badLanes ∧ (t.linkN l.toNat).retrainBit = y.retrainBit ∧ ∀ j, j ≠ l.toNat → t.linkN j = s.linkN j := by
  have hy := s.linkN_setLinkN_toNat l y
  obtain ⟨z, hz, hphase, hwant, hbad, hbit⟩ := startRetrain_of_active (s := s.setLinkN l.toNat y) (l := l.toNat) lanes (by rw [hy, h])
  rw [hy] at hbad hbit
  rw [State.setLinkN_setLinkN] at hz
  refine ⟨_, hz, ?_⟩
  rw [State.linkN_setLinkN_toNat]
  exact ⟨hphase, hwant, hbad, hbit, fun j hj => s.linkN_setLinkN_other _ j z hj⟩

/-- From four good lanes the loss of one leads to the pair without it. -/
theorem smallerLanes_of_one_lost (lane : BitVec 2) :
    smallerLanes 15 (Link.good { badLanes := 0 ||| 2 ^ lane.toNat }) = if lane.toNat < 2 then 12 else 3 := by
  revert lane
  decide

/-! The loss of a link (R372, R374). -/

/-- What the loss of link l does to section k: a snapshot shipped on the link ends, and a section whose span table uses it is FAULTED. -/
def State.loseLink (s : State) (l code k : Nat) : State :=
  let x := s.sectN k
  let lost := match x.snap with
    | some sn => sn.host.isNone && sn.shipping.isSome && sn.link == l
    | none => false
  let s := if lost then s.setSectN k { x with snap := none } else s
  if spanUsed x.spanTable l then s.faultSect k code else s

theorem linkGone_eq (s : State) (l code : Nat) : s.linkGone l code = (List.range 16).foldl (fun s k => s.loseLink l code k) s := rfl

section
variable {s : State} {l code k : Nat}

/-- The loss of a link is a fault or nothing, but for the snapshot. -/
theorem loseLink_eq : ∃ u, Steady s u ∧ s.loseLink l code k = if spanUsed (s.sectN k).spanTable l then u.faultSect k code else u := by
  unfold State.loseLink
  dsimp only
  refine ⟨_, ?_, rfl⟩
  have hended : Steady s (s.setSectN k { s.sectN k with snap := none }) := (Steady.refl s).setSectN (by rfl) (by rfl)
  exact hended.ite (.refl s)

theorem linksQueue_loseLink : LinksQueue s (s.loseLink l code k) := by
  obtain ⟨u, hu, h⟩ := loseLink_eq (s := s) (l := l) (code := code) (k := k)
  rw [h]
  exact hu.links.faultSect.ite hu.links

theorem spanTable_loseLink (j : Nat) : ((s.loseLink l code k).sectN j).spanTable = (s.sectN j).spanTable := by
  obtain ⟨u, hu, h⟩ := loseLink_eq (s := s) (l := l) (code := code) (k := k)
  rw [h]
  split
  · rw [spanTable_faultSect, hu.span]
  · exact hu.span j

theorem phase_loseLink (hk : k < 16) (j : Nat) : ((s.loseLink l code k).sectN j).phase =
    if j = k ∧ (s.sectN k).phase ≠ .off ∧ spanUsed (s.sectN k).spanTable l = true then .faulted else (s.sectN j).phase := by
  obtain ⟨u, hu, h⟩ := loseLink_eq (s := s) (l := l) (code := code) (k := k)
  rw [h]
  by_cases hused : spanUsed (s.sectN k).spanTable l = true
  · simp only [hused, if_true, and_true, phase_faultSect code hk, hu.phase]
  · rw [if_neg hused, if_neg fun e => hused e.2.2, hu.phase]

end

/-- The sections whose span table uses a lost link are FAULTED, the others go on, and of the links only what waits to be sent changes. -/
theorem linkGone_spec (s : State) (l code : Nat) : LinksQueue s (s.linkGone l code) ∧ ∀ k, k < 16 → ((s.linkGone l code).sectN k).phase =
    if (s.sectN k).phase ≠ .off ∧ spanUsed (s.sectN k).spanTable l = true then .faulted else (s.sectN k).phase := by
  have hfold : ∀ n, n ≤ 16 → let t := (List.range n).foldl (fun s k => s.loseLink l code k) s
      LinksQueue s t ∧ (∀ j, (t.sectN j).spanTable = (s.sectN j).spanTable) ∧ ∀ j, (t.sectN j).phase =
        if j < n ∧ (s.sectN j).phase ≠ .off ∧ spanUsed (s.sectN j).spanTable l = true then .faulted else (s.sectN j).phase := by
    intro n
    induction n with
    | zero => exact fun _ => ⟨.refl s, fun _ => rfl, fun _ => (if_neg (by simp)).symm⟩
    | succ n ih =>
      intro hn
      obtain ⟨hlinks, hspan, hphase⟩ := ih (by omega)
      simp only [List.range_succ, List.foldl_append, List.foldl_cons, List.foldl_nil]
      refine ⟨hlinks.trans linksQueue_loseLink, fun j => (spanTable_loseLink j).trans (hspan j), fun j => ?_⟩
      rw [phase_loseLink (by omega), hspan n, hphase n, hphase j]
      by_cases hj : j = n
      · subst j
        simp
      · have hlt : j < n + 1 ↔ j < n := by omega
        simp only [hj, false_and, if_false, hlt]
  obtain ⟨hlinks, -, hphase⟩ := hfold 16 (by omega)
  exact ⟨hlinks, fun k hk => by rw [linkGone_eq, hphase k]; simp only [hk, true_and]⟩

/-! XLINK_CTL (R374, R390). -/

/-- A field reads alike in two numbers whose bits in it are alike. -/
theorem bitsOf_congr {a b hi lo : Nat} (h : ∀ i, lo ≤ i → i ≤ hi → a.testBit i = b.testBit i) : bitsOf a hi lo = bitsOf b hi lo := by
  apply Nat.eq_of_testBit_eq
  intro i
  simp only [bitsOf, Nat.testBit_mod_two_pow, Nat.testBit_div_two_pow]
  by_cases hi' : i < hi + 1 - lo
  · rw [h (i + lo) (by omega) (by omega)]
  · simp [hi']

/-- A write keeps WIDTH_MAX as it is written, whether or not the link is IDLE. -/
theorem widthMax_linkCtlWritten (s : State) (l v : Nat) : bitsOf (s.linkCtlWritten l v % 2 ^ 32) 3 2 = v / 4 % 4 := by
  have hkept : ∀ i, i < 4 → 2 ≤ i → (0x00FFFF3C).testBit i = true ∧ (0x00FFFF1C).testBit i = true ∧ (0x20).testBit i = false := by decide
  refine bitsOf_congr (b := v) fun i hlo hhi => ?_
  obtain ⟨hidle, hopen, hreverse⟩ := hkept i (by omega) hlo
  rw [Nat.testBit_mod_two_pow, decide_eq_true (by omega), Bool.true_and]
  unfold State.linkCtlWritten
  split
  · rw [Nat.testBit_and, hidle, Bool.and_true]
  · rw [Nat.testBit_or, Nat.testBit_and, Nat.testBit_and, hopen, hreverse, Bool.and_true, Bool.and_false, Bool.or_false]

theorem widthMax_of_written (s : State) (l v : Nat) : bitsOf ((s.setReg (oXlink l) (s.linkCtlWritten l v)).linkCtl l) 3 2 = v / 4 % 4 := by
  rw [State.linkCtl, State.reg_setReg, if_pos rfl, widthMax_linkCtlWritten]

section
variable {s : State} {l v : Nat}

theorem writeXlinkCtl_of_refused (h : v % 4 = 1) (hidle : (s.linkN l).phase = .idle) (hr : s.openRefused = true) :
    s.writeXlinkCtl l v = s.setReg (oXlink l + 4) (s.reg (oXlink l + 4) ||| 0x200) := by
  have hopen : bitOf v 0 = true := by simp [bitOf]; omega
  simp [State.writeXlinkCtl, hopen, hidle, hr]

theorem writeXlinkCtl_of_open (h : v % 4 = 1) (hidle : (s.linkN l).phase = .idle) (hr : s.openRefused = false) :
    s.writeXlinkCtl l v = (s.setReg (oXlink l) (v &&& 0x00FFFF3C)).setLinkN l
      { (s.linkN l).cleared .training true with wantLanes := widestLanes (v / 4 % 4) (15 &&& (0xF ^^^ (s.linkN l).excluded)) } := by
  have hopen : bitOf v 0 = true := by simp [bitOf]; omega
  have hretrain : bitOf v 1 = false := by simp [bitOf]; omega
  have hwrite : s.writeXlinkCtl l v = (s.setReg (oXlink l) (s.linkCtlWritten l v)).openLink l := by
    simp [State.writeXlinkCtl, hopen, hretrain, hidle, hr]
  have hctl : s.linkCtlWritten l v = v &&& 0x00FFFF3C := if_pos hidle
  rw [hwrite, State.openLink, widthMax_of_written, hctl]
  simp only [State.linkN_setReg]

theorem writeXlinkCtl_of_close (h : v % 4 = 0) (hopen : (s.linkN l).isOpen = true) :
    s.writeXlinkCtl l v = (s.setReg (oXlink l) (s.linkCtlWritten l v)).closeLink l := by
  have hclose : bitOf v 0 = false := by simp [bitOf]; omega
  have hretrain : bitOf v 1 = false := by simp [bitOf]; omega
  simp [State.writeXlinkCtl, hopen, hretrain, hclose]

theorem writeXlinkCtl_of_retrain (h : v % 4 = 3) (hactive : (s.linkN l).phase = .active) :
    s.writeXlinkCtl l v = ((s.setReg (oXlink l) (s.linkCtlWritten l v)).setLinkN l { s.linkN l with retrainBit := true, badLanes := 0 }).startRetrain l
      (widestLanes (v / 4 % 4) (15 &&& (0xF ^^^ (s.linkN l).excluded))) := by
  have hopen : bitOf v 0 = true := by simp [bitOf]; omega
  have hretrain : bitOf v 1 = true := by simp [bitOf]; omega
  have hwrite : s.writeXlinkCtl l v = (s.setReg (oXlink l) (s.linkCtlWritten l v)).hostRetrain l := by
    simp [State.writeXlinkCtl, hopen, hretrain, hactive]
  rw [hwrite, State.hostRetrain, State.linkN_setReg, ← widthMax_of_written s l v]
  exact if_pos hactive

theorem openRefused_iff : s.openRefused = true ↔ s.boot.verified = false ∨ s.reg oChipId = 0xFFFF := by
  simp [State.openRefused]

end

/-! The commands (R370-R375). -/

section
variable {s : State} {l : LinkId}

theorem sectN_event (s : State) (code sect : Nat) (data : List Byte) (j : Nat) : (s.event code sect data).sectN j = s.sectN j := by
  obtain ⟨_, _, _, h⟩ := postsOnly_event s code sect data
  rw [h]
  rfl

theorem linkN_event (s : State) (code sect : Nat) (data : List Byte) (j : Nat) : (s.event code sect data).linkN j = s.linkN j := by
  obtain ⟨_, _, _, h⟩ := postsOnly_event s code sect data
  rw [h]
  rfl

@[simp] theorem autoDegrade_setLinkN (s : State) (n : Nat) (x : Link) (j : Nat) : (s.setLinkN n x).autoDegrade j = s.autoDegrade j := by
  simp only [State.autoDegrade, State.linkCtl, State.reg_setLinkN]

/-- A link that is cleared, and what its loss then does to the sections, which stand as in s. -/
theorem linkGone_of_cleared {u : State} {x : Link} {phase : LinkPhase} {isOpen : Bool} (code : Nat) (hlink : u.linkN l.toNat = x.cleared phase isOpen)
    (hsects : ∀ j, u.sectN j = s.sectN j) : ((u.linkGone l.toNat code).linkN l.toNat).phase = phase ∧ ((u.linkGone l.toNat code).linkN l.toNat).isOpen = isOpen ∧
      ((u.linkGone l.toNat code).linkN l.toNat).replay = [] ∧ ∀ k, k < 16 → ((u.linkGone l.toNat code).sectN k).phase =
        if (s.sectN k).phase ≠ .off ∧ spanUsed (s.sectN k).spanTable l.toNat = true then .faulted else (s.sectN k).phase := by
  obtain ⟨hlinks, hphase⟩ := linkGone_spec u l.toNat code
  obtain ⟨q, hq⟩ := hlinks l.toNat
  rw [hq, hlink]
  exact ⟨rfl, rfl, rfl, fun k hk => by rw [hphase k hk, hsects k]⟩

theorem execLinkDown_of_retraining (h : (s.linkN l.toNat).phase = .retraining) : exec (.linkDown l) s = goes
    (((s.setLinkN l.toNat ((s.linkN l.toNat).cleared .failed (s.linkN l.toNat).isOpen)).event 0x0703 noSect (items [l.toNat])).linkGone l.toNat 0x0703) :=
  congrArg goes (if_pos h)

theorem execLaneLoss_of_active {lane : BitVec 2} (h : (s.linkN l.toNat).phase = .active) (hlane : (s.linkN l.toNat).lanes / 2 ^ lane.toNat % 2 = 1) :
    exec (.laneLoss l lane) s = goes (
      let y := { s.linkN l.toNat with badLanes := (s.linkN l.toNat).badLanes ||| 2 ^ lane.toNat }
      (s.setLinkN l.toNat y).startRetrain l.toNat (if s.autoDegrade l.toNat then smallerLanes y.lanes y.good else y.lanes)) := by
  have hbit : bitOf (s.linkN l.toNat).lanes lane.toNat = true := by simp [bitOf, hlane]
  refine (congrArg goes (if_pos ⟨h, hbit⟩)).trans ?_
  cases hauto : s.autoDegrade l.toNat <;> simp [State.degrade, hauto]

theorem execLaneMonitor_of_below {lane : BitVec 2} {symbols : Nat} (h : symbols ≤ s.linkCtl l.toNat / 256 % 65536) : exec (.laneMonitor l lane symbols) s = goes s :=
  congrArg goes (if_neg fun e => Nat.not_lt.2 h e.2.2.1)

theorem execLaneMonitor_of_above {lane : BitVec 2} {symbols : Nat} (h : (s.linkN l.toNat).phase = .active)
    (hlane : (s.linkN l.toNat).lanes / 2 ^ lane.toNat % 2 = 1) (hsymbols : s.linkCtl l.toNat / 256 % 65536 < symbols) (hauto : s.autoDegrade l.toNat = true) :
    exec (.laneMonitor l lane symbols) s = goes (
      let y := { s.linkN l.toNat with badLanes := (s.linkN l.toNat).badLanes ||| 2 ^ lane.toNat }
      (s.setLinkN l.toNat y).startRetrain l.toNat (smallerLanes y.lanes y.good)) := by
  have hbit : bitOf (s.linkN l.toNat).lanes lane.toNat = true := by simp [bitOf, hlane]
  refine (congrArg goes (if_pos ⟨h, hbit, hsymbols, hauto⟩)).trans ?_
  rw [degrade_of_auto (by rw [autoDegrade_setLinkN, hauto]), State.linkN_setLinkN_toNat]

section
variable {v : Word} (hready : s.ready = true)
include hready

theorem execLinkOpen_of_ready (h : v.toNat % 2 = 1) : exec (.linkOpen l v) s = goes (s.writeXlinkCtl l.toNat v.toNat) := by
  simp [exec, execLinkOpen, hready, bitOf, h]

theorem execLinkClose_of_ready (h : v.toNat % 2 = 0) : exec (.linkClose l v) s = goes (s.writeXlinkCtl l.toNat v.toNat) := by
  simp [exec, execLinkClose, hready, bitOf, h]

theorem execRetrain_of_ready (h : v.toNat / 2 % 2 = 1) : exec (.retrain l v) s = goes (s.writeXlinkCtl l.toNat v.toNat) := by
  simp [exec, execRetrain, hready, bitOf, h]

end

end

/-- Settles O46: a retrain is `startRetrain` on one changed link, the loss of a link is `linkGone` on a cleared one. -/
theorem linkStates : Obligations.LinkStates := by
  intro s l peer chip lane symbols v n x stop retrains bad u greeting
  refine ⟨fun h => congrArg goes (if_pos h), fun h hwant => congrArg goes (if_pos ⟨h, hwant⟩), fun h => ?_, fun h hlane => ?_, fun hready => ?_⟩
  · obtain ⟨hphase, -, hreplay, hstop⟩ := linkGone_of_cleared (s := s) 0x0703 ((linkN_event _ _ _ _ _).trans (s.linkN_setLinkN_toNat l (x.cleared .failed x.isOpen)))
      fun j => (sectN_event _ _ _ (items [n]) j).trans (s.sectN_setLinkN n _ j)
    exact ⟨_, execLinkDown_of_retraining h, hphase, hreplay, hstop⟩
  · have hloss := execLaneLoss_of_active h hlane
    refine ⟨fun hauto => ?_, fun hauto => ?_, execLaneMonitor_of_below, fun hsymbols hauto => ?_⟩
    · obtain ⟨t, ht, hphase, hwant, -, -, hother⟩ := startRetrain_setLinkN s l (y := { x with badLanes := bad }) x.lanes h
      rw [hauto] at hloss
      exact ⟨t, hloss.trans (congrArg goes ht), hphase, hwant, hother⟩
    · obtain ⟨t, ht, hphase, hwant, hbad, -, hother⟩ :=
        startRetrain_setLinkN s l (y := { x with badLanes := bad }) (smallerLanes x.lanes ({ x with badLanes := bad } : Link).good) h
      rw [hauto] at hloss
      refine ⟨t, hloss.trans (congrArg goes ht), hbad, ⟨hphase, hwant, hother⟩, fun hfour hnone hincl => ?_⟩
      have hgood : ({ x with badLanes := bad } : Link).good = Link.good { badLanes := 0 ||| 2 ^ lane.toNat } := by
        simp only [Link.good, bad, hnone, hincl]
      rw [hwant, hgood, hfour, smallerLanes_of_one_lost]
    · obtain ⟨t, ht, hphase, hwant, -, -, hother⟩ :=
        startRetrain_setLinkN s l (y := { x with badLanes := bad }) (smallerLanes x.lanes ({ x with badLanes := bad } : Link).good) h
      exact ⟨t, (execLaneMonitor_of_above h hlane hsymbols hauto).trans (congrArg goes ht), hphase, hwant, hother⟩
  · refine ⟨fun hv hidle hver hid => ?_, fun hv hidle hr => ?_, fun hv hopen => ?_, fun hv hactive => ?_⟩
    · have haccepted : s.openRefused = false := by
        rw [← Bool.not_eq_true, openRefused_iff]
        simp [hver, hid]
      rw [execLinkOpen_of_ready hready (by omega), writeXlinkCtl_of_open hv hidle haccepted]
      rfl
    · rw [execLinkOpen_of_ready hready (by omega), writeXlinkCtl_of_refused hv hidle (openRefused_iff.2 hr)]
    · obtain ⟨hphase, hclosed, -, hstop⟩ := linkGone_of_cleared (s := s) Config.closeAbortCode.toNat
        ((s.setReg (oXlink n) (s.linkCtlWritten n v.toNat)).linkN_setLinkN_toNat l (((s.setReg (oXlink n) (s.linkCtlWritten n v.toNat)).linkN n).cleared .idle false))
        fun j => by rw [State.sectN_setLinkN, State.sectN_setReg]
      exact ⟨_, by rw [execLinkClose_of_ready hready (by omega), writeXlinkCtl_of_close hv hopen]; rfl, hphase, hclosed, hstop⟩
    · obtain ⟨t, ht, hphase, hwant, -, hbit, hother⟩ := startRetrain_setLinkN (s.setReg (oXlink n) (s.linkCtlWritten n v.toNat)) l
        (y := { x with retrainBit := true, badLanes := 0 }) (widestLanes (v.toNat / 4 % 4) (15 &&& (0xF ^^^ x.excluded))) hactive
      refine ⟨t, ?_, hbit, hphase, hwant, fun j hj => (hother j hj).trans (s.linkN_setReg _ _ j)⟩
      rw [execRetrain_of_ready hready (by omega), writeXlinkCtl_of_retrain hv hactive, ht]

end Sys2Proof.Machine
end

section
/-! SUPPORT. Flights sent and resent (O45): the bytes of a flight, and what FLIGHT_SEND and RESEND_TIMEOUT do (R361, R362, R367-R369). -/

namespace Sys2Proof.Machine

open Claims

/-! The bytes of a flight (R361, R362). -/

/-- A flight of three frames is 800 bytes, whatever data its frames hold: each is padded or cut to its slot. -/
theorem Link.flightBytes_length (x : Link) {f : Flight} (h : f.frames.length = 3) : (x.flightBytes f).length = 800 := by
  have hslots : ∀ (n : Nat) (g : Frame → List Byte), (∀ a, (g a).length = n) → (f.frames.flatMap g).length = 3 * n := by
    intro n g hg
    rw [List.length_flatMap, List.map_congr_left fun a _ => hg a, List.map_const', List.sum_replicate_nat, h]
  simp [Link.flightBytes, hslots 8 _ fun a => leBytes_length 8 a.header, hslots 256 _ fun a => padTo_length 256 a.data]

/-- HDR of each frame (R362). -/
theorem Link.fieldAt_flightBytes_header (x : Link) {f : Flight} {i : Nat} (h : i < f.frames.length) :
    fieldAt (x.flightBytes f) (8 * i) 8 = f.frames[i].header % 256 ^ 8 := by
  have hlength : ((f.frames.take i).flatMap fun g => leBytes 8 g.header).length = 8 * i := by
    rw [List.length_flatMap, List.map_congr_left fun a _ => leBytes_length 8 _, List.map_const', List.sum_replicate_nat, List.length_take]
    omega
  have hsplit : f.frames = f.frames.take i ++ f.frames[i] :: f.frames.drop (i + 1) := by
    rw [List.getElem_cons_drop, List.take_append_drop]
  have hheads : f.frames.flatMap (fun g => leBytes 8 g.header) = (f.frames.take i).flatMap (fun g => leBytes 8 g.header) ++ leBytes 8 f.frames[i].header ++
      (f.frames.drop (i + 1)).flatMap fun g => leBytes 8 g.header := by
    refine (congrArg (List.flatMap fun g => leBytes 8 g.header) hsplit).trans ?_
    rw [List.flatMap_append, List.flatMap_cons, List.append_assoc]
  unfold Link.flightBytes
  dsimp only
  rw [hheads]
  simp only [List.append_assoc]
  rw [← List.append_assoc]
  exact fieldAt_append _ _ _ _ _ hlength

/-! Sending (R367-R369). -/

@[simp] theorem linkN_linkCount (s : State) (l i n j : Nat) : (s.linkCount l i n).linkN j = s.linkN j := State.linkN_count ..
@[simp] theorem autoDegrade_linkCount (s : State) (l i n j : Nat) : (s.linkCount l i n).autoDegrade j = s.autoDegrade j := rfl

section
variable {s : State} {l : LinkId} (hactive : (s.linkN l.toNat).phase = .active)
include hactive

theorem execFlightSend_new (h : (s.linkN l.toNat).resend = 0) : exec (.flightSend l) s = goes (s.setLinkN l.toNat ((s.linkN l.toNat).newFlight s.sendOrder)) := by
  simp [exec, execFlightSend, hactive, h]

/-- With room in the replay buffer the next flight goes out, whole, and is kept. -/
theorem execFlightSend_of_room (h : (s.linkN l.toNat).resend = 0) (hroom : (s.linkN l.toNat).replay.length < 256) :
    ∃ y f, exec (.flightSend l) s = goes (s.setLinkN l.toNat y) ∧ y.phase = .active ∧ y.lanes = (s.linkN l.toNat).lanes ∧
      y.replay = (s.linkN l.toNat).replay ++ [f] ∧ f.fseq = (s.linkN l.toNat).fseqTx ∧ f.frames.length = 3 ∧ y.fseqTx = ((s.linkN l.toNat).fseqTx + 1) % 1024 ∧
      (∃ b : List Byte, y.sent = flightBlocks b ∧ b.length = 800 ∧ flightCrcOk b = true ∧ flightOf y.sent = b) ∧
      y.rxq = (s.linkN l.toNat).rxq ∧ y.fseqRx = (s.linkN l.toNat).fseqRx := by
  obtain ⟨q, c, r, v, f, b, hfseq, hthree, hnew⟩ := Link.newFlight_of_room (s.linkN l.toNat) s.sendOrder hroom
  have hlength := b.flightBytes_length hthree
  have hexec := execFlightSend_new hactive h
  rw [hnew] at hexec
  exact ⟨_, f, hexec, hactive, rfl, rfl, hfseq, hthree, rfl,
    ⟨b.flightBytes f, rfl, hlength, b.flightCrcOk_flightBytes f hthree, flightOf_flightBlocks _ hlength⟩, rfl, rfl⟩

/-- Without room a flight of NULL frames goes out and nothing is kept. -/
theorem execFlightSend_of_full (h : (s.linkN l.toNat).resend = 0) (hfull : 256 ≤ (s.linkN l.toNat).replay.length) :
    ∃ b : List Byte, exec (.flightSend l) s = goes (s.setLinkN l.toNat { s.linkN l.toNat with sent := flightBlocks b }) ∧
      b.length = 800 ∧ flightCrcOk b = true ∧ ∀ i, i < 3 → fieldAt b (8 * i) 8 = 7 := by
  have hexec := execFlightSend_new hactive h
  rw [Link.newFlight_of_full _ _ hfull] at hexec
  refine ⟨_, hexec, Link.flightBytes_length _ rfl, Link.flightCrcOk_flightBytes _ _ rfl, fun i hi => ?_⟩
  have hnull : ∀ i (h : i < 3), ([nullFrame, nullFrame, nullFrame][i]'h).header = 7 := by decide
  exact (Link.fieldAt_flightBytes_header _ hi).trans (congrArg (· % 256 ^ 8) (hnull i hi))

/-- The link as it stands after it has sent again the flight f, after which r are left. -/
def Link.resent (x : Link) (f : Flight) (r : Nat) : Link :=
  { x with resend := r, resends := x.resends + (if r + 1 = x.replay.length then 1 else 0), sent := flightBlocks (x.flightBytes f) }

theorem execFlightSend_again {r : Nat} {f : Flight} (hr : (s.linkN l.toNat).resend = r + 1)
    (hf : (s.linkN l.toNat).replay[(s.linkN l.toNat).replay.length - (r + 1)]? = some f) : exec (.flightSend l) s = goes (
      let u := (s.setLinkN l.toNat ((s.linkN l.toNat).resent f r)).linkCount l.toNat 3 1
      if r + 1 = (s.linkN l.toNat).replay.length ∧ (s.linkN l.toNat).resends = 7 then u.degrade l.toNat else u) := by
  have hfirst : boolNat (r + 1 == (s.linkN l.toNat).replay.length) = if r + 1 = (s.linkN l.toNat).replay.length then 1 else 0 := by
    simp [boolNat]
  have heighth : (r + 1 == (s.linkN l.toNat).replay.length && (s.linkN l.toNat).resends + (if r + 1 = (s.linkN l.toNat).replay.length then 1 else 0) == 8) = true ↔
      r + 1 = (s.linkN l.toNat).replay.length ∧ (s.linkN l.toNat).resends = 7 := by
    simp +contextual
  simp only [exec, execFlightSend, hactive, hr, hf, hfirst, heighth, Link.resent]
  rfl

/-- A resend that is not the eighth of the oldest flight, or where the width is not automatic, is no more than a resend; -/
theorem execFlightSend_again_only {r : Nat} {f : Flight} (hr : (s.linkN l.toNat).resend = r + 1)
    (hf : (s.linkN l.toNat).replay[(s.linkN l.toNat).replay.length - (r + 1)]? = some f)
    (h : r + 1 ≠ (s.linkN l.toNat).replay.length ∨ (s.linkN l.toNat).resends ≠ 7 ∨ s.autoDegrade l.toNat = false) :
    exec (.flightSend l) s = goes ((s.setLinkN l.toNat ((s.linkN l.toNat).resent f r)).linkCount l.toNat 3 1) := by
  rw [execFlightSend_again hactive hr hf]
  dsimp only
  split
  · rename_i heighth
    have hmanual : s.autoDegrade l.toNat = false := (h.resolve_left fun e => e heighth.1).resolve_left fun e => e heighth.2
    rw [degrade_of_manual (by rw [autoDegrade_linkCount, autoDegrade_setLinkN, hmanual])]
  · rfl

/-- else the link retrains. -/
theorem execFlightSend_eighth {r : Nat} {f : Flight} (hr : (s.linkN l.toNat).resend = r + 1)
    (hf : (s.linkN l.toNat).replay[(s.linkN l.toNat).replay.length - (r + 1)]? = some f)
    (hfirst : r + 1 = (s.linkN l.toNat).replay.length) (hseven : (s.linkN l.toNat).resends = 7) (hauto : s.autoDegrade l.toNat = true) :
    ∃ z, exec (.flightSend l) s = goes (((s.setLinkN l.toNat ((s.linkN l.toNat).resent f r)).linkCount l.toNat 3 1).setLinkN l.toNat z) ∧
      z.phase = .retraining ∧ z.wantLanes = smallerLanes (s.linkN l.toNat).lanes (s.linkN l.toNat).good := by
  have hlink : ((s.setLinkN l.toNat ((s.linkN l.toNat).resent f r)).linkCount l.toNat 3 1).linkN l.toNat = (s.linkN l.toNat).resent f r := by
    rw [linkN_linkCount, State.linkN_setLinkN_toNat]
  obtain ⟨z, hz, hphase, hwant, -, -⟩ := startRetrain_of_active (s := (s.setLinkN l.toNat ((s.linkN l.toNat).resent f r)).linkCount l.toNat 3 1) (l := l.toNat)
    (smallerLanes (s.linkN l.toNat).lanes (s.linkN l.toNat).good) (by rw [hlink]; exact hactive)
  refine ⟨z, ?_, hphase, hwant⟩
  rw [execFlightSend_again hactive hr hf, ← hz]
  dsimp only
  rw [if_pos ⟨hfirst, hseven⟩, degrade_of_auto (by rw [autoDegrade_linkCount, autoDegrade_setLinkN, hauto]), hlink]
  rfl

theorem execResendTimeout_of_nak (hnak : (s.linkN l.toNat).nakSeen = true) (hne : (s.linkN l.toNat).replay ≠ []) :
    exec (.resendTimeout l) s = goes (s.setLinkN l.toNat (s.linkN l.toNat).beginResend) :=
  congrArg goes (if_pos ⟨hactive, hnak, by simpa using hne⟩)

omit hactive in
theorem execResendTimeout_of_quiet (h : (s.linkN l.toNat).nakSeen = false ∨ (s.linkN l.toNat).replay = []) : exec (.resendTimeout l) s = goes s :=
  congrArg goes (if_neg fun e => by rcases h with h | h <;> simp [h] at e)

end

end Sys2Proof.Machine
end

section
/-! SUPPORT. Flights received (O45): which are accepted, and what CREDIT, ACK and NAK change (R363, R368). -/

namespace Sys2Proof.Machine

open Claims

section
variable (x : Link)

theorem Link.accepts_iff (b : List Byte) (u : Nat) : x.accepts b u = true ↔ u = 0 ∧ flightCrcOk b = true ∧ fieldAt b 24 3 % 1024 = x.fseqRx := by
  have hfseq : bitsOf (flSeq b) 9 0 = fieldAt b 24 3 % 1024 := bitsOf_low ..
  simp [Link.accepts, hfseq, and_assoc]

/-- An ACK releases the flights up to the one it names, or none where it names none. -/
theorem Link.acknowledge_eq {ack : Nat} {covered rest : List Flight} (h : x.replay = covered ++ rest)
    (hc : ((∀ f ∈ x.replay, f.fseq ≠ ack) ∧ covered = []) ∨ ∃ before f, covered = before ++ [f] ∧ f.fseq = ack ∧ ∀ g ∈ before, g.fseq ≠ ack) :
    x.acknowledge ack = { x with
      replay := rest, resend := if covered = [] then x.resend else min x.resend rest.length, resends := if covered = [] then x.resends else 0 } := by
  rcases hc with ⟨hnone, rfl⟩ | ⟨before, f, rfl, hack, hbefore⟩
  · have hfind : (x.replay.findIdx? fun f => f.fseq == ack) = none := by
      simpa [List.findIdx?_eq_none_iff] using hnone
    simp only [Link.acknowledge, hfind, if_true]
    rw [List.nil_append] at h
    rw [← h]
  · have hfind : (x.replay.findIdx? fun f => f.fseq == ack) = some before.length := by
      have hskip : (before.findIdx? fun f => f.fseq == ack) = none := by simpa [List.findIdx?_eq_none_iff] using hbefore
      rw [h, List.append_assoc, List.findIdx?_append, hskip]
      simp [List.findIdx?_cons, hack]
    have hrest : x.replay.drop (before.length + 1) = rest := by
      rw [h]
      exact List.drop_left' (by simp)
    simp [Link.acknowledge, hfind, hrest]

theorem Link.takeNak_eq (nak : Bool) : x.takeNak nak =
    { x with resend := if nak = true ∧ x.nakSeen = false then x.replay.length else x.resend, nakSeen := nak } := by
  unfold Link.takeNak
  cases nak with
  | false => simp
  | true =>
    cases hseen : x.nakSeen with
    | false => simp [Link.beginResend]
    | true =>
      cases x
      cases hseen
      rfl

end

section
variable {s : State} {l : LinkId} {blocks : List (Bool × List Byte)} {corr uncorr : Nat}

theorem execFlightReceive_of_lost (hactive : (s.linkN l.toNat).phase = .active) (h : flightFound blocks = false) : exec (.flightReceive l blocks corr uncorr) s =
    goes (((s.linkCount l.toNat 0 corr).linkCount l.toNat 1 uncorr).setLinkN l.toNat { s.linkN l.toNat with nakSend := true }) := by
  simp [exec, execFlightReceive, hactive, h]

theorem execFlightReceive_of_found (hactive : (s.linkN l.toNat).phase = .active) (h : flightFound blocks = true) : exec (.flightReceive l blocks corr uncorr) s =
    goes (s.receiveFlight l.toNat (flightOf blocks) corr uncorr) := by
  simp [exec, execFlightReceive, hactive, h]

end

/-- The link counters after the arrival of a flight (R390). -/
def State.flightCounted (s : State) (n : Nat) (b : List Byte) (corr uncorr : Nat) : State :=
  ((s.linkCount n 0 corr).linkCount n 1 uncorr).linkCount n 2 (boolNat (!flightCrcOk b))

/-- The three frames of a flight are delivered in the order of their slots. -/
def State.flightDelivered (s : State) (n : Nat) (b : List Byte) : State := ((s.deliver n (flightFrame b 0)).deliver n (flightFrame b 1)).deliver n (flightFrame b 2)

section
variable {s : State} {n corr uncorr : Nat} {b : List Byte}

theorem receiveFlight_of_refused (h : (s.linkN n).accepts b uncorr = false) :
    s.receiveFlight n b corr uncorr = (s.flightCounted n b corr uncorr).setLinkN n { s.linkN n with nakSend := true } := by
  simp [State.receiveFlight, h, State.flightCounted]

theorem receiveFlight_of_accepted (h : (s.linkN n).accepts b uncorr = true) : s.receiveFlight n b corr uncorr =
    let u := ((s.flightCounted n b corr uncorr).setLinkN n { s.linkN n with fseqRx := ((s.linkN n).fseqRx + 1) % 1024, nakSend := false }).flightDelivered n b
    u.setLinkN n ((((u.linkN n).addCredit (flCredit b)).acknowledge (bitsOf (flSeq b) 19 10)).takeNak (bitOf (flSeq b) 20)) := by
  simp [State.receiveFlight, h, State.flightCounted, State.flightDelivered, List.range_succ]

end

end Sys2Proof.Machine
end

section
/-! SUPPORT. Frames delivered (O45): the receive buffers of LVC0-4, an arrival of a child, a snapshot frame (R379-R382, R386). -/

namespace Sys2Proof.Machine

open Claims

/-! The fields of a header (R365, R366). -/

theorem fhLvc_eq (h : Nat) : fhLvc h = h % 8 := bitsOf_low ..

section
variable {u : State} {n : Nat} {f : Frame}

theorem deliver_null (h : f.header = 7) : u.deliver n f = u := by
  have hlvc : fhLvc f.header = 7 := by rw [h]; rfl
  have hkind : fhKind f.header ≠ 1 := by rw [h]; decide
  simp only [State.deliver, hlvc]
  exact if_pos hkind

theorem deliver_barrier (h : f.header % 8 = 5) : u.deliver n f = u.lvc5 n f := by
  have hlvc : fhLvc f.header = 5 := (fhLvc_eq _).trans h
  simp only [State.deliver, hlvc]

theorem deliver_snapshot (h : f.header % 8 = 6) : u.deliver n f = u.lvc6 n f := by
  have hlvc : fhLvc f.header = 6 := (fhLvc_eq _).trans h
  simp only [State.deliver, hlvc]

/-- The frame f waits in the receive buffer of its LVC. -/
def State.buffered (u : State) (n : Nat) (f : Frame) : State :=
  u.setLinkN n { u.linkN n with
    rxq := (u.linkN n).rxq.setIfInBounds (f.header % 8) ((u.linkN n).rxq.toList.getD (f.header % 8) [] ++ [f]) }

theorem deliver_buffered (h : f.header % 8 < 5) : u.deliver n f = (u.buffered n f).drainLink n := by
  unfold State.deliver State.buffered
  rw [fhLvc_eq]
  split
  · omega
  · omega
  · omega
  · rfl

end

/-! Receive buffers (R379). -/

theorem drainLvc_of_empty {s : State} {l v : Nat} (h : (s.linkN l).rxq.toList.getD v [] = []) (n : Nat) : s.drainLvc l v n = s := by
  cases n with
  | zero => rfl
  | succ n => simp only [State.drainLvc, h]

theorem foldl_drainLvc_of_empty {s : State} {l : Nat} {vs : List Nat} (h : ∀ v ∈ vs, (s.linkN l).rxq.toList.getD v [] = []) :
    vs.foldl (fun s v => s.drainLvc l v ((s.linkN l).rxq.toList.getD v []).length) s = s := by
  induction vs with
  | nil => rfl
  | cons v vs ih =>
    rw [List.foldl_cons, drainLvc_of_empty (h v List.mem_cons_self)]
    exact ih fun w hw => h w (List.mem_cons_of_mem v hw)

/-- Only one LVC has frames waiting, before it is drained and after. -/
theorem drainLink_of_one {s t : State} {l v : Nat} (hv : v < 5) (hbefore : ∀ w, w < 5 → w ≠ v → (s.linkN l).rxq.toList.getD w [] = [])
    (hdrain : s.drainLvc l v ((s.linkN l).rxq.toList.getD v []).length = t) (hafter : ∀ w, w < 5 → w ≠ v → (t.linkN l).rxq.toList.getD w [] = []) :
    s.drainLink l = t := by
  obtain ⟨before, after, hrange⟩ := List.append_of_mem (List.mem_range.2 hv)
  have hnodup : (before ++ v :: after).Nodup := hrange ▸ List.nodup_range
  have hmem : ∀ w ∈ before ++ v :: after, w < 5 := fun w hw => List.mem_range.1 (hrange ▸ hw)
  have hleft : ∀ w ∈ before, w < 5 ∧ w ≠ v := fun w hw =>
    ⟨hmem w (List.mem_append_left _ hw), fun e => (List.nodup_append.1 hnodup).2.2 w hw v List.mem_cons_self e⟩
  have hright : ∀ w ∈ after, w < 5 ∧ w ≠ v := fun w hw =>
    ⟨hmem w (List.mem_append_right _ (List.mem_cons_of_mem v hw)), fun e => (List.nodup_cons.1 (List.nodup_append.1 hnodup).2.1).1 (e ▸ hw)⟩
  rw [State.drainLink, hrange, List.foldl_append, foldl_drainLvc_of_empty fun w hw => hbefore w (hleft w hw).1 (hleft w hw).2, List.foldl_cons, hdrain]
  exact foldl_drainLvc_of_empty fun w hw => hafter w (hright w hw).1 (hright w hw).2

theorem returnCredit_setLinkN (s : State) (l : LinkId) (y : Link) (v : Nat) : (s.setLinkN l.toNat y).returnCredit l.toNat v =
    s.setLinkN l.toNat { y with toReturn := y.toReturn.setIfInBounds v (y.toReturn.toList.getD v 0 + 1) } := by
  rw [State.returnCredit, State.linkN_setLinkN_toNat, State.setLinkN_setLinkN]

section
variable {s : State} {l : LinkId} {v k : Nat} {f : Frame} (hf : (s.linkN l.toNat).rxq.toList.getD v [] = [f])
include hf

/-- A frame that finds no section on its link, or one that is IDLE, FAULTED or OFF, is discarded and its credit returned. -/
theorem drainLvc_one_discarded (h : s.linkSect l.toNat = none ∨ ∃ k, s.linkSect l.toNat = some k ∧
    ((s.sectN k).phase = .idle ∨ (s.sectN k).phase = .faulted ∨ (s.sectN k).phase = .off)) :
    s.drainLvc l.toNat v 1 = (s.setLinkN l.toNat ((s.linkN l.toNat).pop v)).returnCredit l.toNat v := by
  rw [returnCredit_setLinkN]
  rcases h with hnone | ⟨k, hsome, hphase⟩
  · simp only [State.drainLvc, hf, hnone]
  · have hstops : (s.sectN k).phase = .idle ∨ (s.sectN k).phase = .faulted ∨ (s.sectN k).phase = .off ∨ s.repair.failed = true :=
      hphase.imp_right (·.imp_right .inl)
    simp only [State.drainLvc, hf, hsome, if_pos hstops]

theorem drainLvc_one_running (hk : s.linkSect l.toNat = some k) (hidle : (s.sectN k).phase ≠ .idle) (hfaulted : (s.sectN k).phase ≠ .faulted)
    (hoff : (s.sectN k).phase ≠ .off) (hchip : s.repair.failed = false) : s.drainLvc l.toNat v 1 =
      if s.inPhase (linkCluster l.toNat) then (s.setLinkN l.toNat ((s.linkN l.toNat).pop v)).frameThrough k l.toNat v f else s := by
  have hstops : ¬((s.sectN k).phase = .idle ∨ (s.sectN k).phase = .faulted ∨ (s.sectN k).phase = .off ∨ s.repair.failed = true) := by
    simp [hidle, hfaulted, hoff, hchip]
  simp only [State.drainLvc, hf, hk, if_neg hstops]

end

/-! A frame of LVC0-4 that finds the receive buffers empty (R379, R380). -/

theorem getD_setIfInBounds {α : Type} {m : Nat} (xs : Vector α m) {i : Nat} (hi : i < m) (a d : α) (j : Nat) :
    (xs.setIfInBounds i a).toList.getD j d = if j = i then a else xs.toList.getD j d := by
  by_cases hj : j = i
  · subst j
    simp [hi]
  · simp [hj, Ne.symm hj]

theorem setIfInBounds_getD {α : Type} {m : Nat} (xs : Vector α m) (i : Nat) (a d : α) (h : xs.toList.getD i d = a) : xs.setIfInBounds i a = xs := by
  ext j hj
  rw [Vector.getElem_setIfInBounds]
  split
  · subst j
    rw [← h]
    simp [hj]
  · rfl

section
variable {u : State} {l : LinkId} {f : Frame} (hv : f.header % 8 < 5)

theorem linkN_buffered (u : State) (l : LinkId) (f : Frame) : (u.buffered l.toNat f).linkN l.toNat = { u.linkN l.toNat with
    rxq := (u.linkN l.toNat).rxq.setIfInBounds (f.header % 8) ((u.linkN l.toNat).rxq.toList.getD (f.header % 8) [] ++ [f]) } := u.linkN_setLinkN_toNat l _

@[simp] theorem linkSect_setLinkN (s : State) (n : Nat) (x : Link) (j : Nat) : (s.setLinkN n x).linkSect j = s.linkSect j := rfl
@[simp] theorem inPhase_setLinkN (s : State) (n : Nat) (x : Link) (j : Nat) : (s.setLinkN n x).inPhase j = s.inPhase j := by
  simp only [State.inPhase, State.tileN_setLinkN]

section
variable (hempty : ∀ w, w < 5 → (u.linkN l.toNat).rxq.toList.getD w [] = [])
include hv hempty

theorem linkN_buffered_of_empty : (u.buffered l.toNat f).linkN l.toNat = { u.linkN l.toNat with rxq := (u.linkN l.toNat).rxq.setIfInBounds (f.header % 8) [f] } := by
  rw [linkN_buffered, hempty _ hv, List.nil_append]

theorem pop_buffered : (u.buffered l.toNat f).setLinkN l.toNat (((u.buffered l.toNat f).linkN l.toNat).pop (f.header % 8)) = u := by
  rw [linkN_buffered_of_empty hv hempty, Link.pop]
  dsimp only
  rw [getD_setIfInBounds _ (by omega), if_pos rfl, List.tail_cons, Vector.setIfInBounds_setIfInBounds, setIfInBounds_getD _ _ _ [] (hempty _ hv), State.buffered,
    State.setLinkN_setLinkN, State.setLinkN_linkN]

theorem waiting_buffered : ((u.buffered l.toNat f).linkN l.toNat).rxq.toList.getD (f.header % 8) [] = [f] := by
  rw [linkN_buffered_of_empty hv hempty, getD_setIfInBounds _ (by omega), if_pos rfl]

/-- What becomes of the frame is what its drain makes of it, where that leaves the other receive buffers empty. -/
theorem deliver_of_drained {t : State} (hdrain : (u.buffered l.toNat f).drainLvc l.toNat (f.header % 8) 1 = t)
    (hafter : ∀ w, w < 5 → w ≠ f.header % 8 → (t.linkN l.toNat).rxq.toList.getD w [] = []) : u.deliver l.toNat f = t := by
  rw [deliver_buffered hv]
  refine drainLink_of_one hv (fun w hw hne => ?_) ?_ hafter
  · rw [linkN_buffered_of_empty hv hempty, getD_setIfInBounds _ (by omega), if_neg hne, hempty w hw]
  · rw [waiting_buffered hv hempty]
    exact hdrain

theorem deliver_discarded (h : u.linkSect l.toNat = none ∨ ∃ k, u.linkSect l.toNat = some k ∧
    ((u.sectN k).phase = .idle ∨ (u.sectN k).phase = .faulted ∨ (u.sectN k).phase = .off)) : u.deliver l.toNat f = u.returnCredit l.toNat (f.header % 8) := by
  refine deliver_of_drained hv hempty ?_ fun w hw _ => ?_
  · rw [drainLvc_one_discarded (waiting_buffered hv hempty) (by simpa [State.buffered] using h), pop_buffered hv hempty]
  · rw [State.returnCredit, State.linkN_setLinkN_toNat]
    exact hempty w hw

section
variable {k : Nat} (hk : u.linkSect l.toNat = some k) (hidle : (u.sectN k).phase ≠ .idle) (hfaulted : (u.sectN k).phase ≠ .faulted)
  (hoff : (u.sectN k).phase ≠ .off) (hchip : u.repair.failed = false)
include hk hidle hfaulted hoff hchip

theorem drainLvc_buffered : (u.buffered l.toNat f).drainLvc l.toNat (f.header % 8) 1 =
    if u.inPhase (linkCluster l.toNat) then u.frameThrough k l.toNat (f.header % 8) f else u.buffered l.toNat f := by
  rw [drainLvc_one_running (k := k) (waiting_buffered hv hempty) (by simpa [State.buffered] using hk) (by simpa [State.buffered] using hidle)
    (by simpa [State.buffered] using hfaulted) (by simpa [State.buffered] using hoff) (by simpa [State.buffered] using hchip), pop_buffered hv hempty]
  simp only [State.buffered, inPhase_setLinkN]

theorem deliver_held (hphase : u.inPhase (linkCluster l.toNat) = false) : u.deliver l.toNat f =
    u.setLinkN l.toNat { u.linkN l.toNat with rxq := (u.linkN l.toNat).rxq.setIfInBounds (f.header % 8) [f] } := by
  have hbuffered := congrArg (u.setLinkN l.toNat) (linkN_buffered_of_empty (u := u) (l := l) hv hempty)
  rw [linkN_buffered] at hbuffered
  refine deliver_of_drained hv hempty ?_ fun w hw hne => ?_
  · rw [drainLvc_buffered hv hempty hk hidle hfaulted hoff hchip, hphase]
    exact hbuffered
  · rw [State.linkN_setLinkN_toNat, getD_setIfInBounds _ (by omega), if_neg hne, hempty w hw]

theorem deliver_through (hphase : u.inPhase (linkCluster l.toNat) = true)
    (hafter : ∀ w, w < 5 → ((u.frameThrough k l.toNat (f.header % 8) f).linkN l.toNat).rxq.toList.getD w [] = []) :
    u.deliver l.toNat f = u.frameThrough k l.toNat (f.header % 8) f := by
  refine deliver_of_drained hv hempty ?_ fun w hw _ => hafter w hw
  rw [drainLvc_buffered hv hempty hk hidle hfaulted hoff hchip, hphase]
  rfl

end

end

end

/-! A whole message within one frame (R365, R380, R454). -/

/-- The section's account of what its links carry counts the frame f. -/
def State.frameCounted (s : State) (k l : Nat) (f : Frame) : State :=
  s.setSectN k { s.sectN k with linkUse := addLinkUse (s.sectN k).linkUse l (fhNf f.header) 0 (frameDigest f) 0 }

section
variable (s : State) (k l : Nat) (f : Frame)

@[simp] theorem image_frameCounted : (s.frameCounted k l f).image k = s.image k :=
  sectN_setSectN_proj (s := s)
    (fun x => ({ x.program.getD {} with routes := x.offices.routes, circulars := x.offices.circulars, nodes := x.offices.nodes } : ProgImage)) (by rfl) k

@[simp] theorem exchange_frameCounted : ((s.frameCounted k l f).sectN k).exchange = (s.sectN k).exchange := sectN_setSectN_proj Section.exchange (by rfl) k

@[simp] theorem windowPeer_frameCounted : (s.frameCounted k l f).windowPeer k l = s.windowPeer k l := by
  have hspan : ((s.frameCounted k l f).sectN k).spanTable = (s.sectN k).spanTable := sectN_setSectN_proj Section.spanTable (by rfl) k
  simp only [State.windowPeer, hspan]
  rfl

end

section
variable {s : State} {k l : Nat} {f : Frame}

theorem captureFrame_of_off {record : Nat} (h : s.capturing k = false) : s.captureFrame k l record f = s := by
  simp [State.captureFrame, h]

/-- The first frame of a message that ends with it, let in by the windows, is the message. -/
theorem frameIn_of_whole (hrefused : (s.linkN l).refused = []) (hpartials : (s.linkN l).partials = []) (hlast : fhLast f.header = true)
    (hallowed : frameAllowed (s.image k).windows ((s.sectN k).exchange.getD 0) (s.windowPeer k l) f.header = true) : s.frameIn k l f =
      s.launch (linkMess (s.image k).windows k l f.header [(64 * fhOffset f.header, f.data.take (64 * fhNf f.header))]) (linkCluster l) := by
  have hopen : (s.linkN l).refused.contains (frameKey f.header) = false := by rw [hrefused]; rfl
  have hfirst : (((s.linkN l).partials.find? fun e => e.1 == frameKey f.header).map (·.2)).getD [] = [] := by rw [hpartials]; rfl
  have hrest : ((s.linkN l).partials.filter fun e => e.1 != frameKey f.header) = (s.linkN l).partials := by rw [hpartials]; rfl
  have hkept : s.setLinkN l { s.linkN l with partials := (s.linkN l).partials } = s := s.setLinkN_linkN l
  simp only [State.frameIn, hopen, hallowed, hfirst, hrest, hlast, hkept, Bool.not_true, Bool.false_eq_true, if_false, if_true, List.nil_append]

theorem frameThrough_of_whole (hcap : s.capturing k = false) (hrefused : (s.linkN l).refused = []) (hpartials : (s.linkN l).partials = [])
    (hlast : fhLast f.header = true) (hallowed : frameAllowed (s.image k).windows ((s.sectN k).exchange.getD 0) (s.windowPeer k l) f.header = true) (v : Nat) :
    s.frameThrough k l v f = ((s.frameCounted k l f).launch
      (linkMess (s.image k).windows k l f.header [(64 * fhOffset f.header, f.data.take (64 * fhNf f.header))]) (linkCluster l)).returnCredit l v := by
  have hlink : (s.frameCounted k l f).linkN l = s.linkN l := s.linkN_setSectN k _ l
  have hin := frameIn_of_whole (s := s.frameCounted k l f) (k := k) (by rw [hlink, hrefused]) (by rw [hlink, hpartials]) hlast (by simpa using hallowed)
  rw [image_frameCounted] at hin
  rw [← hin, ← captureFrame_of_off (s := s.frameCounted k l f) (l := l) (f := f) (record := (s.sectN k).exchange.getD 0) hcap]
  rfl

/-- A message that goes out on the chip's network leaves the receive buffers of every link alone. -/
theorem rxq_launch_frameCounted (m : Mess) (office j : Nat) : (((s.frameCounted k l f).launch m office).linkN j).rxq = (s.linkN j).rxq := by
  have hcounted : LinksQueue s (s.frameCounted k l f) := (LinksQueue.refl s).setSectN
  obtain ⟨q, hq⟩ := hcounted.launch (m := m) (office := office) j
  rw [hq]

end

/-! An arrival of a child (R381, R382), and a snapshot frame (R386). -/

section
variable {u : State} {l k : Nat} {f : Frame}

theorem lvc5_of_arrival (hkind : f.header / 8 % 4 = 0) (hk : u.linkSect l = some k) (hjoined : u.joined k = true) (hoff : (u.sectN k).phase ≠ .off)
    (hfaulted : (u.sectN k).phase ≠ .faulted) (hchild : bitOf (spanChildren (u.sectN k).spanTable) l = true) : u.lvc5 l f =
      (u.returnCredit l 5).setSectN k { u.sectN k with
        span := { (u.sectN k).span with arrived := (u.sectN k).span.arrived ++ [(l, f.header / 2 ^ 8 % 2 ^ 16, f.header / 2 ^ 24 % 2 ^ 32)] } } := by
  have hkind' : fhKind f.header = 0 := hkind
  have hsect : (u.returnCredit l 5).sectN k = u.sectN k := u.sectN_setLinkN l _ k
  have hlink : (u.returnCredit l 5).linkSect l = some k := hk
  have hspan : (u.returnCredit l 5).joined k = true := hjoined
  simp [State.lvc5, State.barrierFrame, hlink, hsect, hspan, hoff, hfaulted, hchild, hkind', bfIndex, bfBseq, bitsOf]

theorem hbm_event (s : State) (code sect : Nat) (data : List Byte) : (s.event code sect data).hbm = s.hbm := by
  obtain ⟨_, _, _, h⟩ := postsOnly_event s code sect data
  rw [h]

/-- Where the device writes a snapshot frame: SNAPRX_BASE + OFFSET × 64. -/
def State.snapAddr (u : State) (h : Nat) : Nat := 65536 * (u.reg oSnapRxBase % 2 ^ 24) + 64 * (h / 2 ^ 8 % 2 ^ 34)

theorem lvc6_hbm (hchip : u.repair.failed = false) (hdata : f.data.length = 256)
    (haccepted : u.snapRefused (u.linkN l).peerChip (64 * bitsOf f.header 41 8) (64 * (bitsOf f.header 7 6 + 1)) = false)
    (hpart : u.inPart 3 (u.snapAddr f.header) (64 * (bitsOf f.header 7 6 + 1)) = true) (hl : l < 32) :
    (u.lvc6 l f).hbm = u.hbm.writeBytes (u.snapAddr f.header) (f.data.take (64 * (bitsOf f.header 7 6 + 1))) := by
  have hfits : bitsOf f.header 7 6 < 4 := Nat.mod_lt _ (by omega)
  have hlength : (f.data.take (64 * (bitsOf f.header 7 6 + 1))).length = 64 * (bitsOf f.header 7 6 + 1) := by
    rw [List.length_take, hdata]
    omega
  have hpeer : ((u.returnCredit l 6).linkN l).peerChip = (u.linkN l).peerChip := by rw [State.returnCredit, State.linkN_setLinkN_same _ _ _ hl]
  have haccepted' : (u.returnCredit l 6).snapRefused (u.linkN l).peerChip (64 * bitsOf f.header 41 8) (64 * (bitsOf f.header 7 6 + 1)) = false := haccepted
  have hchip' : (u.returnCredit l 6).repair.failed = false := hchip
  have haddr : u.snapAddr f.header = 65536 * bitsOf ((u.returnCredit l 6).reg oSnapRxBase) 23 0 + 64 * bitsOf f.header 41 8 := by
    rw [bitsOf_low]
    rfl
  have hwrite : ∀ origin, ((u.returnCredit l 6).snapWrite (65536 * bitsOf ((u.returnCredit l 6).reg oSnapRxBase) 23 0 + 64 * bitsOf f.header 41 8) origin
      (f.data.take (64 * (bitsOf f.header 7 6 + 1)))).hbm = u.hbm.writeBytes (u.snapAddr f.header) (f.data.take (64 * (bitsOf f.header 7 6 + 1))) := by
    intro origin
    rw [← haddr]
    have hinside : (u.returnCredit l 6).inPart 3 (u.snapAddr f.header) (f.data.take (64 * (bitsOf f.header 7 6 + 1))).length = true := by
      rw [hlength]
      exact hpart
    exact congrArg State.hbm (if_pos hinside)
  unfold State.lvc6
  dsimp only
  rw [hpeer, hchip', haccepted']
  simp only [Bool.false_eq_true, if_false]
  split
  · rw [hbm_event]
    exact hwrite _
  · split
    · exact hwrite _
    · exact hwrite _

end

end Sys2Proof.Machine
end

section
/-! SUPPORT. Flights and frames put together (O45). -/

namespace Sys2Proof.Machine

open Claims

/-- What CREDIT, ACK and NAK of an accepted flight make of a link whose replay buffer is `covered` by the ACK and `rest`. -/
theorem Link.acknowledged_eq (y : Link) (c nak : Nat) {ack : Nat} {covered rest : List Flight} (h : y.replay = covered ++ rest)
    (hc : ((∀ f ∈ y.replay, f.fseq ≠ ack) ∧ covered = []) ∨ ∃ before f, covered = before ++ [f] ∧ f.fseq = ack ∧ ∀ g ∈ before, g.fseq ≠ ack) :
    ((y.addCredit c).acknowledge ack).takeNak (nak == 1) = { y with
      credits := y.credits.setIfInBounds (c % 8) (y.credits.toList.getD (c % 8) 0 + c / 8)
      replay := rest
      resend := if nak = 1 ∧ y.nakSeen = false then rest.length else if covered = [] then y.resend else min y.resend rest.length
      resends := if covered = [] then y.resends else 0
      nakSeen := decide (nak = 1) } := by
  rw [Link.acknowledge_eq (y.addCredit c) h hc, Link.takeNak_eq]
  simp only [beq_iff_eq]
  rfl

/-- Settles O45: FLIGHT_SEND sends a new flight or resends one, an accepted flight ends in `Link.acknowledged_eq`, and a frame of LVC0-4 becomes what the drain of its receive buffer makes of it. -/
theorem flights : Obligations.Flights := by
  refine ⟨?_, ?_⟩
  · intro s l blocks corr uncorr n x bytes counts counted hactive
    refine ⟨execFlightSend_of_room hactive, execFlightSend_of_full hactive,
      fun f r hr hf => ⟨execFlightSend_again_only hactive hr hf, execFlightSend_eighth hactive hr hf⟩, execResendTimeout_of_nak hactive, execResendTimeout_of_quiet,
      execFlightReceive_of_lost hactive, fun hfound => ?_⟩
    have hreceive := execFlightReceive_of_found (corr := corr) (uncorr := uncorr) hactive hfound
    refine ⟨fun hbad => ?_, fun hcodes hcrc hfseq => ?_⟩
    · have hrefused : x.accepts bytes uncorr = false := by
        rw [← Bool.not_eq_true, Link.accepts_iff]
        rintro ⟨rfl, hcrc, hfseq⟩
        simp [hcrc, hfseq] at hbad
      rw [hreceive, receiveFlight_of_refused hrefused]
      rfl
    · intro nak ack v frame u y covered rest hreplay hcovered
      have hlink := Link.acknowledged_eq y (fieldAt bytes 27 1) nak hreplay hcovered
      rw [hreceive, receiveFlight_of_accepted ((Link.accepts_iff x bytes uncorr).2 ⟨hcodes, hcrc, hfseq⟩)]
      exact congrArg (fun z => goes (u.setLinkN n z)) hlink
  · intro u l f n x v credited
    refine ⟨deliver_null, fun hv hempty => ⟨fun hnone => deliver_discarded hv hempty (.inl hnone), fun k hk => ?_⟩,
      fun hv hkind k hk hjoined hoff hfaulted hchild => ?_, fun hv hdata hchip => ?_⟩
    · intro phase
      refine ⟨fun hphase => deliver_discarded hv hempty (.inr ⟨k, hk, hphase⟩), fun hidle hfaulted hoff hchip =>
        ⟨deliver_held hv hempty hk hidle hfaulted hoff hchip, fun hin hcap hrefused hpartials hlast hallowed => ?_⟩⟩
      have hwhole := frameThrough_of_whole hcap hrefused hpartials hlast hallowed v
      refine (deliver_through hv hempty hk hidle hfaulted hoff hchip hin fun w hw => ?_).trans hwhole
      rw [hwhole, State.returnCredit, State.linkN_setLinkN_toNat]
      dsimp only
      rw [rxq_launch_frameCounted]
      exact hempty w hw
    · rw [deliver_barrier hv]
      exact lvc5_of_arrival hkind hk hjoined hoff hfaulted hchild
    · intro at_ len haccepted hpart
      have hhbm : (u.deliver n f).hbm = u.hbm.writeBytes at_ (f.data.take len) := by
        rw [deliver_snapshot hv]
        exact lvc6_hbm hchip hdata haccepted hpart l.isLt
      have hlength : (f.data.take len).length = len := by
        rw [List.length_take, hdata]
        omega
      refine ⟨fun i hi => ?_, fun o ho => ?_⟩
      · rw [hhbm, Memory.read_writeBytes _ _ _ _ (by omega)]
        simp [hi]
      · rw [hhbm, Memory.read_writeBytes_other _ _ _ _ (by omega)]

end Sys2Proof.Machine
end

section
/-! SUPPORT. The counter store: what the write of one item makes of its two copies, and what it leaves of every other item (R407, R408). -/

namespace Sys2Proof.Machine

/-! Copies. -/

@[simp] theorem csCopy_valid (value gen : Nat) : (csCopy value gen).valid = true := by
  simp [CsCopy.valid, csCopy]

theorem targetCopy_lt (v : Vector CsCopy 36) (i : Nat) : targetCopy v i < 2 := by
  unfold targetCopy
  split <;> decide

section
variable {v : Vector CsCopy 36} {i j : Nat}

theorem storeCopy_writeItem_target (hi : i < 18) (x : Nat) :
    storeCopy (writeItem v i x) i (targetCopy v i) = csCopy x ((itemGen v i + 1) % 2 ^ 32) := by
  have ht := targetCopy_lt v i
  simp only [storeCopy, writeItem, Vector.toList_setIfInBounds]
  rw [List.getD_eq_getElem?_getD, List.getElem?_set_self (by simp; omega)]
  rfl

theorem storeCopy_writeItem_other {c : Nat} (h : 2 * j + c ≠ 2 * i + targetCopy v i) (x : Nat) :
    storeCopy (writeItem v i x) j c = storeCopy v j c := by
  simp only [storeCopy, writeItem, Vector.toList_setIfInBounds]
  rw [List.getD_eq_getElem?_getD, List.getElem?_set_ne (Ne.symm h), ← List.getD_eq_getElem?_getD]

/-! Items. -/

/-- The write of an item leaves every copy of another one alone. -/
theorem storeCopy_writeItem_item (h : j ≠ i) (x : Nat) {c : Nat} (hc : c < 2) : storeCopy (writeItem v i x) j c = storeCopy v j c := by
  have ht := targetCopy_lt v i
  exact storeCopy_writeItem_other (by omega) x

theorem currentCopy_writeItem_other (h : j ≠ i) (x : Nat) : currentCopy (writeItem v i x) j = currentCopy v j := by
  simp only [currentCopy, storeCopy_writeItem_item h x (show 0 < 2 by decide), storeCopy_writeItem_item h x (show 1 < 2 by decide)]

theorem currentCopy_isSome (v : Vector CsCopy 36) (i : Nat) :
    (currentCopy v i).isSome = true ↔ (storeCopy v i 0).valid = true ∨ (storeCopy v i 1).valid = true := by
  unfold currentCopy
  cases (storeCopy v i 0).valid <;> cases (storeCopy v i 1).valid <;> simp

theorem currentCopy_lt {c : Nat} (h : currentCopy v i = some c) : c < 2 := by
  unfold currentCopy at h
  grind

theorem valid_of_currentCopy {c : Nat} (h : currentCopy v i = some c) : (storeCopy v i c).valid = true := by
  unfold currentCopy at h
  grind

/-- A valid copy is the current one where the other is invalid or has a lower GEN. -/
theorem currentCopy_of_newest {c d : Nat} (hc : c < 2) (hd : d < 2) (hne : c ≠ d) (hvalid : (storeCopy v i c).valid = true)
    (hnewest : (storeCopy v i d).valid = true → (storeCopy v i d).gen < (storeCopy v i c).gen) : currentCopy v i = some c := by
  unfold currentCopy
  obtain ⟨rfl, rfl⟩ | ⟨rfl, rfl⟩ : c = 0 ∧ d = 1 ∨ c = 1 ∧ d = 0 := by omega
  · grind
  · grind

theorem currentCopy_ne_targetCopy {c : Nat} (h : currentCopy v i = some c) : c ≠ targetCopy v i := by
  have hc := currentCopy_lt h
  unfold targetCopy
  rw [h]
  obtain rfl | rfl : c = 0 ∨ c = 1 := by omega
  · decide
  · decide

theorem itemValue_writeItem_other (h : j ≠ i) (x : Nat) : itemValue (writeItem v i x) j = itemValue v j := by
  unfold itemValue
  rw [currentCopy_writeItem_other h x]
  split
  · rw [storeCopy_writeItem_item h x (currentCopy_lt ‹_›)]
  · rfl

theorem itemGen_writeItem_other (h : j ≠ i) (x : Nat) : itemGen (writeItem v i x) j = itemGen v j := by
  unfold itemGen
  rw [currentCopy_writeItem_other h x]
  split
  · rw [storeCopy_writeItem_item h x (currentCopy_lt ‹_›)]
  · rfl

/-- After its write an item has a valid copy; it is the one written, or the one that was current before, which the wrap of GEN leaves current. -/
theorem currentCopy_writeItem_same (hi : i < 18) (x : Nat) :
    currentCopy (writeItem v i x) i = some (targetCopy v i) ∨
    (∃ c, currentCopy v i = some c ∧ c ≠ targetCopy v i ∧ currentCopy (writeItem v i x) i = some c) ∧ ¬ itemGen v i < 2 ^ 32 - 1 := by
  have ht := targetCopy_lt v i
  have hw := storeCopy_writeItem_target (v := v) hi x
  have hother {c : Nat} (hc : c ≠ targetCopy v i) := storeCopy_writeItem_other (v := v) (i := i) (j := i) (c := c) (by omega) x
  have hvalid : (storeCopy (writeItem v i x) i (targetCopy v i)).valid = true := hw ▸ csCopy_valid _ _
  cases hcur : currentCopy v i with
  | none =>
    have htarget : targetCopy v i = 0 := by simp only [targetCopy, hcur]
    have hnone : ¬ ((storeCopy v i 0).valid = true ∨ (storeCopy v i 1).valid = true) := by simp [← currentCopy_isSome, hcur]
    exact .inl (currentCopy_of_newest (d := 1) ht (by decide) (by omega) hvalid fun h => absurd (.inr (hother (c := 1) (by omega) ▸ h)) hnone)
  | some c =>
    have hc := currentCopy_lt hcur
    have hne := currentCopy_ne_targetCopy hcur
    have hgen : itemGen v i = (storeCopy v i c).gen := by simp only [itemGen, hcur]
    have hnew : (storeCopy (writeItem v i x) i (targetCopy v i)).gen = ((storeCopy v i c).gen + 1) % 2 ^ 32 := by
      rw [hw, hgen]
      rfl
    rcases Nat.lt_or_ge (storeCopy v i c).gen (((storeCopy v i c).gen + 1) % 2 ^ 32) with hlt | hge
    · refine .inl (currentCopy_of_newest ht hc hne.symm hvalid fun _ => ?_)
      rwa [hother hne, hnew]
    · refine .inr ⟨⟨c, rfl, hne, currentCopy_of_newest hc ht hne ?_ fun _ => ?_⟩, by omega⟩
      · rw [hother hne]
        exact valid_of_currentCopy hcur
      · rw [hother hne, hnew]
        omega

theorem writeItem_of_absent (hi : 18 ≤ i) (x : Nat) : writeItem v i x = v := by
  unfold writeItem
  exact Vector.setIfInBounds_eq_of_size_le (by omega)

theorem itemValue_of_current {c : Nat} (h : currentCopy v i = some c) : itemValue v i = (storeCopy v i c).value := by
  simp only [itemValue, h]

/-- After its write an item has the new value, or the one before where GEN wraps. -/
theorem itemValue_writeItem_same (hi : i < 18) (x : Nat) :
    itemValue (writeItem v i x) i = x ∨ itemValue (writeItem v i x) i = itemValue v i ∧ ¬ itemGen v i < 2 ^ 32 - 1 := by
  rcases currentCopy_writeItem_same (v := v) hi x with h | ⟨⟨c, hc, hne, h⟩, hgen⟩
  · left
    rw [itemValue_of_current h, storeCopy_writeItem_target hi]
    rfl
  · right
    rw [itemValue_of_current h, itemValue_of_current hc, storeCopy_writeItem_other (by omega)]
    exact ⟨rfl, hgen⟩

theorem itemValue_writeItem_of_gen (hi : i < 18) (hgen : itemGen v i < 2 ^ 32 - 1) (x : Nat) : itemValue (writeItem v i x) i = x :=
  (itemValue_writeItem_same hi x).resolve_right fun h => h.2 hgen

theorem currentCopy_writeItem_isSome (x : Nat) (h : (currentCopy v j).isSome = true) : (currentCopy (writeItem v i x) j).isSome = true := by
  by_cases hji : j = i
  · subst hji
    by_cases hj : j < 18
    · rcases currentCopy_writeItem_same (v := v) hj x with hw | ⟨⟨c, _, _, hw⟩, _⟩ <;> simp [hw]
    · rwa [writeItem_of_absent (by omega)]
  · rwa [currentCopy_writeItem_other hji]

end

theorem storeOk_iff (v : Vector CsCopy 36) : storeOk v ↔ ∀ i, i < 18 → (currentCopy v i).isSome = true := by
  have hitem (i : Fin 18) : (∃ c : Fin 2, (v.toList.getD (2 * i.val + c.val) { value := 0, gen := 0, crc := 0 }).valid = true) ↔
      (currentCopy v i).isSome = true := by
    rw [currentCopy_isSome, Fin.exists_fin_two]
    rfl
  unfold storeOk
  simp only [hitem]
  exact ⟨fun h i hi => h ⟨i, hi⟩, fun h i => h i i.isLt⟩

theorem storeOk_writeItem {v : Vector CsCopy 36} (h : storeOk v) (i x : Nat) : storeOk (writeItem v i x) := by
  rw [storeOk_iff] at h ⊢
  exact fun j hj => currentCopy_writeItem_isSome x (h j hj)

/-- A write that does not lower its item lowers none. -/
theorem itemValue_le_writeItem {v : Vector CsCopy 36} {i j x : Nat} (h : j = i → itemValue v j ≤ x) : itemValue v j ≤ itemValue (writeItem v i x) j := by
  by_cases hji : j = i
  · subst hji
    by_cases hj : j < 18
    · rcases itemValue_writeItem_same (v := v) hj x with hw | ⟨hw, _⟩
      · exact (h rfl).trans hw.ge
      · exact hw.ge
    · rw [writeItem_of_absent (by omega)]
  · rw [itemValue_writeItem_other hji]

end Sys2Proof.Machine
end


section
/-! SUPPORT. What every step keeps of the counter store (O58, O60), and that every command is answered (O56). A command writes the store item by item;
LEAF is written by a quote alone, one higher. -/

namespace Sys2Proof.Machine

open Claims

/-- The property of the counter store survives every write but one that lowers LEAF. -/
def Upkeep.Raised (U : Upkeep) : Prop := ∀ v i x, (i = 0 → itemValue v 0 ≤ x) → U.store v → U.store (writeItem v i x)

section
variable {U : Upkeep} {s : State}

theorem Kept.writeSequence_of_raised (h : Kept U s) (hU : U.Raised) {i v mv} (hv : i = 0 → itemValue s.store 0 ≤ v) : Kept U (s.writeSequence i v mv).1 := by
  unfold State.writeSequence
  split
  · exact h.measureVhu
  · exact ⟨h.hbm, h.pending, hU _ _ _ hv h.store⟩

theorem Kept.runCommit_of_raised (hU : U.Raised) {cs} : ∀ {s mvs mask}, Kept U s → Kept U (s.runCommit cs mvs mask).1 := by
  induction cs with
  | nil => exact fun h => h
  | cons c cs ih =>
    intro s mvs mask h
    have hw {mv} := h.writeSequence_of_raised hU (i := 2 + c.1) (v := c.2) (mv := mv) (by omega)
    simp only [State.runCommit]
    split
    · exact ih hw
    · exact hw

theorem Kept.cutStore_of_raised (h : Kept U s) (hU : U.Raised) : U.store s.cutStore := by
  unfold State.cutStore
  split
  · exact (Kept.runCommit_of_raised hU h).store
  · exact h.store

theorem Kept.bootReset_of_raised (h : Kept U s) (hU : U.Raised) {keep p} : Kept U (s.bootReset keep p) :=
  Kept.settleClocks ⟨fun _ => rfl, h.pending, h.cutStore_of_raised hU⟩

theorem Kept.writeGlbReset_of_raised (h : Kept U s) (hU : U.Raised) {v} : Kept U (s.writeGlbReset v) := (h.bootReset_of_raised hU).ite h

theorem Kept.writeEpoch_of_raised (h : Kept U s) (hU : U.Raised) {mv rechecks} : Kept U (s.writeEpoch mv rechecks) := by
  have hw := h.writeSequence_of_raised hU (i := 1) (v := (itemValue s.store 1 + 1) % 2 ^ 64) (mv := mv) (by omega)
  exact hw.enterStarting.ite (hw.bootFail.ite (hw.update rfl))

theorem Kept.finishCommit_of_raised (h : Kept U s) (hU : U.Raised) {mvs} : Kept U (s.finishCommit mvs) := by
  grind [State.finishCommit, Kept.runCommit_of_raised, Kept.event, Kept.otherFields]

/-- A quote writes LEAF one higher (R411). -/
theorem Kept.frank_of_raised (h : Kept U s) (hU : U.Raised) {nonce mv} : Kept U (s.frank nonce mv) := by
  have hw := h.writeSequence_of_raised hU (i := 0) (v := itemValue s.store 0 + 1) (mv := mv) (by omega)
  grind [State.frank, Kept.event, Kept.otherFields]

theorem Kept.attest_of_raised (h : Kept U s) (hU : U.Raised) {q mv} : Kept U (s.attest q mv) :=
  .ite (h.update (by rfl)) (.ite (h.update (by rfl)) (((h.finishCommit_of_raised hU).frank_of_raised hU).ite (h.update (by rfl))))

theorem Kept.writeLow_of_raised (h : Kept U s) (hU : U.Raised) {off r v} : Kept U (s.writeLow off r v) := by
  grind [State.writeLow, Kept.writeGlbSeal, Kept.writeGlbReset_of_raised, Kept.bootGo, Kept.startCommit, Kept.writeFields]

theorem Kept.writeReg_of_raised (h : Kept U s) (hU : U.Raised) {off r v} : Kept U (s.writeReg off r v) := by
  grind [State.writeReg, Kept.writeLow_of_raised, Kept.writeRingCtl, Kept.writeFields, Kept.writeSectSeal,
    Kept.clearBits, Kept.writeXlinkCtl, Kept.writeHigh]

theorem Kept.writeBar0_of_raised (h : Kept U s) (hU : U.Raised) {off size v} : Kept U (s.writeBar0 off size v) := by
  grind [State.writeBar0, Kept.doorbell, Kept.badAccess, Kept.writeReg_of_raised]

/-- Every command keeps what only a lower LEAF ends. `exec_goes` does not say so: it asks that U survives the write of any value to any item. -/
theorem exec_goes_of_raised (h : Kept U s) (hU : U.Raised) {c : Instr} (hc : ∀ op, c ≠ .internalDebug op) : Goes U (exec c s) := by
  cases c with
  | add | sub | andR | orR | xor | sll | srl | sra | slt | sltu | mul | mulhs | mulhu | minR | maxR | minu | maxu | addi | andi | ori | xori | slti
  | sltiu | shiSll | shiSrl | shiSra | lw | lh | lhu | lb | lbu | sw | sh | sb | jalr | beq | bne | blt | bge | bltu | bgeu | lui | jal | cmd | waits
  | qwait | sync | closingSync | trap =>
    exact .next h.seqStep
  | internalDebug op => exact absurd rfl (hc op)
  | coldReset | powerDown => exact .next ⟨fun _ => rfl, h.pending, h.cutStore_of_raised hU⟩
  | perst => exact .next ((h.update (by rfl)).bootReset_of_raised hU)
  | hotReset | flr => exact .next (h.bootReset_of_raised hU)
  | deviceReset => exact .next ((h.bootReset_of_raised hU).ite ((h.writeGlbReset_of_raised hU).ite h))
  | registerWrite => exact .next (h.settleFaulted.writeBar0_of_raised hU)
  | fetchDone => exact .next (by grind [Kept.bootFail, Kept.writeEpoch_of_raised, Kept.keepFetched, Kept.stage])
  | holdupRecheck => exact .next (by grind [Kept.writeEpoch_of_raised])
  | commitDone => exact .next (h.finishCommit_of_raised hU)
  | getQuote | getCert => exact .next (h.attest_of_raised hU)
  -- No other command writes the store.
  | commandStart => exact .execCommandStart h | commandComplete => exact .execCommandComplete h | mma => exact .execMma h | handOff => exact .execHandOff h
  | drain => exact .execDrain h | drainSp => exact .execDrainSp h | vprog => exact .execVprog h | scand => exact .execScand h | smerge => exact .execSmerge h
  | spick => exact .execSpick h | fill => exact .execFill h | copy => exact .execCopy h | tsRead => exact .execTsRead h | tsWrite => exact .execTsWrite h
  | tfill => exact .execTfill h | tcopy => exact .execTcopy h | tpwr => exact .execTpwr h | bankTransition => exact .execBankTransition h
  | hread => exact .execHread h | hwrite => exact .execHwrite h | usend => exact .execUsend h | ucount => exact .execUcount h | scrub => exact .execScrub h
  | tileFault => exact .execTileFault h | barrierRelease => exact .execBarrierRelease h | sendInject => exact .execSendInject h
  | nodeCombine => exact .execNodeCombine h | messageReceive => exact .execMessageReceive h | exchangeComplete => exact .execExchangeComplete h
  | exchangeOverrun => exact .execExchangeOverrun h | barrierTimeout => exact .execBarrierTimeout h | step => exact .execStep h | whole => exact .execWhole h
  | head => exact .execHead h | middle => exact .execMiddle h | tail => exact .execTail h | stepBoundary => exact .execStepBoundary h
  | switch => exact .execSwitch h | load => exact .execLoad h | loadDone => exact .execLoadDone h | save => exact .execSave h | saveDone => exact .execSaveDone h
  | ingest => exact .execIngest h | fence => exact .execFence h | fenceComplete => exact .execFenceComplete h | barrier => exact .execBarrier h
  | nop => exact .execNop h | doorbell => exact .execDoorbell h | coalesceTimeout => exact .execCoalesceTimeout h | ringPressure => exact .execRingPressure h
  | eventLost => exact .execEventLost h | sectionReset => exact .execSectionReset h | sectionSealRequest => exact .execSectionSealRequest h
  | deviceSealRequest => exact .execDeviceSealRequest h | deviceSealApply => exact .execDeviceSealApply h | avsReadback => exact .execAvsReadback h
  | readClear => exact .execReadClear h | ringEnable => exact .execRingEnable h | bar2Read => exact .execBar2Read h | bar2Write => exact .execBar2Write h
  | configRequest => exact .execConfigRequest h | ingestDescriptor => exact .execIngestDescriptor h | tubeletStage => exact .execTubeletStage h
  | ingestStalled => exact .execIngestStalled h | sliceIntake => exact .execSliceIntake h | rootComputeDone => exact .execRootComputeDone h
  | versionCopyDone => exact .execVersionCopyDone h | evalCopyDone => exact .execEvalCopyDone h | snapDone => exact .execSnapDone h
  | flightSend => exact .execFlightSend h | flightReceive => exact .execFlightReceive h | resendTimeout => exact .execResendTimeout h
  | laneLoss => exact .execLaneLoss h | laneMonitor => exact .execLaneMonitor h | linkUp => exact .execLinkUp h | linkDegraded => exact .execLinkDegraded h
  | linkDown => exact .execLinkDown h | linkOpen => exact .execLinkOpen h | linkClose => exact .execLinkClose h | retrain => exact .execRetrain h
  | perstDeassert => exact .execPerstDeassert h | boscReady => exact .execBoscReady h | refclkWindow => exact .execRefclkWindow h | clkLost => exact .execClkLost h
  | boscTrim => exact .execBoscTrim h | loopReady => exact .execLoopReady h | loopUnlock => exact .execLoopUnlock h | railMonitor => exact .execRailMonitor h
  | tempSample => exact .execTempSample h | hbmTempSample => exact .execHbmTempSample h | hbmEcs => exact .execHbmEcs h
  | letterboxReady => exact .execLetterboxReady h | go => exact .execGo h | startingDone => exact .execStartingDone h | commit => exact .execCommit h
  | dbgOpen => exact .execDbgOpen h | doeDiscovery => exact .execDoeDiscovery h | smbusReadWord => exact .execSmbusReadWord h | bypass => exact .execBypass h
  | idcode => exact .execIdcode h | samplePreload => exact .execSamplePreload h | extest => exact .execExtest h | extestPulse => exact .execExtestPulse h
  | extestTrain => exact .execExtestTrain h | faultFence => exact .execFaultFence h | pprGo => exact .execPprGo h | pprDone => exact .execPprDone h
  | chipFailed => exact .execChipFailed h | thermtripN => exact .execThermtripN h | pcieTrainingComplete => exact .execPcieTrainingComplete h
  | ringError => exact .execRingError h | vHuMeasure => exact .execVHuMeasure h | smbusReady => exact .execSmbusReady h | latchingRead => exact .execLatchingRead h
  -- SEAL, whose constructor bears the name of a Lean keyword.
  | _ => exact .execSeal h

/-- What a step keeps of the store is what every write keeps that does not lower LEAF. -/
theorem step_store {P : Vector CsCopy 36 → Prop} (hP : ∀ v i x, (i = 0 → itemValue v 0 ≤ x) → P v → P (writeItem v i x)) {s t : State}
    (h : P s.store) (hs : step s = goes t) : P t.store := by
  unfold step at hs
  split at hs
  · cases hs
    exact h
  · next c rest _ =>
    have hk : Kept ⟨False, rest, P⟩ { s with pending := rest } := ⟨False.elim, rfl, h⟩
    have hg : Goes ⟨False, rest, P⟩ (exec c { s with pending := rest }) := by
      by_cases hc : ∃ op, c = .internalDebug op
      · obtain ⟨op, rfl⟩ := hc
        exact (Goes.execInternalDebug hk (op := op)).resolve_right fun hr => by cases hr.2.symm.trans hs
      · exact exec_goes_of_raised hk hP (not_exists.1 hc)
    obtain ⟨u, hu, ht⟩ := hg
    cases hu.symm.trans hs
    exact ht.store

end

/-- Settles O58: the write of an item leaves a valid copy of every item. -/
theorem counterStoreStaysValid : Obligations.CounterStoreStaysValid :=
  fun _ _ => step_store (P := storeOk) fun _ _ _ _ h => storeOk_writeItem h _ _

/-- Settles O60: no write lowers LEAF. Where GEN wraps the write has no effect on the value, so the premises on the store are not needed. -/
theorem leafNeverDecreases : Obligations.LeafNeverDecreases :=
  fun s _ _ _ => step_store (P := fun v => itemValue s.store 0 ≤ itemValue v 0)
    (fun _ _ _ hx h => h.trans (itemValue_le_writeItem fun hi => hx hi.symm)) le_rfl

/-- Settles O56: `exec_goes`, with nothing asked of the next state but its queue. -/
theorem onlyInternalDebugStops : Obligations.OnlyInternalDebugStops := by
  intro s c
  have hk : Kept ⟨False, s.pending, fun _ => True⟩ s := ⟨False.elim, rfl, trivial⟩
  exact (exec_goes hk (fun _ _ _ h => h) c).imp_left fun ⟨t, ht, _⟩ => ⟨t, ht⟩

end Sys2Proof.Machine
end

section
/-! SUPPORT. Write sequences and the sequences of a commit: what they write, with which V_HU they end, and what they leave alone (R408, R410, O52). -/

namespace Sys2Proof.Machine

open Claims

section
variable {s : State}

/-! One write sequence. -/

theorem writeSequence_of_low {mv : Nat} (h : mv < 3000) (i x : Nat) : s.writeSequence i x mv = (s.measureVhu mv, false) :=
  if_pos h

theorem writeSequence_of_held {mv : Nat} (h : 3000 ≤ mv) (i x : Nat) :
    s.writeSequence i x mv = ({ s.measureVhu mv with store := writeItem s.store i x }, true) :=
  if_neg (Nat.not_lt.2 h)

/-! The sequences of a commit. -/

/-- t is s after write sequences: it differs in the store and in the measurement of V_HU. -/
def Sequences (s t : State) : Prop :=
  ∃ store vhu measured, t = { s with store := store, boot := { s.boot with vhu := vhu, vhuMeasured := measured } }

theorem Sequences.refl (s : State) : Sequences s s := ⟨s.store, s.boot.vhu, s.boot.vhuMeasured, rfl⟩

theorem Sequences.trans {t u : State} : Sequences s t → Sequences t u → Sequences s u := by
  rintro ⟨_, _, _, rfl⟩ ⟨store, vhu, measured, rfl⟩
  exact ⟨store, vhu, measured, rfl⟩

theorem sequences_writeSequence (i x mv : Nat) : Sequences s (s.writeSequence i x mv).1 := by
  rcases Nat.lt_or_ge mv 3000 with h | h
  · rw [writeSequence_of_low h]
    exact ⟨s.store, mv, true, rfl⟩
  · rw [writeSequence_of_held h]
    exact ⟨_, mv, true, rfl⟩

theorem runCommit_cons_of_low {c x mv mask : Nat} {cs : List (Nat × Nat)} {mvs : List Nat} (h : mv < 3000) :
    s.runCommit ((c, x) :: cs) (mv :: mvs) mask = (s.measureVhu mv, mask, false) := by
  simp [State.runCommit, writeSequence_of_low h]

theorem runCommit_cons_of_held {c x mv mask : Nat} {cs : List (Nat × Nat)} {mvs : List Nat} (h : 3000 ≤ mv) :
    s.runCommit ((c, x) :: cs) (mv :: mvs) mask = { s.measureVhu mv with store := writeItem s.store (2 + c) x }.runCommit cs mvs (mask + 2 ^ c) := by
  simp [State.runCommit, writeSequence_of_held h]

theorem sequences_runCommit (cs : List (Nat × Nat)) : ∀ (s : State) (mvs : List Nat) (mask : Nat), Sequences s (s.runCommit cs mvs mask).1 := by
  induction cs with
  | nil => exact fun s _ _ => .refl s
  | cons c cs ih =>
    intro s mvs mask
    simp only [State.runCommit]
    split
    · exact (sequences_writeSequence ..).trans (ih ..)
    · exact sequences_writeSequence ..

/-- The store after the writes of some counters. -/
def writeCounters (v : Vector CsCopy 36) (cs : List (Nat × Nat)) : Vector CsCopy 36 := cs.foldl (fun v e => writeItem v (2 + e.1) e.2) v

/-- Where V_HU allows the first sequences of a commit, their counters are written and the rest goes on from there. -/
theorem runCommit_append_of_held (rest : List (Nat × Nat)) (low : List Nat) (raised : List (Nat × Nat)) :
    ∀ (s : State) (mvs : List Nat) (mask : Nat), mvs.length = raised.length → (∀ mv ∈ mvs, 3000 ≤ mv) →
      ∃ t, Sequences s t ∧ t.store = writeCounters s.store raised ∧
        s.runCommit (raised ++ rest) (mvs ++ low) mask = t.runCommit rest low (raised.foldl (fun m e => m + 2 ^ e.1) mask) := by
  induction raised with
  | nil =>
    intro s mvs mask hlen _
    obtain rfl := List.length_eq_zero_iff.1 hlen
    exact ⟨s, .refl s, rfl, rfl⟩
  | cons e raised ih =>
    intro s mvs mask hlen hheld
    obtain ⟨mv, mvs, rfl⟩ := List.exists_cons_of_length_eq_add_one hlen
    have hmv : 3000 ≤ mv := hheld mv (by simp)
    obtain ⟨t, hst, hstore, hrun⟩ := ih { s.measureVhu mv with store := writeItem s.store (2 + e.1) e.2 } mvs (mask + 2 ^ e.1)
      (by simpa using hlen) fun x hx => hheld x (.tail _ hx)
    exact ⟨t, .trans ⟨_, mv, true, rfl⟩ hst, hstore, (runCommit_cons_of_held hmv).trans hrun⟩

/-- A commit of a store looks at the measured V_HU and at nothing else of the state. -/
theorem runCommit_store_congr (cs : List (Nat × Nat)) : ∀ (s t : State) (mvs : List Nat) (mask : Nat), s.store = t.store → s.boot = t.boot →
    (s.runCommit cs mvs mask).1.store = (t.runCommit cs mvs mask).1.store := by
  induction cs with
  | nil => exact fun _ _ _ _ h _ => h
  | cons c cs ih =>
    intro s t mvs mask hs hb
    simp only [State.runCommit, hb]
    rcases Nat.lt_or_ge (mvs.headD t.boot.vhu) 3000 with h | h
    · rw [writeSequence_of_low h, writeSequence_of_low h]
      exact hs
    · rw [writeSequence_of_held h, writeSequence_of_held h, if_pos rfl, if_pos rfl]
      exact ih _ _ _ _ (by rw [hs]) (by simp only [State.measureVhu, hb])

/-- A commit writes the version counters alone, items 2 to 17. -/
theorem itemValue_runCommit_other {i : Nat} (cs : List (Nat × Nat)) (hi : ∀ e ∈ cs, i ≠ 2 + e.1) : ∀ (s : State) (mvs : List Nat) (mask : Nat),
    itemValue (s.runCommit cs mvs mask).1.store i = itemValue s.store i := by
  induction cs with
  | nil => exact fun _ _ _ => rfl
  | cons c cs ih =>
    intro s mvs mask
    rw [List.forall_mem_cons] at hi
    simp only [State.runCommit]
    rcases Nat.lt_or_ge (mvs.headD s.boot.vhu) 3000 with h | h
    · rw [writeSequence_of_low h]
      rfl
    · rw [writeSequence_of_held h, if_pos rfl, ih hi.2]
      exact itemValue_writeItem_other hi.1 _

end

/-! The store after the writes of some counters. -/

theorem itemValue_writeCounters_other {i : Nat} (cs : List (Nat × Nat)) : ∀ v : Vector CsCopy 36, (∀ e ∈ cs, i ≠ 2 + e.1) →
    itemValue (writeCounters v cs) i = itemValue v i := by
  induction cs with
  | nil => exact fun _ _ => rfl
  | cons c cs ih =>
    intro v hi
    rw [List.forall_mem_cons] at hi
    exact (ih _ hi.2).trans (itemValue_writeItem_other hi.1 _)

/-- Of counters without repeats each has the value written. -/
theorem itemValue_writeCounters_mem (cs : List (Nat × Nat)) : ∀ v : Vector CsCopy 36, (cs.map (·.1)).Nodup →
    (∀ e ∈ cs, e.1 < 16 ∧ itemGen v (2 + e.1) < 2 ^ 32 - 1) → ∀ e ∈ cs, itemValue (writeCounters v cs) (2 + e.1) = e.2 := by
  induction cs with
  | nil => exact fun _ _ _ e he => absurd he (by simp)
  | cons c cs ih =>
    intro v hnodup hcs e he
    rw [List.map_cons, List.nodup_cons] at hnodup
    rw [List.forall_mem_cons] at hcs
    obtain ⟨hc, hnodup⟩ := hnodup
    obtain ⟨⟨hcount, hgen⟩, hcs⟩ := hcs
    have hne {d : Nat × Nat} (hd : d ∈ cs) : d.1 ≠ c.1 := fun heq => hc (heq ▸ List.mem_map_of_mem hd)
    rcases List.mem_cons.1 he with rfl | he
    · exact (itemValue_writeCounters_other cs _ fun d hd => by have := hne hd; omega).trans (itemValue_writeItem_of_gen (by omega) hgen _)
    · refine ih _ hnodup (fun d hd => ⟨(hcs d hd).1, ?_⟩) e he
      rw [itemGen_writeItem_other (by have := hne hd; omega)]
      exact (hcs d hd).2

/-! The end of a commit, and the commands. -/

section
variable {s : State} {cs raised rest : List (Nat × Nat)} {mvs : List Nat} {mask : Nat}

theorem finishCommit_of_none (h : s.boot.commit = none) (mvs : List Nat) : s.finishCommit mvs = s := by
  simp only [State.finishCommit, h]

/-- The state with no commit in progress. -/
def State.commitTaken (s : State) : State := { s with boot := { s.boot with commit := none } }

theorem finishCommit_of_some (h : s.boot.commit = some (cs, mask)) (mvs : List Nat) :
    s.finishCommit mvs =
      let r := s.commitTaken.runCommit cs mvs mask
      if r.2.2 then r.1.event 0x0804 0xFF (items [r.2.1]) else r.1.event 0x0801 0xFF (items [2, r.1.boot.vhu]) := by
  simp only [State.finishCommit, h]
  rfl

/-- A commit whose first sequences V_HU allows and, if there are more, not the next one. -/
theorem finishCommit_eq (hcommit : s.boot.commit = some (raised ++ rest, mask)) (hlen : mvs.length = (raised ++ rest).length)
    (hheld : ∀ mv ∈ mvs.take raised.length, 3000 ≤ mv) (hlow : rest = [] ∨ mvs.getD raised.length 0 < 3000) :
    ∃ u, Sequences s.commitTaken u ∧ u.store = writeCounters s.store raised ∧
      s.finishCommit mvs = if rest = [] then u.event 0x0804 0xFF (items [raised.foldl (fun m e => m + 2 ^ e.1) mask])
        else u.event 0x0801 0xFF (items [2, mvs.getD raised.length 0]) := by
  rw [List.length_append] at hlen
  obtain ⟨t, ht, hstore, hrun⟩ := runCommit_append_of_held rest (mvs.drop raised.length) raised s.commitTaken (mvs.take raised.length) mask
    (by simp; omega) hheld
  rw [List.take_append_drop] at hrun
  rw [finishCommit_of_some hcommit, hrun]
  cases rest with
  | nil => exact ⟨t, ht, hstore, rfl⟩
  | cons c rest =>
    have hmv := hlow.resolve_left (List.cons_ne_nil _ _)
    have hdrop : mvs.drop raised.length = mvs.getD raised.length 0 :: mvs.drop (raised.length + 1) := by
      rw [List.length_cons] at hlen
      rw [List.drop_eq_getElem_cons (by omega), List.getD_eq_getElem]
    rw [hdrop, runCommit_cons_of_low hmv]
    exact ⟨t.measureVhu _, ht.trans ⟨t.store, _, true, rfl⟩, hstore, rfl⟩

theorem mem_raisable (c x : Nat) : (c, x) ∈ s.raisable ↔ c < 16 ∧ s.boot.smallest c = some x ∧ s.minver c < x := by
  simp only [State.raisable, List.mem_filterMap, List.mem_range]
  constructor
  · rintro ⟨d, hd, h⟩
    split at h
    · split at h
      · cases h
        exact ⟨hd, ‹_›, ‹_›⟩
      · cases h
    · cases h
  · rintro ⟨hc, hsmallest, hlt⟩
    exact ⟨c, hc, by rw [hsmallest]; exact if_pos hlt⟩

theorem execCommit_of_idle (hready : s.ready = true) (hcommit : s.boot.commit = none) :
    exec .commit s = goes { s with boot := { s.boot with commit := some (s.raisable, 0) } } := by
  simp [exec, execCommit, State.startCommit, hready, hcommit]

theorem execCommit_of_refused (h : s.ready = false ∨ s.boot.commit ≠ none) : exec .commit s = goes s := by
  have hno : ¬ (s.ready = true ∧ s.boot.commit.isNone = true) := by
    rw [Option.isNone_iff_eq_none]
    rintro ⟨hready, hcommit⟩
    exact h.elim (fun hr => by simp [hr] at hready) fun hc => hc hcommit
  exact congrArg Host.Outcome.next (if_neg hno)

theorem execDbgOpen_of_ready (hready : s.ready = true) :
    exec .dbgOpen s = goes (if s.boot.dbgOpen then s else ({ s with boot := { s.boot with dbgOpen := true } } : State).event 0x0805 0xFF []) := by
  exact congrArg Host.Outcome.next (if_pos hready)

end

/-- Settles O52: a write sequence is the write of one item or nothing, and a commit's sequences are `finishCommit_eq`. -/
theorem counterStoreWrites : Obligations.CounterStoreWrites := by
  refine ⟨fun s i value mv => ?_, fun s mvs => ⟨execCommit_of_idle, execCommit_of_refused, mem_raisable, ?_, execDbgOpen_of_ready⟩⟩
  · rcases Nat.lt_or_ge mv 3000 with h | h
    · rw [writeSequence_of_low h]
      exact ⟨rfl, rfl, by simpa using h, fun _ => rfl, fun hge => absurd h (Nat.not_lt.2 hge), fun _ _ hj => hj⟩
    · rw [writeSequence_of_held h]
      exact ⟨rfl, rfl, by simpa using h, fun hlt => absurd h (Nat.not_le.2 hlt),
        fun _ => ⟨fun hi hgen => itemValue_writeItem_of_gen hi hgen value, fun _ _ hne => itemValue_writeItem_other hne value⟩,
        fun _ _ => currentCopy_writeItem_isSome value⟩
  · intro raised rest mask hcommit hlen hnodup hcounters hheld hlow
    obtain ⟨u, hu, hstore, hfinish⟩ := finishCommit_eq hcommit hlen hheld hlow
    have hraised : (raised.map (·.1)).Nodup := (List.map_append ▸ hnodup).of_append_left
    have hframe : { u with store := s.store, boot := s.boot } = s ∧
        { u.boot with vhu := s.boot.vhu, vhuMeasured := s.boot.vhuMeasured } = { s.boot with commit := none } := by
      obtain ⟨_, _, _, rfl⟩ := hu
      exact ⟨rfl, rfl⟩
    refine ⟨u, hframe.1, hframe.2, congrArg Host.Outcome.next hfinish, ?_, ?_⟩
    · rw [hstore]
      exact itemValue_writeCounters_mem raised s.store hraised fun e he => hcounters e (List.mem_append_left _ he)
    · intro i _ hi
      rw [hstore]
      exact itemValue_writeCounters_other raised s.store hi

end Sys2Proof.Machine
end

section
/-! SUPPORT. What a reset or a loss of power leaves: the counter store, the queue and what was sent, with the clocks and pins that it keeps (R391, R431-R436, O47). -/

namespace Sys2Proof.Machine

open Claims

section
variable (s : State)

/-! The counter store after a cut of power. -/

theorem cutStore_of_none (h : s.boot.commit = none) : s.cutStore = s.store := by
  simp only [State.cutStore, h]

theorem storeOk_cutStore (h : storeOk s.store) : storeOk s.cutStore :=
  (⟨False.elim, rfl, h⟩ : Kept ⟨False, s.pending, storeOk⟩ s).cutStore fun _ _ _ h => storeOk_writeItem h _ _

/-- LEAF and EPOCH, items 0 and 1, are no version counters. -/
theorem itemValue_cutStore {i : Nat} (hi : i < 2) : itemValue s.cutStore i = itemValue s.store i := by
  unfold State.cutStore
  split
  · exact itemValue_runCommit_other _ (fun _ _ => by omega) _ _ _
  · rfl

theorem cutStore_withPhys (p : Phys) : ({ s with phys := p } : State).cutStore = s.cutStore := by
  cases hcommit : s.boot.commit with
  | none => simp only [State.cutStore, hcommit]
  | some c =>
    simp only [State.cutStore, hcommit]
    exact runCommit_store_congr _ _ _ _ _ rfl rfl

/-! Loops and rails. -/

theorem Phys.loop_eq (p : Phys) (i : Nat) : p.loop i = p.loops[i]?.getD {} := by
  simp [Phys.loop, List.getD_eq_getElem?_getD]

theorem Phys.settle_loop_ready (p : Phys) (i : Nat) : (p.settle.loop i).ready = (p.loop i).ready := by
  rw [Phys.loop_eq, Phys.loop_eq, Phys.settle, Vector.getElem?_ofFn]
  split
  · next hi =>
    rw [Vector.getElem?_eq_getElem hi]
    dsimp only [Option.getD_some]
    split <;> rfl
  · next hi => rw [Vector.getElem?_eq_none (Nat.not_lt.1 hi)]

theorem Phys.settle_perst (p : Phys) : p.settle.perst = p.perst := by unfold Phys.settle; rfl

theorem settleClocks_spec : ∃ p, s.settleClocks = { s with phys := p } ∧ p.perst = s.phys.perst ∧ ∀ i, (p.loop i).ready = (s.phys.loop i).ready := by
  unfold State.settleClocks
  split
  · exact ⟨s.phys.settle, rfl, s.phys.settle_perst, s.phys.settle_loop_ready⟩
  · exact ⟨s.phys, rfl, rfl, fun _ => rfl⟩

theorem Phys.startAvs_perst (p : Phys) (now : Nat) : (p.startAvs now).perst = p.perst := by
  unfold Phys.startAvs
  split <;> rfl

theorem Phys.startAvs_loops (p : Phys) (now : Nat) : (p.startAvs now).loops = p.loops := by
  unfold Phys.startAvs
  split <;> rfl

theorem Phys.rail_command_same (p : Phys) (now mv : Nat) {r : Nat} (hr : r < 5) : ((p.command now r mv).rail r).commanded = mv := by
  simp [Phys.command, Phys.rail, List.getD_eq_getElem?_getD, hr]

theorem Phys.rail_command_other (p : Phys) (now mv : Nat) {r k : Nat} (h : k ≠ r) : (p.command now r mv).rail k = p.rail k := by
  simp [Phys.command, Phys.rail, List.getD_eq_getElem?_getD, h.symm]

theorem Phys.afterReset_loop_ready (p : Phys) (now : Nat) (keep : Bool) (i : Nat) :
    ((p.afterReset now keep).loop i).ready = (keep && (p.loop i).ready) := by
  cases keep with
  | false =>
    simp only [Phys.loop_eq, Phys.afterReset, Bool.false_eq_true, if_false, Vector.getElem?_replicate]
    split <;> rfl
  | true =>
    simp only [Phys.loop_eq, Phys.afterReset, if_true, Vector.getElem?_map]
    cases p.loops[i]? <;> rfl

/-! The resets. -/

/-- What a reset leaves: counter store, what was sent, the queue, and PCIe and physical state as given. -/
def State.cleared (pcie : Pcie) (phys : Phys) : State := { store := s.cutStore, posted := s.posted, pending := s.pending, pcie := pcie, phys := phys }

theorem bootReset_spec (keep : Bool) (pcie : Pcie) :
    ∃ p, s.bootReset keep pcie = s.cleared pcie p ∧ p.perst = s.phys.perst ∧ ∀ i, (p.loop i).ready = (keep && (s.phys.loop i).ready) := by
  obtain ⟨p, hp, hperst, hloops⟩ := settleClocks_spec (s.cleared pcie ((s.phys.afterReset s.tstamp keep).startAvs 0))
  refine ⟨p, hp, hperst.trans (Phys.startAvs_perst ..), fun i => (hloops i).trans ?_⟩
  rw [← Phys.afterReset_loop_ready]
  exact congrArg (fun l : Vector Loop 101 => (l.toList.getD i {}).ready) (Phys.startAvs_loops ..)

theorem execDeviceReset_of_key {v : Word} (hready : s.ready = true) (hdevice : v.toNat % 2 = 1) (hkey : v.toNat / 256 % 256 = 0xD1) :
    exec (.deviceReset v false) s = goes (s.bootReset true s.pcie) := by
  have hmatch : (bitOf v.toNat 0 && bitsOf v.toNat 15 8 == 0xD1) = true := by simp [bitOf, bitsOf, hdevice, hkey]
  simp [exec, execDeviceReset, hready, State.writeGlbReset, hmatch]

theorem execDeviceReset_of_no_key {v : Word} (hready : s.ready = true) (hno : v.toNat % 2 = 0 ∨ v.toNat / 256 % 256 ≠ 0xD1) :
    exec (.deviceReset v false) s = goes s := by
  have hmatch : (bitOf v.toNat 0 && bitsOf v.toNat 15 8 == 0xD1) = false := by
    rcases hno with h | h <;> simp [bitOf, bitsOf, h]
  simp [exec, execDeviceReset, hready, State.writeGlbReset, hmatch]

theorem execPerstDeassert_of_asserted (hpowered : s.phys.powered = true) (hperst : s.phys.perst = true) :
    exec .perstDeassert s = goes { s with phys := ({ s.phys with perst := false } : Phys).startAvs s.tstamp } := by
  simp [exec, execPerstDeassert, hpowered, hperst]

theorem Phys.startAvs_of_running {p : Phys} (now : Nat) (hpowered : p.powered = true) (hperst : p.perst = false) (hbosc : p.boscReady = true) :
    p.startAvs now = { (p.command now 0 750).command now 1 750 with
      avsRun := true, avs := [{ rail := 0, target := 750, purpose := 0 }, { rail := 1, target := 750, purpose := 0 }] } := by
  simp [Phys.startAvs, hpowered, hperst, hbosc]

theorem execSmbusReady_of_running (hpowered : s.phys.powered = true) (hperst : s.phys.perst = false) (hbosc : s.phys.boscReady = true) :
    exec .smbusReady s = goes { s with phys := { s.phys with smbus := true } } := by
  simp [exec, execSmbusReady, hpowered, hperst, hbosc]

end

/-- Settles O47: every reset is `State.cleared`, with the clocks and pins that `bootReset_spec` gives. -/
theorem resetsKeepTheCounterStore : Obligations.ResetsKeepTheCounterStore := by
  intro s v kept loops
  have hkept {c : Instr} {p : State → Prop} {pcie : Pcie} {phys : Phys} (hexec : exec c s = goes (s.cleared pcie phys)) (hp : p (s.cleared pcie phys)) : kept c p :=
    ⟨_, hexec, rfl, rfl, rfl, rfl, rfl, rfl, rfl, rfl, rfl, rfl, rfl, rfl, rfl, rfl, rfl, rfl, rfl, rfl, rfl, rfl, hp⟩
  have hwarm {c : Instr} {pcie : Pcie} (hexec : exec c s = goes (s.bootReset true pcie)) : kept c fun t => t.phys.perst = s.phys.perst ∧ t.pcie = pcie ∧ loops t := by
    obtain ⟨p, hp, hperst, hloops⟩ := bootReset_spec s true pcie
    exact hkept (hexec.trans (congrArg Host.Outcome.next hp)) ⟨hperst, rfl, hloops⟩
  have hdevice {c : Instr} (hexec : exec c s = goes (s.bootReset true s.pcie)) : kept c fun t => t.pcie = s.pcie ∧ loops t := by
    obtain ⟨p, hp, _, hloops⟩ := bootReset_spec s true s.pcie
    exact hkept (hexec.trans (congrArg Host.Outcome.next hp)) ⟨rfl, hloops⟩
  refine ⟨cutStore_of_none s, storeOk_cutStore s, itemValue_cutStore s (by decide), itemValue_cutStore s (by decide), ?_, hkept rfl ⟨rfl, rfl⟩, ?_,
    hwarm rfl, hwarm rfl, hdevice rfl, fun hready hbit hkey => hdevice (execDeviceReset_of_key s hready hbit hkey),
    fun hready hno => execDeviceReset_of_no_key s hready hno, fun hpowered hperst => ?_, execSmbusReady_of_running s⟩
  · obtain ⟨p, hp, hperst, hloops⟩ := bootReset_spec { s with phys := { s.phys with perst := true } } false {}
    have hcleared : exec .perst s = goes (s.cleared {} p) := by
      rw [State.cleared, ← cutStore_withPhys s { s.phys with perst := true }]
      exact congrArg Host.Outcome.next hp
    exact hkept hcleared ⟨hperst, rfl, hloops⟩
  · refine hkept (phys := _) rfl ⟨?_, rfl⟩
    cases s.phys.powered <;> rfl
  · refine ⟨_, execPerstDeassert_of_asserted s hpowered hperst, Phys.startAvs_perst .., rfl, Phys.startAvs_loops .., fun hbosc => ?_⟩
    simp only [Phys.startAvs_of_running (p := { s.phys with perst := false }) s.tstamp hpowered rfl hbosc]
    refine ⟨trivial, trivial, ?_, Phys.rail_command_same _ _ _ (by decide)⟩
    exact (congrArg Rail.commanded (Phys.rail_command_other _ _ _ (by decide))).trans (Phys.rail_command_same _ _ _ (by decide))

end Sys2Proof.Machine
end

section
/-! SUPPORT. The checks of the boot in their order, and what passes each of them (R396-R406, R410, O51). -/

namespace Sys2Proof.Machine

open Claims

section
variable {s : State} {f : Fetched}

theorem bootError_eq_none_iff : s.bootError f = none ↔
    (∀ e ∈ s.avsErrors, e = none) ∧ (∀ e ∈ s.manifestErrors f, e = none) ∧ (∀ e ∈ s.recordErrors f, e = none) ∧ ∀ e ∈ s.bodyErrors f, e = none := by
  simp only [State.bootError, List.findSome?_eq_none_iff, id, List.forall_mem_append, and_assoc]

theorem avsErrors_passed : (∀ e ∈ s.avsErrors, e = none) ↔ s.boot.avsFailed = [] := by
  simp [State.avsErrors]

theorem storeBad_eq_none_iff {v : Vector CsCopy 36} : storeBad v = none ↔ ∀ i, i < 18 → (currentCopy v i).isSome = true := by
  simp [storeBad, Option.isSome_iff_ne_none]

theorem manifestErrors_passed (h : ∀ e ∈ s.manifestErrors f, e = none) :
    shake256 (rootPk f.manifest) = Config.romKeyHash ∧ xmssVerify (rootPk f.manifest) f.manifest f.manifestSig = true ∧
    (∀ i, i < 18 → (currentCopy s.store i).isSome = true) ∧ s.rolledBack (fieldAt f.manifest 16 1) (fieldAt f.manifest 12 4) = false := by
  simp only [State.manifestErrors, bne_iff_ne, ne_eq, ite_not, Bool.not_eq_eq_eq_not, Bool.not_true, List.mem_cons, List.not_mem_nil, or_false,
    forall_eq_or_imp, ite_eq_left_iff, reduceCtorEq, imp_false, Decidable.not_not, ite_eq_right_iff, Bool.not_eq_false, Option.map_eq_none_iff,
    forall_eq, Bool.not_eq_true] at h
  obtain ⟨hkey, hsig, _, _, hstore, hversion⟩ := h
  exact ⟨hkey, hsig, storeBad_eq_none_iff.1 hstore, hversion⟩

theorem recordErrors_passed (h : ∀ e ∈ s.recordErrors f, e = none) :
    xmssVerify (rootPk f.manifest) f.record f.recordSig = true ∧ rootPk f.record = rootPk f.manifest ∧
    shake256 (2 :: s.bootSecret f.record) = (f.record.drop 32).take 32 ∧ s.rolledBack 15 (fieldAt f.record 24 4) = false := by
  simp only [State.recordErrors, Bool.or_eq_true, bne_iff_ne, ne_eq, List.isEmpty_iff, Bool.not_eq_eq_eq_not, Bool.not_true, ite_not, List.mem_cons,
    List.not_mem_nil, or_false, forall_eq_or_imp, ite_eq_right_iff, reduceCtorEq, imp_false, not_or, Decidable.not_not, Bool.not_eq_false,
    Option.map_eq_none_iff, ite_eq_left_iff, forall_eq, Bool.not_eq_true] at h
  obtain ⟨_, hsig, _, hkey, hsecret, hversion⟩ := h
  exact ⟨hsig, hkey, hsecret, hversion⟩

theorem bodyErrors_passed (h : ∀ e ∈ s.bodyErrors f, e = none) :
    treeRoot (mfBlocks f.manifest) f.body = (f.manifest.drop 32).take 32 ∧ ∀ e ∈ mfEntries f.manifest, s.rolledBack (meCounter e) (meVersion e) = false := by
  simpa [State.bodyErrors] using h

theorem bootError_of_rail {r : Nat} (h : s.boot.avsFailed.min? = some r) : s.bootError f = some (0x0D, r) := by
  simp [State.bootError, State.avsErrors, h]

theorem bootError_of_key (havs : s.boot.avsFailed = []) (hkey : shake256 (rootPk f.manifest) ≠ Config.romKeyHash) : s.bootError f = some (3, 0) := by
  simp [State.bootError, State.avsErrors, State.manifestErrors, havs, hkey]

theorem bootError_of_signature (havs : s.boot.avsFailed = []) (hkey : shake256 (rootPk f.manifest) = Config.romKeyHash)
    (hsig : xmssVerify (rootPk f.manifest) f.manifest f.manifestSig = false) : s.bootError f = some (4, 0) := by
  simp [State.bootError, State.avsErrors, State.manifestErrors, havs, hkey, hsig]

theorem rolledBack_iff (c v : Nat) : s.rolledBack c v = true ↔ c ≠ 0xFF ∧ v < s.minver c := by
  simp [State.rolledBack]

end

/-- Settles O51: with no check failed each one passed; the first that fails is the head of its list. -/
theorem bootChecks : Obligations.BootChecks := by
  intro s f
  refine ⟨fun h => ?_, fun r => bootError_of_rail, bootError_of_key, bootError_of_signature, rolledBack_iff⟩
  obtain ⟨havs, hmanifest, hrecord, hbody⟩ := bootError_eq_none_iff.1 h
  obtain ⟨hkey, hsig, hstore, hversion⟩ := manifestErrors_passed hmanifest
  obtain ⟨hrecordSig, hsame, hsecret, hrecordVersion⟩ := recordErrors_passed hrecord
  obtain ⟨hroot, hversions⟩ := bodyErrors_passed hbody
  exact ⟨avsErrors_passed.1 havs, hkey, hsig, hrecordSig, hsame, hsecret, hroot, hversion, hrecordVersion, hversions, hstore⟩

end Sys2Proof.Machine
end

section
/-! SUPPORT. The letterbox: how a boot fails, what a failed read answers, and what the write of EPOCH makes of the boot (R393-R397, R409, O50). -/

namespace Sys2Proof.Machine

open Claims

section
variable {s : State}

/-! Failing. -/

/-- The staging area reads as zero, every other byte of HBM as before. -/
theorem read_bootFail (s : State) (err item o : Nat) :
    (s.bootFail err item).hbm.read o = if hbmBase ≤ o ∧ o < hbmBase + s.boot.staged then 0 else s.hbm.read o := by
  have hfilter := Sparse.get_filter Memory.empty (fun k => !(decide (hbmBase ≤ k) && decide (k < hbmBase + s.boot.staged))) s.hbm o
  refine hfilter.trans ?_
  have hkept : (!(decide (hbmBase ≤ o) && decide (o < hbmBase + s.boot.staged))) = true ↔ ¬ (hbmBase ≤ o ∧ o < hbmBase + s.boot.staged) := by
    rw [Bool.not_eq_true', ← Bool.not_eq_true, Bool.and_eq_true, decide_eq_true_eq, decide_eq_true_eq]
  rw [if_congr hkept rfl rfl, ite_not]
  rfl

theorem checks_then_failed {checks : List (Option (Nat × Nat))} (h : ∀ e ∈ checks, e = none) (e : Nat × Nat) :
    (checks ++ [some e]).findSome? id = some e := by
  have hnone : checks.findSome? id = none := List.findSome?_eq_none_iff.2 h
  rw [List.findSome?_append, hnone]
  rfl

theorem fetchError_of_noManifest (havs : s.boot.avsFailed = []) : s.fetchError .noManifest = some (1, 0) :=
  checks_then_failed (avsErrors_passed.2 havs) (1, 0)

theorem fetchError_of_noRecord (havs : s.boot.avsFailed = []) {bundle : List Byte} (h : ∀ e ∈ s.manifestErrors (s.boot.splitFetch bundle []), e = none) :
    s.fetchError (.noRecord bundle) = some (1, 1) :=
  checks_then_failed (List.forall_mem_append.2 ⟨avsErrors_passed.2 havs, h⟩) (1, 1)

theorem fetchError_of_noBody (havs : s.boot.avsFailed = []) {bundle record : List Byte}
    (h : ∀ e ∈ s.manifestErrors (s.boot.splitFetch bundle record) ++ s.recordErrors (s.boot.splitFetch bundle record), e = none) :
    s.fetchError (.noBody bundle record) = some (1, 2) := by
  have hall := List.forall_mem_append.2 ⟨avsErrors_passed.2 havs, h⟩
  rw [← List.append_assoc] at hall
  exact checks_then_failed hall (1, 2)

/-! The write of EPOCH. -/

theorem applyRepairMap_frame (s : State) (m : List Byte) : (s.applyRepairMap m).boot = s.boot ∧ (s.applyRepairMap m).store = s.store := by
  unfold State.applyRepairMap
  refine List.foldlRecOn (motive := fun (t : State) => t.boot = s.boot ∧ t.store = s.store) _ _ ⟨rfl, rfl⟩ fun t ht e _ => ?_
  split <;> exact ht

theorem applyTrims_frame (s : State) : s.applyTrims.boot = s.boot ∧ s.applyTrims.store = s.store :=
  List.foldlRecOn (motive := fun (t : State) => t.boot = s.boot ∧ t.store = s.store) _ _ ⟨rfl, rfl⟩ fun _ ht _ _ => ht

theorem enterStarting_frame (s : State) :
    s.enterStarting.boot = { s.boot with phase := .starting, epoch := itemValue s.store 1, holdup := none, verified := true, placed := s.stagedSections } ∧
    s.enterStarting.store = s.store := by
  unfold State.enterStarting
  exact ⟨(applyTrims_frame _).1.trans (applyRepairMap_frame ..).1, (applyTrims_frame _).2.trans (applyRepairMap_frame ..).2⟩

variable {mv n : Nat}

theorem writeEpoch_of_low (hmv : mv < 3000) (hn : n < 200) :
    s.writeEpoch mv n = { s.measureVhu mv with boot := { (s.measureVhu mv).boot with holdup := some n } } := by
  rw [State.writeEpoch, writeSequence_of_low hmv]
  exact if_neg (Nat.not_le.2 hn)

theorem writeEpoch_of_last (hmv : mv < 3000) (hn : 200 ≤ n) : s.writeEpoch mv n = (s.measureVhu mv).bootFail 9 0 := by
  rw [State.writeEpoch, writeSequence_of_low hmv]
  exact if_pos hn

/-- With V_HU high enough EPOCH is written and the boot is STARTING. -/
theorem writeEpoch_of_held (hmv : 3000 ≤ mv) (hgen : itemGen s.store 1 < 2 ^ 32 - 1) :
    let t := s.writeEpoch mv n
    t.boot.phase = .starting ∧ t.boot.verified = true ∧ t.boot.holdup = none ∧ t.boot.err = s.boot.err ∧
      itemValue t.store 1 = (itemValue s.store 1 + 1) % 2 ^ 64 ∧ t.boot.epoch = itemValue t.store 1 ∧
      ∀ i, i < 18 → i ≠ 1 → itemValue t.store i = itemValue s.store i := by
  rw [State.writeEpoch, writeSequence_of_held hmv, if_pos rfl]
  intro t
  obtain ⟨hboot, hstore⟩ := enterStarting_frame { s.measureVhu mv with store := writeItem s.store 1 ((itemValue s.store 1 + 1) % 2 ^ 64) }
  rw [hboot, hstore]
  exact ⟨rfl, rfl, rfl, rfl, itemValue_writeItem_of_gen (by decide) hgen _, rfl, fun _ _ hi => itemValue_writeItem_other hi _⟩

/-! The commands. -/

theorem execLetterboxReady_of_reset (hpowered : s.phys.powered = true) (hperst : s.phys.perst = false) (hbosc : s.phys.boscReady = true)
    (hphase : s.boot.phase = .reset) : exec .letterboxReady s = goes { s.powerPuf with boot := { s.powerPuf.boot with phase := .waiting } } := by
  simp [exec, execLetterboxReady, hpowered, hperst, hbosc, hphase]

theorem execGo_of_taken (h : s.boot.phase = .waiting ∨ s.boot.phase = .failed) : exec .go s = goes { s with boot := { s.boot with
    phase := .fetching, err := 0, item := 0, holdup := none, bundleAddr := s.reg oBundleLo + 2 ^ 32 * s.reg oBundleHi, bundleLen := s.reg oBundleLen
    recordAddr := s.reg oRecordLo + 2 ^ 32 * s.reg oRecordHi, recordLen := s.reg oRecordLen } } := by
  simp only [exec, execGo, State.bootGo, if_pos h]

theorem execGo_of_ignored (hwaiting : s.boot.phase ≠ .waiting) (hfailed : s.boot.phase ≠ .failed) : exec .go s = goes s := by
  simp only [exec, execGo, State.bootGo, if_neg (not_or.2 ⟨hwaiting, hfailed⟩)]

theorem execFetchDone_of_error {result : FetchResult} {e : Nat × Nat} (hphase : s.boot.phase = .fetching) (hholdup : s.boot.holdup = none)
    (h : s.fetchError result = some e) : exec (.fetchDone result mv) s = goes (s.bootFail e.1 e.2) := by
  simp [exec, execFetchDone, hphase, hholdup, h]

theorem execFetchDone_of_passed {bundle record : List Byte} (hphase : s.boot.phase = .fetching) (hholdup : s.boot.holdup = none)
    (h : s.bootError (s.boot.splitFetch bundle record) = none) :
    exec (.fetchDone (.fetched bundle record) mv) s =
      goes (((s.stage (s.boot.splitFetch bundle record).body).keepFetched (s.boot.splitFetch bundle record)).writeEpoch mv 0) := by
  have hfetch : s.fetchError (.fetched bundle record) = none := h
  simp [exec, execFetchDone, hphase, hholdup, hfetch]

theorem execHoldupRecheck_of_waiting (hphase : s.boot.phase = .fetching) (hholdup : s.boot.holdup = some n) :
    exec (.holdupRecheck mv) s = goes (s.writeEpoch mv (n + 1)) := by
  simp [exec, execHoldupRecheck, hphase, hholdup]

theorem execStartingDone_of_failed (hphase : s.boot.phase = .starting) (d : TrainingFault) :
    exec (.startingDone (some d)) s = goes ((s.failChip (TrainingFault.cause d).1 (TrainingFault.cause d).2.1).bootFail 0x0C (TrainingFault.cause d).2.2) := by
  simp [exec, execStartingDone, hphase]

theorem execStartingDone_of_trained (hphase : s.boot.phase = .starting) (havs : ∀ w ∈ s.phys.avs, w.purpose ≠ 1) :
    exec (.startingDone none) s = goes (if s.identityOk s.boot.record then { s.clearStage with boot := { s.clearStage.boot with phase := .ready } } else s.bootFail 8 1) := by
  have hread : (s.phys.avs.any fun w => w.purpose == 1) = false := by simpa using havs
  cases hid : s.identityOk s.boot.record <;> simp [exec, execStartingDone, hphase, hread, hid]

end

/-- Settles O50: a fetch that ends and a recheck write EPOCH or fail, as the lemmas about `writeEpoch` and `fetchError` say. -/
theorem letterbox : Obligations.Letterbox := by
  intro s result mv b measured starts
  refine ⟨fun err item => ⟨rfl, rfl, read_bootFail s err item⟩, execLetterboxReady_of_reset, execGo_of_taken, execGo_of_ignored,
    fun havs => ⟨fetchError_of_noManifest havs, fun _ => fetchError_of_noRecord havs, fun _ _ => fetchError_of_noBody havs⟩,
    fun hphase hholdup => ⟨fun e => execFetchDone_of_error hphase hholdup, ?_⟩, fun n hphase hholdup => ?_,
    fun hphase => ⟨fun d => execStartingDone_of_failed hphase (.ucie d), fun k => execStartingDone_of_failed hphase (.hbm k), execStartingDone_of_trained hphase⟩⟩
  · rintro bundle record rfl f t
    have hexec (hpassed : s.bootError f = none) : exec (.fetchDone (.fetched bundle record) mv) s = goes (t.writeEpoch mv 0) :=
      execFetchDone_of_passed hphase hholdup hpassed
    refine ⟨rfl, fun hpassed hmv => ?_, fun hpassed hmv hgen => ⟨_, hexec hpassed, writeEpoch_of_held (s := t) hmv hgen⟩⟩
    rw [hexec hpassed, writeEpoch_of_low hmv (by decide)]
    rfl
  · have hexec := execHoldupRecheck_of_waiting (mv := mv) hphase hholdup
    refine ⟨fun hmv hn => ?_, fun hmv hn => ?_, fun hmv hgen => ⟨_, hexec, writeEpoch_of_held hmv hgen⟩⟩
    · rw [hexec, writeEpoch_of_low hmv (by omega)]
      rfl
    · rw [hexec, writeEpoch_of_last hmv (by omega)]
      rfl

end Sys2Proof.Machine
end

section
/-! SUPPORT. The DOE mailbox: discovery, and what a request for a quote or a certificate answers (R408, R411-R413, O53). -/

namespace Sys2Proof.Machine

open Claims

section
variable {s : State} {request nonce : List Byte} {mv : Nat}

/-! What an event and the end of a commit leave alone. -/

theorem event_frame (s : State) (code sect : Nat) (data : List Byte) :
    (s.event code sect data).store = s.store ∧ (s.event code sect data).boot = s.boot ∧ (s.event code sect data).reply = s.reply := by
  obtain ⟨_, _, _, h⟩ := postsOnly_event s code sect data
  rw [h]
  exact ⟨rfl, rfl, rfl⟩

/-- The end of a commit leaves the state of the letterbox, and no commit in progress. -/
theorem finishCommit_boot (s : State) (mvs : List Nat) : (s.finishCommit mvs).boot.phase = s.boot.phase ∧ (s.finishCommit mvs).boot.commit = none := by
  rcases hcommit : s.boot.commit with _ | ⟨cs, mask⟩
  · rw [finishCommit_of_none hcommit]
    exact ⟨rfl, hcommit⟩
  · rw [finishCommit_of_some hcommit]
    have hrun := sequences_runCommit cs s.commitTaken mvs mask
    generalize s.commitTaken.runCommit cs mvs mask = r at hrun
    have hboot : r.1.boot.phase = s.boot.phase ∧ r.1.boot.commit = none := by
      obtain ⟨_, _, _, hr⟩ := hrun
      rw [hr]
      exact ⟨rfl, rfl⟩
    dsimp only
    split <;> rwa [(event_frame ..).2.1]

theorem ready_finishCommit (s : State) (mvs : List Nat) : (s.finishCommit mvs).ready = s.ready :=
  congrArg (· == BootPhase.ready) (finishCommit_boot s mvs).1

/-! Discovery. -/

theorem execDoeDiscovery_attest : exec (.doeDiscovery 1) s = goes { s with reply := .data (Config.pcieVendor.toNat + 0x00010000) } := by
  simp [exec, execDoeDiscovery]

theorem execDoeDiscovery_of_unassigned {index : Byte} (h : 2 ≤ index.toNat) : exec (.doeDiscovery index) s = goes { s with reply := .data 0xFFFF } := by
  simp only [exec, execDoeDiscovery]
  split
  · omega
  · omega
  · rfl

/-! Requests. -/

theorem attest_of_malformed (h : fieldAt request 1 3 ≠ 0 ∨ fieldAt request 0 1 ≠ 1 ∧ fieldAt request 0 1 ≠ 2) :
    s.attest request mv = { s with reply := attestReply 4 [] } :=
  if_pos h

theorem attest_of_unready (hres : fieldAt request 1 3 = 0) (hop : fieldAt request 0 1 = 1 ∨ fieldAt request 0 1 = 2) (hready : s.ready = false) :
    s.attest request mv = { s with reply := attestReply 1 [] } := by
  have hformed : ¬ (fieldAt request 1 3 ≠ 0 ∨ fieldAt request 0 1 ≠ 1 ∧ fieldAt request 0 1 ≠ 2) := by omega
  simp only [State.attest, if_neg hformed, hready, Bool.not_false, if_true]

theorem attest_of_cert (hres : fieldAt request 1 3 = 0) (hop : fieldAt request 0 1 = 2) (hready : s.ready = true) :
    s.attest request mv = { s with reply := attestReply 0 (recordItem s.boot.record 4) } := by
  simp [State.attest, hres, hop, hready]

theorem attest_of_quote (hres : fieldAt request 1 3 = 0) (hop : fieldAt request 0 1 = 1) (hready : s.ready = true) :
    s.attest request mv = (s.finishCommit (List.replicate 16 mv)).frank ((request.drop 4).take 32) mv := by
  simp [State.attest, hres, hop, hready]

/-- The sequences of a commit run before a quote, which then finds none to run. -/
theorem attest_after_commit (hres : fieldAt request 1 3 = 0) (hop : fieldAt request 0 1 = 1) (hready : s.ready = true) :
    s.attest request mv = (s.finishCommit (List.replicate 16 mv)).attest request mv := by
  rw [attest_of_quote hres hop hready, attest_of_quote hres hop ((ready_finishCommit ..).trans hready), finishCommit_of_none (finishCommit_boot ..).2]

/-! The quote. -/

theorem frank_of_exhausted (hleaf : 2 ^ 20 ≤ itemValue s.store 0) (hposted : s.boot.exhaustedPosted = true) :
    s.frank nonce mv = { s with reply := attestReply 2 [] } := by
  have hspent : leafCount ≤ itemValue s.store 0 := hleaf
  simp only [State.frank, if_pos hspent, hposted, if_true]

theorem frank_of_low (hleaf : itemValue s.store 0 < 2 ^ 20) (hmv : mv < 3000) :
    s.frank nonce mv = ({ s.measureVhu mv with reply := attestReply 3 [] } : State).event 0x0801 0xFF (items [1, mv]) := by
  have hleft : ¬ leafCount ≤ itemValue s.store 0 := Nat.not_le.2 hleaf
  simp only [State.frank, if_neg hleft, writeSequence_of_low hmv]
  rfl

/-- The state after the write of LEAF and the release of the quote, or its abort. -/
def State.quoted (s : State) (nonce : List Byte) (mv : Nat) : State :=
  let i := itemValue s.store 0
  let t := { s.measureVhu mv with store := writeItem s.store 0 (i + 1) }
  { t with reply := if Config.quoteAborted i then .none else attestReply 0 (t.quote (s.quoteBody nonce i) i) }

/-- A quote with a leaf left and V_HU high enough; only IDENTITY_LOW may follow. -/
theorem frank_of_held (hleaf : itemValue s.store 0 < 2 ^ 20) (hmv : 3000 ≤ mv) :
    (s.frank nonce mv).store = (s.quoted nonce mv).store ∧ (s.frank nonce mv).reply = (s.quoted nonce mv).reply := by
  have hleft : ¬ leafCount ≤ itemValue s.store 0 := Nat.not_le.2 hleaf
  simp only [State.frank, if_neg hleft, writeSequence_of_held hmv, Bool.not_true, Bool.false_eq_true, if_false]
  split
  · exact ⟨(event_frame ..).1, (event_frame ..).2.2⟩
  · exact ⟨rfl, rfl⟩

end

/-- Settles O53: each request by its `attest` case, a quote by its `frank` case. -/
theorem franking : Obligations.Franking := by
  intro s request mv index i answer nonce body k pk quoted
  refine ⟨?_, ?_, execDoeDiscovery_of_unassigned,
    fun h => ⟨congrArg Host.Outcome.next (attest_of_malformed h), congrArg Host.Outcome.next (attest_of_malformed h)⟩, fun hres => ⟨fun hop hready => congrArg Host.Outcome.next (attest_of_cert hres hop hready), fun hop hready => congrArg Host.Outcome.next (attest_of_unready hres hop hready),
      fun hop hready => congrArg Host.Outcome.next (attest_after_commit hres hop hready), fun hop hready hcommit => ?_⟩⟩
  · rintro rfl
    rfl
  · rintro rfl
    exact ⟨_, execDoeDiscovery_attest, by rw [show 0x00010000 = 2 ^ 16 from rfl, Nat.add_mod_right, Nat.mod_eq_of_lt Config.pcieVendor.isLt]⟩
  · have hquoted : quoted = goes (s.frank nonce mv) := by
      have hattest := attest_of_quote (mv := mv) hres hop hready
      rw [finishCommit_of_none hcommit] at hattest
      exact congrArg Host.Outcome.next hattest
    refine ⟨fun hleaf hposted => ?_, fun hleaf hmv => ?_, fun hleaf hmv hgen => ⟨_, hquoted, ?_, fun j _ hj => ?_, ?_⟩⟩
    · rw [hquoted, frank_of_exhausted hleaf hposted]
      rfl
    · rw [frank_of_low hleaf hmv] at hquoted
      exact ⟨_, hquoted, (event_frame ..).2.2, (event_frame ..).1⟩
    · rw [(frank_of_held hleaf hmv).1]
      exact itemValue_writeItem_of_gen (by decide) hgen _
    · rw [(frank_of_held hleaf hmv).1]
      exact itemValue_writeItem_other hj _
    · rw [(frank_of_held hleaf hmv).2]
      rfl

end Sys2Proof.Machine
end

section
/-! SUPPORT. The queue of commands (O57). -/

namespace Sys2Proof.Machine

open Claims

/-- Settles O57: `exec_goes` for an upkeep that asks for the queue alone; an internal debug instruction that is refused has no next state. -/
theorem commandsKeepTheQueue : Obligations.CommandsKeepTheQueue := by
  intro s t c hexec
  have hkept : Kept ⟨False, s.pending, fun _ => True⟩ s := ⟨False.elim, rfl, trivial⟩
  rcases exec_goes hkept (fun _ _ _ h => h) c with ⟨u, hu, hqueue⟩ | ⟨_, _, _, hrefused⟩
  · cases hu.symm.trans hexec
    exact hqueue.pending
  · cases hrefused.symm.trans hexec

end Sys2Proof.Machine
end

section
/-! SUPPORT. The clocks: BOSC, the windows in which REFCLK is judged, the trim, and the loops of the islands (R418-R420, R423-R425, O48). -/

namespace Sys2Proof.Machine

open Claims

/-! What becomes of a loop. -/

section
variable {p : Phys} {i : Nat}

theorem Phys.loop_setLoop_same (l : Loop) (hi : i < 101) : (p.setLoop i l).loop i = l := by
  simp [Phys.loop_eq, Phys.setLoop, hi]

theorem Phys.settle_loop (hi : i < 101) :
    p.settle.loop i = if (p.loop i).ready && (decide (64 ≤ i) || p.bootVolts) then { p.loop i with source := .loop } else p.loop i := by
  rw [Phys.loop_eq, Phys.loop_eq, Phys.settle, Vector.getElem?_ofFn, dif_pos hi, Vector.getElem?_eq_getElem hi]
  rfl

theorem Phys.settle_loop_coasting (p : Phys) (hi : i < 101) : (p.settle.loop i).coasting = (p.loop i).coasting := by
  rw [Phys.settle_loop hi]
  split <;> rfl

/-- Of the islands outside the clusters a ready loop is taken at once (R424). -/
theorem Phys.settle_loop_source (hi : i < 101) (hready : (p.loop i).ready = true) (hisland : 64 ≤ i) : (p.settle.loop i).source = .loop := by
  rw [Phys.settle_loop hi, hready, decide_eq_true hisland]
  rfl

/-- The boot controller changes loops alone. -/
theorem Phys.settle_withLoops (p : Phys) (ls : Vector Loop 101) : { p.settle with loops := ls } = { p with loops := ls } := by
  unfold Phys.settle
  rfl

theorem Phys.startAvs_boscReady (p : Phys) (now : Nat) : (p.startAvs now).boscReady = p.boscReady := by
  unfold Phys.startAvs
  split <;> rfl

theorem Phys.startAvs_of_perst (now : Nat) (hperst : p.perst = true) : p.startAvs now = p := by
  simp [Phys.startAvs, hperst]

end

/-! The commands. -/

section
variable {s : State}

theorem execBoscReady_of_stopped (hpowered : s.phys.powered = true) (hbosc : s.phys.boscReady = false) :
    exec .boscReady s = goes { s with phys := ({ s.phys with boscReady := true } : Phys).startAvs s.tstamp } := by
  simp [exec, execBoscReady, hpowered, hbosc]

/-- A state with another count of good windows. -/
def State.withWindows (s : State) (n : Nat) : State := { s with phys := { s.phys with windows := n } }

section
variable (hpowered : s.phys.powered = true) (hbosc : s.phys.boscReady = true)
include hpowered hbosc

theorem execClkLost_of_running : exec .clkLost s = goes (if s.phys.refclk then s.refclkLost else { s with phys := { s.phys with windows := 0 } }) := by
  simp [exec, execClkLost, hpowered, hbosc]

theorem execRefclkWindow_of_bad {edges : Nat} (hedges : edges < 12000 ∨ 23000 < edges) :
    exec (.refclkWindow edges) s = goes (if s.phys.refclk then s.refclkLost else { s with phys := { s.phys with windows := 0 } }) := by
  have hbad : ¬ (12000 ≤ edges ∧ edges ≤ 23000) := by omega
  simp [exec, execRefclkWindow, hpowered, hbosc, hbad]

theorem execRefclkWindow_of_good {edges : Nat} (hlow : 12000 ≤ edges) (hhigh : edges ≤ 23000) :
    let t := s.withWindows (min 4 (s.phys.windows + 1))
    exec (.refclkWindow edges) s = goes (if 3 ≤ s.phys.windows ∧ s.phys.refclk = false then t.refclkPresent else t) := by
  have hfour : min 4 (s.phys.windows + 1) = 4 ↔ 3 ≤ s.phys.windows := by omega
  simp [exec, execRefclkWindow, State.withWindows, hpowered, hbosc, hlow, hhigh, hfour]

theorem execBoscTrim_of_outside {count : Nat} (hrefclk : s.phys.refclk = true) (hcount : 100 * count < 99 * 262144 ∨ 101 * 262144 < 100 * count) :
    exec (.boscTrim count) s = goes { s with phys := { s.phys with boscTrim := Config.boscTrim s.phys.boscTrim count } } := by
  have houtside : (!(decide (99 * 262144 ≤ 100 * count) && decide (100 * count ≤ 101 * 262144))) = true := by
    simp only [Bool.not_eq_true', Bool.and_eq_false_iff, decide_eq_false_iff_not]
    omega
  simp only [exec, execBoscTrim, hpowered, hbosc, hrefclk, houtside]
  rfl

end

theorem execBoscTrim_of_within {count : Nat} (hlow : 99 * 262144 ≤ 100 * count) (hhigh : 100 * count ≤ 101 * 262144) :
    exec (.boscTrim count) s = goes s := by
  simp only [exec, execBoscTrim, decide_eq_true hlow, decide_eq_true hhigh]
  simp

theorem refclkPresent_of_first (h : s.phys.lostAt = none) : s.refclkPresent = { s with phys := { s.phys with refclk := true } } := by
  unfold State.refclkPresent
  dsimp only
  rw [h]

/-- The duration of the loss is that of CLK_RESTORED (R425). -/
theorem refclkPresent_of_restored {a : Nat} (h : s.phys.lostAt = some a) (ha : a ≤ s.tstamp) (hnow : s.tstamp < 2 ^ 64) :
    s.refclkPresent = ({ s with phys := { s.phys with refclk := true, lostAt := none } } : State).event 0x0902 0xFF (items [s.tstamp - a]) := by
  have hspan : (s.tstamp + 2 ^ 64 - a) % 2 ^ 64 = s.tstamp - a := by omega
  unfold State.refclkPresent
  dsimp only
  rw [h, ← hspan]
  rfl

variable {island : BitVec 7}

/-- The state after a loop has locked, before the boot controller switches its island. -/
def State.locked (s : State) (i : Nat) : State := { s with phys := s.phys.setLoop i { s.phys.loop i with ready := true, coasting := false } }

theorem execLoopReady_of_present (hpowered : s.phys.powered = true) (hperst : s.phys.perst = false) (hrefclk : s.phys.refclk = true) :
    exec (.loopReady island) s = goes (s.locked island.toNat).settleClocks := by
  simp [exec, execLoopReady, hpowered, hperst, hrefclk, State.locked]

theorem execLoopUnlock_of_ready (hrefclk : s.phys.refclk = true) (hready : (s.phys.loop island.toNat).ready = true) :
    exec (.loopUnlock island) s = goes (({ s with phys := s.phys.setLoop island.toNat { s.phys.loop island.toNat with ready := false, coasting := true } } : State).event
      0x0904 0xFF (items [island.toNat])) := by
  simp [exec, execLoopUnlock, hrefclk, hready, noSect]

theorem settleClocks_of_loop (h : s.reg oClkSrc % 2 = 1) : s.settleClocks = { s with phys := s.phys.settle } := by
  simp [State.settleClocks, bitOf, h]

theorem settleClocks_of_bosc (h : s.reg oClkSrc % 2 = 0) : s.settleClocks = s := by
  simp [State.settleClocks, bitOf, h]

end

/-- Settles O48: each command by its `exec` lemma. -/
theorem clocks : Obligations.Clocks := by
  intro s edges count island p lost i hpowered
  refine ⟨fun hbosc => ?_, fun hbosc => ⟨fun hlow hhigh => ?_, execRefclkWindow_of_bad hpowered hbosc, execClkLost_of_running hpowered hbosc,
    fun _ => execBoscTrim_of_within, execBoscTrim_of_outside hpowered hbosc⟩, fun hperst hrefclk hi => ?_, execLoopUnlock_of_ready⟩
  · exact ⟨_, execBoscReady_of_stopped hpowered hbosc, Phys.startAvs_boscReady .., Phys.startAvs_loops ..,
      fun hperst => congrArg Phys.avs (Phys.startAvs_of_running (p := { p with boscReady := true }) _ hpowered hperst rfl), Phys.startAvs_of_perst (p := { p with boscReady := true }) _⟩
  · rw [execRefclkWindow_of_good hpowered hbosc hlow hhigh]
    have hfour (h : 3 ≤ p.windows) : min 4 (s.phys.windows + 1) = 4 := Nat.min_eq_left (Nat.succ_le_succ h)
    refine ⟨fun hfew => ?_, fun habsent hthree hfirst => ?_, fun a habsent hthree hlost ha hnow => ?_⟩
    · have hno : ¬ (3 ≤ p.windows ∧ p.refclk = false) := by
        rintro ⟨hthree, habsent⟩
        rcases hfew with h | h
        · cases h.symm.trans habsent
        · exact absurd hthree (Nat.not_le.2 h)
      rw [if_neg hno]
      rfl
    · rw [if_pos ⟨hthree, habsent⟩, hfour hthree]
      exact congrArg goes (refclkPresent_of_first (s := s.withWindows 4) hfirst)
    · rw [if_pos ⟨hthree, habsent⟩, hfour hthree]
      exact congrArg goes (refclkPresent_of_restored (s := s.withWindows 4) hlost ha hnow)
  · rw [execLoopReady_of_present hpowered hperst hrefclk]
    have hlocked : ((s.locked i).phys.loop i) = { p.loop i with ready := true, coasting := false } := Phys.loop_setLoop_same _ hi
    rcases Nat.mod_two_eq_zero_or_one (s.reg oClkSrc) with hsel | hsel
    · rw [settleClocks_of_bosc (s := s.locked i) hsel]
      refine ⟨(s.locked i).phys, rfl, ?_, ?_, rfl, fun h => ?_, fun _ => ?_⟩
      · rw [hlocked]
      · rw [hlocked]
      · omega
      · rw [hlocked]
    · rw [settleClocks_of_loop (s := s.locked i) hsel]
      refine ⟨(s.locked i).phys.settle, rfl, ?_, ?_, Phys.settle_withLoops .., fun _ => Phys.settle_loop_source hi (by rw [hlocked]), fun h => ?_⟩
      · rw [Phys.settle_loop_ready, hlocked]
      · rw [Phys.settle_loop_coasting _ hi, hlocked]
      · omega

end Sys2Proof.Machine
end

section
/-! SUPPORT. The repair of HBM rows, the failure of the chip, and fences (R442, R444-R448, O54). -/

namespace Sys2Proof.Machine

open Claims

section
variable {s t : State}

/-! Repair of a row (R448). -/

/-- s with units of HBM written as zeros. -/
def State.zeroUnits (s : State) (units : List Nat) : State := units.foldl (fun t u => t.hbmWrite (64 * u) (fillBytes 64 0)) s

theorem zeroUnits_spec (units : List Nat) (s : State) : ∃ m bad, s.zeroUnits units = { s with hbm := m, hbmBad := bad } ∧
    (∀ o, m.read o = if o / 64 ∈ units then 0 else s.hbm.read o) ∧ ∀ w, w ∈ bad ↔ w ∈ s.hbmBad ∧ w ∉ units := by
  induction units generalizing s with
  | nil => exact ⟨s.hbm, s.hbmBad, rfl, by simp, by simp⟩
  | cons u units ih =>
    obtain ⟨m, bad, hwrite, hin, hout, hbad⟩ := s.hbmWrite_spec (64 * u) (fillBytes 64 0)
    have hlength : (fillBytes 64 0).length = 64 := List.length_replicate
    rw [hlength] at hin hout hbad
    have hunit (o) : m.read o = if o / 64 = u then 0 else s.hbm.read o := by
      split
      · have hzero := hin (o - 64 * u) (by omega)
        rw [show 64 * u + (o - 64 * u) = o by omega] at hzero
        exact hzero.trans (List.getD_replicate _ (by omega))
      · exact hout o (by omega)
    obtain ⟨m', bad', hrest, hread, hbad'⟩ := ih { s with hbm := m, hbmBad := bad }
    refine ⟨m', bad', ?_, fun o => ?_, fun w => ?_⟩
    · rw [State.zeroUnits, List.foldl_cons, hwrite]
      exact hrest
    · simp only [hread, hunit, List.mem_cons]
      grind
    · rw [hbad', hbad, List.mem_cons]
      grind

theorem execPprDone_of_begun {r : Nat} {hard : Bool} (h : s.repair.ppr = some (r, hard)) :
    ∃ t, exec .pprDone s = goes t ∧ PostsOnly { s.zeroUnits (s.rowBad r) with repair := { (s.zeroUnits (s.rowBad r)).repair with ppr := none } } t := by
  refine ⟨_, ?_, postsOnly_event _ 0x0A08 0xFF (items [(s.hbmPlace r).1, (s.hbmPlace r).2, boolNat hard, (s.rowBad r).length])⟩
  simp only [exec, execPprDone, h]
  rfl

section
variable {v : Word} {spare : Bool}

theorem pprAddr_setReg (s : State) (v : Nat) : (s.setReg oPprCmd v).pprAddr = s.pprAddr := by
  simp [State.pprAddr, State.reg_setReg, oPprLo, oPprHi, oPprCmd]

theorem pprRefused_eq_none {a : Nat} (hidle : s.pprBusy = false) (hhbm : inHbm a = true) (hspare : spare = true) : s.pprRefused a spare = none := by
  simp [State.pprRefused, hidle, hhbm, hspare]

theorem pprRefused_of_exhausted {a : Nat} (hidle : s.pprBusy = false) (hhbm : inHbm a = true) (hspare : spare = false) : s.pprRefused a spare = some 2 := by
  simp [State.pprRefused, hidle, hhbm, hspare]

/-! A write of FAULT_PPR_CMD with GO = 1 while no repair is in progress. -/

section
variable (hready : s.ready = true) (hgo : v.toNat % 2 = 1) (hppr : s.repair.ppr = none) (hhbm : inHbm s.pprAddr = true)
include hready hgo hppr

theorem execPprGo_of_allowed (hallowed : (s.setReg oPprCmd (v.toNat &&& 2)).pprRefused s.pprAddr spare = none) :
    exec (.pprGo v spare) s =
      goes { s.setReg oPprCmd (v.toNat &&& 2) with repair := { s.repair with ppr := some (s.pprAddr, bitOf v.toNat 1) } } := by
  have hbit : bitOf v.toNat 0 = true := by simp [bitOf, hgo]
  simp [exec, execPprGo, State.writePpr, hready, hbit, hppr, pprAddr_setReg, hallowed]

include hhbm in
theorem execPprGo_of_refused {reason : Nat} (hrefused : (s.setReg oPprCmd (v.toNat &&& 2)).pprRefused s.pprAddr spare = some reason) :
    let u := s.setReg oPprCmd (v.toNat &&& 2)
    exec (.pprGo v spare) s = goes (u.event 0x0A09 0xFF (items [(u.hbmPlace s.pprAddr).1, (u.hbmPlace s.pprAddr).2, reason])) := by
  have hbit : bitOf v.toNat 0 = true := by simp [bitOf, hgo]
  simp [exec, execPprGo, State.writePpr, hready, hbit, hppr, pprAddr_setReg, hrefused, hhbm, noSect]

end

end

/-! Failure of the chip (R445, R446). -/

/-- What a section's fault leaves alone: HBM, the counter store, and what is fenced, failed or in repair. -/
def State.lasting (s : State) : Memory × Vector CsCopy 36 × Repair := (s.hbm, s.store, s.repair)

theorem lasting_of_posted (p : PostsOnly s t) : t.lasting = s.lasting := by
  obtain ⟨_, _, _, rfl⟩ := p
  rfl

theorem lasting_complete (s : State) (k : Nat) (c : Completion) : (s.complete k c).lasting = s.lasting := lasting_of_posted (postsOnly_complete ..)
theorem lasting_setSectN (s : State) (k : Nat) (x : Section) : (s.setSectN k x).lasting = s.lasting := by simp [State.lasting]
theorem lasting_setTileN (s : State) (n : Nat) (x : Tile) : (s.setTileN n x).lasting = s.lasting := by simp [State.lasting]
theorem lasting_sendBarrier (s : State) (l kind index bseq : Nat) (data : List Byte) : (s.sendBarrier l kind index bseq data).lasting = s.lasting := by
  simp [State.lasting, State.sendBarrier]

theorem lasting_foldl {α : Type} {f : State → α → State} (hf : ∀ t a, (f t a).lasting = t.lasting) (l : List α) (s : State) :
    (l.foldl f s).lasting = s.lasting :=
  List.foldlRecOn (motive := fun t : State => t.lasting = s.lasting) l f rfl fun t ht a _ => (hf t a).trans ht

theorem lasting_done (s : State) (k : Nat) (c : Completion) : (s.done k c).lasting = s.lasting := by
  unfold State.done
  rw [lasting_foldl fun _ _ => lasting_complete .., lasting_complete, lasting_setSectN]

theorem lasting_abortRun (s : State) (k : Nat) : (s.abortRun k).lasting = s.lasting := by
  unfold State.abortRun
  dsimp only
  split
  · exact lasting_done ..
  · exact lasting_done ..
  · exact lasting_done ..
  · exact lasting_done ..
  · rfl

theorem lasting_sealPoint (s : State) (k : Nat) : (s.sealPoint k).lasting = s.lasting := by
  unfold State.sealPoint
  split
  · split
    · exact lasting_setSectN ..
    · rfl
  · rfl

theorem lasting_mapTiles (s : State) (k : Nat) (f : Nat → Tile → Tile) : (s.mapTiles k f).lasting = s.lasting :=
  lasting_foldl (fun _ _ => lasting_setTileN ..) _ _

theorem lasting_sendAborts (s : State) (sp : List Byte) (except : Option Nat) (index bseq chip code : Nat) :
    (s.sendAborts sp except index bseq chip code).lasting = s.lasting :=
  lasting_foldl (fun _ _ => lasting_sendBarrier ..) _ _

theorem lasting_faultSect (s : State) (k code : Nat) : (s.faultSect k code).lasting = s.lasting := by
  unfold State.faultSect State.faultSectFrom
  dsimp only
  split
  · rfl
  · split
    · rw [lasting_sendAborts, lasting_setSectN, lasting_mapTiles, lasting_abortRun, lasting_sealPoint]
    · rw [lasting_setSectN, lasting_mapTiles, lasting_abortRun, lasting_sealPoint]

/-- Every section of a list is stopped but those that are OFF. -/
theorem phase_foldl_faultSect (code j : Nat) (l : List Nat) (s : State) (hl : ∀ k ∈ l, k < 16) :
    ((l.foldl (fun (t : State) k => t.faultSect k code) s).sectN j).phase = if j ∈ l ∧ (s.sectN j).phase ≠ .off then .faulted else (s.sectN j).phase := by
  induction l generalizing s with
  | nil => simp
  | cons k l ih =>
    rw [List.foldl_cons, ih _ fun i hi => hl i (.tail _ hi), phase_faultSect code (hl k (.head _))]
    grind

variable {cause : BitVec 3} {loc : BitVec 12}

/-- The state of a chip that has failed, its sections stopped. -/
def State.chipStopped (s : State) (cause loc : Nat) : State :=
  (List.range 16).foldl (fun t k => t.faultSect k 0x0A01) { s with repair := { s.repair with failed := true, cause := cause, loc := loc } }

theorem phase_chipStopped (s : State) (cause loc : Nat) {k : Nat} (hk : k < 16) :
    ((s.chipStopped cause loc).sectN k).phase = if (s.sectN k).phase = .off then .off else .faulted := by
  unfold State.chipStopped
  rw [phase_foldl_faultSect _ _ _ _ fun _ => List.mem_range.1]
  simp only [List.mem_range, hk, true_and]
  change (if (s.sectN k).phase ≠ .off then SectPhase.faulted else (s.sectN k).phase) = _
  grind

theorem lasting_chipStopped (s : State) (cause loc : Nat) :
    (s.chipStopped cause loc).lasting = (s.hbm, s.store, { s.repair with failed := true, cause := cause, loc := loc }) :=
  lasting_foldl (fun t k => lasting_faultSect t k 0x0A01) _ _

theorem execChipFailed_of_first (hfirst : s.repair.failed = false) (hlow : 1 ≤ cause.toNat) (hhigh : cause.toNat ≤ 5) :
    ∃ t, exec (.chipFailed cause loc) s = goes t ∧ PostsOnly (s.chipStopped cause.toNat loc.toNat) t := by
  have hcause : ¬ (cause = 0 ∨ 5 < cause.toNat) := by
    rintro (rfl | h)
    · cases hlow
    · omega
  refine ⟨_, ?_, postsOnly_event _ 0x0A01 0xFF (items [cause.toNat, loc.toNat])⟩
  simp only [exec, execChipFailed, if_neg hcause, State.failChip, hfirst]
  rfl

theorem execChipFailed_of_failed (hfailed : s.repair.failed = true) : exec (.chipFailed cause loc) s = goes s := by
  simp [exec, execChipFailed, State.failChip, hfailed]

/-! Fences (R442, R444). -/

/-- Of the tile x, y has the scratchpad; its tile store is lost, every bank OFF. -/
def LosesStore (x y : Tile) : Prop := y.ts.bytes = [] ∧ y.ts.flips = [] ∧ y.ts.banks = x.allOff.ts.banks ∧ y.sp = x.sp

theorem LosesStore.byte {x y : Tile} (h : LosesStore x y) (o : Nat) : y.ts.byte o = 0 := by
  obtain ⟨hbytes, hflips, _, _⟩ := h
  rw [TileStore.byte_of_clean hflips, hbytes]
  rfl

theorem LosesStore.bank {x y : Tile} (h : LosesStore x y) {b : Nat} (hb : b < 16) : (y.ts.bank b).st = .off := by
  obtain ⟨_, _, hbanks, _⟩ := h
  simp [TileStore.bank, hbanks, Tile.allOff, List.getD_eq_getElem?_getD, hb]

/-- What a fence of a physical tile makes of s: it is out of use, and its logical tile, if it has one, loses its tile store. -/
structure Fences (s : State) (phys : Nat) (t : State) : Prop where
  fenced : t.repair.fenced = s.repair.fenced ++ [phys]
  hbm : t.hbm = s.hbm
  regs : t.regs = s.regs
  lost : ∀ n, s.ltnOf phys = some n → LosesStore (s.tileN n) (t.tileN n)
  tiles : s.ltnOf phys = none → t.tiles = s.tiles

section
variable {r : State} {phys : Nat}

theorem Fences.update (h : Fences r phys s) (e : (t.repair.fenced, t.hbm, t.regs, t.tiles) = (s.repair.fenced, s.hbm, s.regs, s.tiles)) : Fences r phys t := by
  simp only [Prod.mk.injEq] at e
  obtain ⟨hfenced, hhbm, hregs, htiles⟩ := e
  exact ⟨hfenced.trans h.fenced, hhbm.trans h.hbm, hregs.trans h.regs, by simpa only [State.tileN, htiles] using h.lost, fun hn => htiles.trans (h.tiles hn)⟩

theorem Fences.posted (h : Fences r phys s) (p : PostsOnly s t) : Fences r phys t := by
  obtain ⟨_, _, _, rfl⟩ := p
  exact h.update rfl

theorem Fences.event (h : Fences r phys s) {c k d} : Fences r phys (s.event c k d) := h.posted (postsOnly_event ..)
theorem Fences.postbook (h : Fences r phys s) {a k n c p} : Fences r phys (s.postbook a k n c p) := h.posted (postsOnly_postbook ..)
theorem Fences.setSectN (h : Fences r phys s) {k x} : Fences r phys (s.setSectN k x) := h.update (by simp)

theorem Fences.markDegraded (h : Fences r phys s) {c} : Fences r phys (s.markDegraded c) := by
  unfold State.markDegraded
  split
  · refine Fences.event ?_
    exact h.update rfl
  · exact h

theorem fences_fenceTile (s : State) (phys : Nat) : Fences s phys (s.fenceTile phys) := by
  unfold State.fenceTile
  dsimp only
  refine Fences.markDegraded ?_
  split
  · next n hltn =>
    refine ⟨rfl, rfl, rfl, fun m hm => ?_, fun hn => (nomatch hltn.symm.trans hn)⟩
    cases hltn.symm.trans hm
    rw [State.tileN_setTileN_same]
    exact ⟨rfl, rfl, rfl, rfl⟩
  · next hltn => exact ⟨rfl, rfl, rfl, fun n hn => (nomatch hltn.symm.trans hn), fun _ => rfl⟩

/-- A change of a section's tiles that restores no tile store. -/
theorem Fences.mapTiles (h : Fences r phys s) {n : Nat} (hltn : r.ltnOf phys = some n) {k : Nat} {f : Nat → Tile → Tile}
    (hf : ∀ i x y, LosesStore x y → LosesStore x (f i y)) : Fences r phys (s.mapTiles k f) := by
  have hmap : ∀ m, r.ltnOf phys = some m → LosesStore (r.tileN m) ((s.mapTiles k f).tileN m) := fun m hm => by
    by_cases hmem : m ∈ s.ltns k
    · rw [s.mapTiles_mem k f m hmem]
      exact hf _ _ _ (h.lost m hm)
    · rw [(s.mapTiles_frame k f).2 m hmem]
      exact h.lost m hm
  obtain ⟨m, hm⟩ := (s.mapTiles_frame k f).1
  rw [hm] at hmap ⊢
  exact ⟨h.fenced, h.hbm, h.regs, hmap, fun hn => (nomatch hltn.symm.trans hn)⟩

/-- Programs are discarded where the fenced tile is in use; version ranges and the owners of granules go with them. -/
theorem Fences.discardPrograms (h : Fences r phys s) {n : Nat} (hltn : r.ltnOf phys = some n) {k : Nat} : Fences r phys (s.discardPrograms k) := by
  unfold State.discardPrograms
  refine (Fences.mapTiles h hltn fun i x y hy => ?_).setSectN.event
  exact hy

theorem fences_writeFence {v : Nat} (hslot : v % 4096 % 64 ≤ 32) (hbusy : s.clusterBusy (v % 4096 / 64) = false) (hnew : v % 4096 ∉ s.repair.fenced) :
    Fences s (v % 4096) (s.writeFence v) := by
  have hallowed : s.fenceRefused (v % 4096) = none := by simp [State.fenceRefused, hbusy, hnew]
  unfold State.writeFence
  simp only [if_neg (Nat.not_lt.2 hslot), hallowed]
  split
  · next hltn _ => exact (fences_fenceTile ..).event.postbook.discardPrograms hltn
  · exact (fences_fenceTile ..).event.postbook

end

theorem fenceRefused_of_fenced {phys : Nat} (hbusy : s.clusterBusy (phys / 64) = false) (hfenced : phys ∈ s.repair.fenced) : s.fenceRefused phys = some 2 := by
  simp [State.fenceRefused, hbusy, hfenced]

theorem writeFence_of_unused {v : Nat} (hslot : 32 < v % 4096 % 64) : s.writeFence v = s := if_pos hslot

theorem writeFence_of_refused {v reason : Nat} (hslot : v % 4096 % 64 ≤ 32) (hrefused : s.fenceRefused (v % 4096) = some reason) :
    s.writeFence v = s.event 0x0A03 (s.sectByte (v % 4096 / 64)) (items [v % 4096, reason]) := by
  unfold State.writeFence
  simp only [if_neg (Nat.not_lt.2 hslot), hrefused]

theorem execFaultFence_of_ready {v : Word} (hready : s.ready = true) : exec (.faultFence v) s = goes (s.writeFence v.toNat) := by
  simp [exec, execFaultFence, hready]

end

/-- Settles O54: each command by its `exec` lemma, the fence by what `Fences` says of it. -/
theorem fencesAndRepair : Obligations.FencesAndRepair := by
  intro s v spare cause loc phys c a u
  refine ⟨fun hready => ?_, fun hfirst hlow hhigh => ?_, execChipFailed_of_failed, fun hready hgo hppr => ?_, fun r hard hppr => ?_⟩
  · rw [execFaultFence_of_ready hready]
    refine ⟨fun hslot => congrArg goes (writeFence_of_unused hslot), fun hslot hbusy => congrArg goes (writeFence_of_refused hslot ?_),
      fun hslot hbusy hfenced => congrArg goes (writeFence_of_refused hslot ?_), fun hslot hbusy hnew => ?_⟩
    · exact if_pos hbusy
    · exact fenceRefused_of_fenced hbusy hfenced
    · obtain ⟨hfenced, hhbm, hregs, hlost, htiles⟩ := fences_writeFence hslot hbusy hnew
      exact ⟨_, rfl, hfenced, hhbm, hregs, fun n hn => ⟨(hlost n hn).byte, fun _ => (hlost n hn).bank, (hlost n hn).2.2.2⟩, htiles⟩
  · obtain ⟨t, hexec, hposted⟩ := execChipFailed_of_first (loc := loc) hfirst hlow hhigh
    have hlasting := (lasting_of_posted hposted).trans (lasting_chipStopped s cause.toNat loc.toNat)
    simp only [State.lasting, Prod.mk.injEq] at hlasting
    obtain ⟨hhbm, hstore, hrepair⟩ := hlasting
    exact ⟨t, hexec, hrepair, fun k hk => (((Steady.refl _).posted hposted).phase k).trans (phase_chipStopped s _ _ hk), hhbm, hstore⟩
  · refine ⟨fun hidle hhbm hspare => execPprGo_of_allowed hready hgo hppr ?_, fun hbusy hhbm => execPprGo_of_refused hready hgo hppr hhbm ?_,
      fun hidle hhbm hspare => execPprGo_of_refused hready hgo hppr hhbm ?_⟩
    · exact pprRefused_eq_none hidle hhbm hspare
    · exact if_pos hbusy
    · exact pprRefused_of_exhausted hidle hhbm hspare
  · obtain ⟨m, bad, hzero, hread, hbad⟩ := zeroUnits_spec (s.rowBad r) s
    obtain ⟨t, hexec, _, _, _, hposted⟩ := execPprDone_of_begun hppr
    rw [hzero] at hposted
    rw [hexec, hposted]
    exact ⟨_, rfl, rfl, hread, hbad⟩

end Sys2Proof.Machine
end
